-- ==== Sys2Proof/Word.lean ====
section
/-! DEFINITION. The word and byte types of the VXG-8640: every register is 32 bits wide (R9), every memory cell is a byte.
Bit-field, sign and byte-order helpers live in `Sys2Proof/Machine/Bits.lean`. -/

namespace Sys2Proof

/-- A register word (R9). -/
abbrev Word := BitVec 32

/-- One byte of memory, of a frame or of a record. -/
abbrev Byte := BitVec 8

end Sys2Proof
end

