-- ==== Sys2Proof/Syntax.lean ====
section
/-! DEFINITION. The commands of the VXG-8640, one constructor for each row of spec/opcode_table.json. The first operand of
every command is the LT at which it happens. `who` is an initiator of R612 (0 H0, 1 H1, 2-5 cluster cores, 6 triad, 7 debug port). -/

namespace Sys2Proof


/-- A command (opcode_table.json): a register access, an event on a wire or pin, or an event of the device's own engines. -/
inductive Instr where
  /-- `REGISTER_WRITE` (R839): A write to a register that has no row of its own updates its writable fields, or is refused whole and recorded when it carries a refused value. -/
  | registerWrite (t : Nat) (who : Fin 8) (addr : BitVec 32) (data : Word)
  /-- `ERR_CLR` (R836): Writing 1 to bit 0 of a block's ERR_CLR clears its ERR_CAPTURE record. -/
  | errClr (t : Nat) (who : Fin 8) (blk : Fin 20)
  /-- `LOW_WORD_READ` (R837): A read of the low word of a 64-bit register copies the high word into the reading initiator's shadow for the register's group. -/
  | lowWordRead (t : Nat) (who : Fin 8) (addr : BitVec 32)
  /-- `HIGH_WORD_READ` (R837): A read of a high word returns the initiator's shadow for the group, never the live high word. -/
  | highWordRead (t : Nat) (who : Fin 8) (addr : BitVec 32)
  /-- `RC_READ` (R11): A read of an RC register returns its value and then clears it. -/
  | rcRead (t : Nat) (who : Fin 8) (port : Fin 20)
  /-- `COUNTER_CLEAR` (R68): A write to MAC_PCNT_CLR clears all counters of the port. -/
  | counterClear (t : Nat) (who : Fin 8) (port : Fin 20)
  /-- `LT_FLOOR_ADVANCE` (R34): The device persists an LT floor in secure NVM at least 2^36 counts ahead of the current LT. -/
  | ltFloorAdvance (t : Nat) (ahead : Nat)
  /-- `POWER_ON` (R671): VSUP rises above the brown-out threshold, AON is reset, the rails rise in order and the device runs a full boot. -/
  | powerOn (t : Nat) (straps : Fin 4) (mvA mvB : Nat) (dir0 dir1 obj0 obj1 : List Byte)
  /-- `BROWN_OUT` (R671): VSUP below the brown-out threshold for 10 µs drops every enable, and all state is lost except OTP and secure NVM. -/
  | brownOut (t : Nat) (low : Nat)
  /-- `RESET_N_INPUT` (R829): RESET_N held low for at least 1 µs starts a cold reset with cause 2. -/
  | resetNInput (t : Nat) (low : Nat)
  /-- `COLD_RESET_CMD` (R805): A write to GLB_RST_CMD with key 0xC0DE and cold 1 requests a cold reset, and any other write is recorded with cause 4. -/
  | coldResetCmd (t : Nat) (who : Fin 8) (data : Word)
  /-- `COLD_RESET` (R806): 1 µs after its latch, a cold reset resets every domain except AON, resamples the straps, takes the PCIe links down and sets GLB_RST_CAUSE. -/
  | coldReset (t : Nat) (straps : Fin 4) (dir0 dir1 obj0 obj1 : List Byte)
  /-- `BOOT_RECOVERY_GO` (R775): CFG_BOOT_CMD.go from H0 has the boot ROM judge a first-stage object in system SRAM. -/
  | bootRecoveryGo (t : Nat) (who : Fin 8) (ecc : Bool)
  /-- `TRIAD_WINDOW_WRITE` (R776): A control cluster write to the triad load window goes to all three copies while triad_go is 0, and is refused with cause 4 afterwards. -/
  | triadWindowWrite (t : Nat) (who : Fin 8) (word : Fin 32768) (data : Word)
  /-- `TRIAD_GO` (R776): CFG_TRIAD_GO releases the three triad copies to TCM address 0, closes the window and copies the TCM images into the triad image. -/
  | triadGo (t : Nat) (who : Fin 8)
  /-- `CLOCK_LOSS` (R807): Loss of a PLL lock or oscillator is reported to the SAFE collector, or on loss of the RTC crystal AON keeps LT from the RC oscillator. -/
  | clockLoss (t : Nat) (clk : Fin 6)
  /-- `TEMPERATURE_SCAN` (R835): Every 1 ms the device reads its eight temperature sensors and reports crossings of 150 °C and 160 °C. -/
  | temperatureScan (t : Nat) (temp : Int)
  /-- `USXGMII_SPEED_WORD` (R38): A USXGMII in-band word sets the port speed, or holds the link down and sets speed_refused for 100 or 10 Mb/s. -/
  | usxgmiiSpeedWord (t : Nat) (port : Fin 8) (code : Nat)
  /-- `LINK_TRAINING_START` (R39): At every link-up in 10GBASE-KR mode the device starts Clause 72 training. -/
  | linkTrainingStart (t : Nat) (port : Fin 8)
  /-- `TRAIN_FAIL` (R39): Expiry of the 500 ms wait timer declares training failed, sets train_fail and writes a TRAIN_FAIL record. -/
  | trainFail (t : Nat) (port : Fin 8)
  /-- `RETRAIN_DELAY_EXPIRY` (R39): After retrain_delay expires, the device restarts Clause 72 training. -/
  | retrainDelayExpiry (t : Nat) (port : Fin 8)
  /-- `LINK_UP` (R64): A port's link comes up, the device writes LINK_UP and the TM port state moves to UP. -/
  | linkUp (t : Nat) (port : Fin 24) (word : Nat) (sqi : Fin 8)
  /-- `LINK_DOWN` (R63): Loss of lock, synchronisation or PHY link status that lasts debounce µs declares the link down. -/
  | linkDown (t : Nat) (port : Fin 24) (loss : Nat) (lf rf : Bool)
  /-- `PORT_DISABLE` (R59): Clearing MAC_PCFG.enable takes effect at the next frame boundary, stomps the frame in transmission and discards the frame being received. -/
  | portDisable (t : Nat) (who : Fin 8) (port : Fin 20)
  /-- `TC10_SLEEP_REQ` (R43): MAC_PT1_CTRL.sleep_req starts the TC10 sleep handshake on an edge port. -/
  | tc10SleepReq (t : Nat) (who : Fin 8) (edge : Fin 8)
  /-- `TC10_SLEEP_COMPLETE` (R43): A completed TC10 sleep handshake puts the PHY into low power and leaves the AON wake detector armed if tc10_wake_en is 1. -/
  | tc10SleepComplete (t : Nat) (edge : Fin 8)
  /-- `TC10_WAKE_REQ` (R45): MAC_PT1_CTRL.wake_req sends a TC10 wake on the port. -/
  | tc10WakeReq (t : Nat) (who : Fin 8) (edge : Fin 8)
  /-- `TC10_WAKE_RECEIVED` (R44): A received TC10 wake sets tc10_wake, and during the port's own sleep handshake abandons the sleep and relinks. -/
  | tc10WakeReceived (t : Nat) (edge : Fin 8)
  /-- `WARM_FALLBACK` (R48): A warm start without link-up 4 ms after it began falls back to a cold link-up, is counted and is recorded. -/
  | warmFallback (t : Nat) (edge : Fin 8)
  /-- `PLCA_LOST` (R50): A follower that detects no beacon for the beacon timer runs CSMA/CD and sets plca_lost. -/
  | plcaLost (t : Nat) (drop : Fin 4)
  /-- `PLCA_BEACON_RETURN` (R50): A follower returns to PLCA at the next beacon it receives. -/
  | plcaBeaconReturn (t : Nat) (drop : Fin 4)
  /-- `FRAME_RECEIVE` (R60): The MAC receives a frame, stamps its ingress LT, checks and strips the FCS, removes MACsec where configured and writes the bytes into buffer cells. -/
  | frameReceive (t : Nat) (port : Fin 20) (bytes : List Byte) (fcsOk : Bool) (frags : List (Fin 4 × Fin 4)) (crcOk : List Bool) (queueFull : Bool) (errs : Nat)
  /-- `HEAD_READY` (R82): When the parser has seen 128 bytes after the MAC header, or the frame's tail, it parses the head, builds the metadata, flow key, hash and declared length. -/
  | headReady (t : Nat) (fid : Nat)
  /-- `LANE_SELECTION` (R94): A head enters its bucket's current lane, moving the bucket when the flowlet gap and in-flight conditions permit. -/
  | laneSelection (t : Nat) (fid : Nat)
  /-- `LANE_DECISION` (R77): At the end of the lane pipeline the stages, meters, stream filters, firewall and recovery decide the frame's copies and their cut-through eligibility. -/
  | laneDecision (t : Nat) (lane : Fin 4) (s0 : Nat) (ecc : List (Nat × Nat) × Option (Nat × Nat)) (ctEcc : Option (Fin 4)) (fault : Bool)
  /-- `TAIL_VERIFIED` (R79): In the cycle after the FCS check, store-and-forward copies are queued and cut-through charges are corrected to the actual length. -/
  | tailVerified (t : Nat) (fid : Nat)
  /-- `CT_OVERLEN` (R85): A cut-through copy that has sent its declared length before its tail arrived is ended with a stomped FCS. -/
  | ctOverlen (t : Nat) (fid : Nat) (port : Fin 20)
  /-- `CT_UNDERRUN` (R87): A cut-through copy that reaches an unwritten byte is ended with a stomped FCS and counted. -/
  | ctUnderrun (t : Nat) (fid : Nat) (port : Fin 20) (got : Nat)
  /-- `LANE_SLOW` (R99): A lane whose occupancy stays at or above slow_thr for 8,000 cycles is declared slow and LANE_SLOW is written. -/
  | laneSlow (t : Nat) (lane : Fin 4) (throttled : Bool) (retries : Nat)
  /-- `LANE_CLEAR` (R100): A slow lane whose occupancy stays below clear_thr for 40,000 cycles is cleared and LANE_CLEAR is written. -/
  | laneClear (t : Nat) (lane : Fin 4)
  /-- `LANE_CFG_WRITE` (R841): A write that changes slow_thr or clear_thr restarts every run counted under R99 and R100. -/
  | laneCfgWrite (t : Nat) (who : Fin 8) (data : Word)
  /-- `RETURN_ALL` (R106): PRS_LANE_CTRL.return_all makes every displaced bucket with a non-slow home lane return at its next permitted selection. -/
  | returnAll (t : Nat) (who : Fin 8)
  /-- `LAG_TABLE_REBUILD` (R111): Within 2 µs of a change in a group's distributing members, the device rebuilds the group's distribution table. -/
  | lagTableRebuild (t : Nat) (group : Fin 8)
  /-- `TBL_READ` (R172): The PRS READ command copies a table entry into the data registers. -/
  | tblRead (t : Nat) (who : Fin 8) (table : Fin 16) (staged ecc : Bool)
  /-- `TBL_WRITE` (R173): The PRS WRITE command writes a table entry, which takes effect at the end of its commit cycle. -/
  | tblWrite (t : Nat) (who : Fin 8) (table : Fin 16) (staged ecc : Bool)
  /-- `TBL_INSERT` (R173): INSERT writes a stage 0 or 1 entry over the same key or into the lowest free way and returns the index. -/
  | tblInsert (t : Nat) (who : Fin 8) (table : Fin 16) (staged ecc : Bool)
  /-- `TBL_DELETE` (R173): DELETE invalidates the stage 0 or 1 entry with the key in the data registers. -/
  | tblDelete (t : Nat) (who : Fin 8) (table : Fin 16) (staged ecc : Bool)
  /-- `TBL_SEARCH` (R173): SEARCH returns the index and contents of the stage 0 or 1 entry with the key. -/
  | tblSearch (t : Nat) (who : Fin 8) (table : Fin 16) (staged ecc : Bool)
  /-- `TBL_CLEAR_STATE` (R173): CLEAR_STATE clears blocked, latched_closed or mark_all_red at the index. -/
  | tblClearState (t : Nat) (who : Fin 8) (table : Fin 16) (staged ecc : Bool)
  /-- `TABLE_SCRUB` (R181): The background scrubber visits every table entry once per second and rewrites entries with a single-symbol error. -/
  | tableScrub (t : Nat) (table : Fin 9) (index : Nat)
  /-- `CT_AGER_VISIT` (R209): The ager visits entries and frees and counts each entry that is not live. -/
  | ctAgerVisit (t : Nat) (index : Fin 65536)
  /-- `CT_READ` (R212): The CT READ command copies an entry into the data registers, or zeros for a free or lapsed entry. -/
  | ctRead (t : Nat) (who : Fin 8) (ecc : Bool)
  /-- `CT_INSERT` (R846): The CT INSERT command writes an entry into a free way or over a live entry with the same key, without eviction. -/
  | ctInsert (t : Nat) (who : Fin 8) (ecc : Bool)
  /-- `CT_DELETE` (R212): The CT DELETE command frees the entry at PRS_CT_INDEX. -/
  | ctDelete (t : Nat) (who : Fin 8) (ecc : Bool)
  /-- `CT_FLUSH` (R212): The CT FLUSH command frees every entry. -/
  | ctFlush (t : Nat) (who : Fin 8) (ecc : Bool)
  /-- `SCHEDULER_GRANT` (R266): In each cycle in which a port is ready, its scheduler applies residence, gates, guard bands, shapers and the Purse, and grants at most one copy. -/
  | schedulerGrant (t : Nat) (port : Fin 24) (start corr : Nat) (ecc : Option (Fin 65536 × Fin 8)) (descs : List (List Byte))
  /-- `RESIDENCE_EXPIRY` (R245): A head copy older than max_residence is discarded without transmission and counted in drop_aged. -/
  | residenceExpiry (t : Nat) (port : Fin 24) (tc : Fin 8)
  /-- `COPY_TX_END` (R236): When a copy's transmission ends, its charge is released, its residue bit is cleared, its egress stamp is taken and its cells are freed when no copy remains. -/
  | copyTxEnd (t : Nat) (port : Fin 24)
  /-- `BUFFER_SCRUB` (R225): The buffer scrubber reads one cell every 12,207 cycles, corrects and writes back, and retires cells under R228. -/
  | bufferScrub (t : Nat) (found : Fin 3) (sym : Fin 8 × Fin 36 × Bool) (owner : Option Nat)
  /-- `MC_RESIDUE_AGE_EXPIRY` (R251): When a frame's residue age passes, every copy not yet begun is abandoned and the cells are freed once no copy is in transmission. -/
  | mcResidueAgeExpiry (t : Nat) (fid : Nat)
  /-- `HOLD_EXPIRY` (R253): Expiry of the hold timer moves the port to DOWN and flushes its queues. -/
  | holdExpiry (t : Nat) (port : Fin 24)
  /-- `TM_PORT_FLUSH` (R258): TM_PORT_CMD.flush moves a HOLD port to DOWN with a flush, is refused on an UP port, and does nothing on a DOWN port. -/
  | tmPortFlush (t : Nat) (who : Fin 8) (port : Fin 24)
  /-- `SCH_PORT_CFG_WRITE` (R278): A write of strict changes the strict group from the next cycle and resets the deficits of classes that change group. -/
  | schPortCfgWrite (t : Nat) (who : Fin 8) (port : Fin 24) (data : Word)
  /-- `QUANTUM_WRITE` (R279): A write of quantum takes effect at the class's next quantum addition and keeps its deficit. -/
  | quantumWrite (t : Nat) (who : Fin 8) (port : Fin 24) (tc : Fin 8) (data : Word)
  /-- `CBS_CFG_WRITE` (R290): A write to TM_CBS_CFG replaces the whole shaper state from the next cycle, with credit starting as refill gives. -/
  | cbsCfgWrite (t : Nat) (who : Fin 8) (port : Fin 24) (tc : Fin 8) (data : Word)
  /-- `PURSE_CFG_WRITE` (R290): A write to TM_PURSE_CFG replaces the whole Purse state from the next cycle, with tokens starting as refill gives. -/
  | purseCfgWrite (t : Nat) (who : Fin 8) (port : Fin 24) (data : Word)
  /-- `RATE_WRITE` (R302): A write to TIME_Dd_RATE rebases the domain clock continuously in the next cycle and ends holdover of the working domain. -/
  | rateWrite (t : Nat) (who : Fin 8) (dom : Fin 2) (data : Word)
  /-- `OFFSET_COMMAND` (R303): TIME_Dd_ADJ_CMD.go steps the domain clock by Δ in the next cycle, and working time resolves the jump through w. -/
  | offsetCommand (t : Nat) (who : Fin 8) (dom : Fin 2)
  /-- `WORKING_DOMAIN_CHANGE` (R304): A change of TIME_CFG.working absorbs the jump into w and judges holdover again. -/
  | workingDomainChange (t : Nat) (who : Fin 8) (data : Word)
  /-- `SLEW_DONE` (R305): A running slew brings w to 0 and sets slew_done. -/
  | slewDone (t : Nat)
  /-- `HOLDOVER_ENTRY` (R307): The working domain unsteered for tmo ms enters holdover and TIME_HOLDOVER is written. -/
  | holdoverEntry (t : Nat)
  /-- `BASE_CYCLE_BOUNDARY` (R310): Working time reaching B + k × len raises base-cycle boundary k, which drives the pair snapshot and pending activations. -/
  | baseCycleBoundary (t : Nat)
  /-- `TIME_SNAP` (R300): TIME_CMD.snap captures LT and all three times in one cycle. -/
  | timeSnap (t : Nat) (who : Fin 8)
  /-- `TXTS_POP` (R309): A write to TIME_TXTS_POP discards the head entry of TIME_TXTS. -/
  | txtsPop (t : Nat) (who : Fin 8)
  /-- `GATE_ENTRY_CHANGE` (R316): When working time enters a new gate control list entry, the port's gate states change. -/
  | gateEntryChange (t : Nat) (port : Fin 20)
  /-- `GATE_SWAP_REQUEST` (R317): GATE_PCTL.swap_req validates the admin list, computes the change time and sets pending, or sets list_err. -/
  | gateSwapRequest (t : Nat) (who : Fin 8) (port : Fin 20)
  /-- `GATE_SWAP_CANCEL` (R318): GATE_PCTL.swap_cancel clears pending and writes GATE_SWAP with outcome 3. -/
  | gateSwapCancel (t : Nat) (who : Fin 8) (port : Fin 20)
  /-- `GATE_CHANGE_TIME` (R320): At the change time the admin list and registers are copied into the oper list, and GATE_SWAP is written. -/
  | gateChangeTime (t : Nat) (port : Fin 20)
  /-- `GATE_DISABLE` (R321): Clearing GATE_PCTL.en opens all gates and clears pending in the next cycle, and no list operates. -/
  | gateDisable (t : Nat) (who : Fin 8) (port : Fin 20)
  /-- `MAC_HOLD_START` (R330): hold_adv ns before a SET_AND_HOLD entry, the MAC hold starts while preemption is active. -/
  | macHoldStart (t : Nat) (port : Fin 16)
  /-- `MAC_HOLD_END` (R330): release_adv ns before a SET_AND_RELEASE entry, the MAC hold ends. -/
  | macHoldEnd (t : Nat) (port : Fin 16)
  /-- `PREEMPTION_VERIFY` (R326): At each link-up the device sends verify mPackets verify_time ms apart. -/
  | preemptionVerify (t : Nat) (port : Fin 16)
  /-- `VERIFY_RESPONSE` (R326): An answered verify mPacket makes preemption active and writes PRE_VERIFY. -/
  | verifyResponse (t : Nat) (port : Fin 16)
  /-- `VERIFY_FAIL` (R326): When none of three verify mPackets is answered, the device sets verify_fail and writes PRE_VERIFY. -/
  | verifyFail (t : Nat) (port : Fin 16)
  /-- `TRIM_GATE_START` (R332): In a trim window, the port's egress logic is gated from the later of the window start and the end of the transmission in progress. -/
  | trimGateStart (t : Nat) (port : Fin 20)
  /-- `TRIM_RESTORE` (R332): 300 ns before a trim window ends, the port's egress logic is restored. -/
  | trimRestore (t : Nat) (port : Fin 20)
  /-- `RECOVERY_RESET_TIMER` (R339): Expiry of a recovery function's reset timer resets the function. -/
  | recoveryResetTimer (t : Nat) (fn : Fin 1024)
  /-- `RECOVERY_ENTRY_WRITE` (R342): A write to a recovery entry resets the recovery function so that its next frame is accepted. -/
  | recoveryEntryWrite (t : Nat) (who : Fin 8) (fn : Fin 1024) (word : Fin 4) (data : Word)
  /-- `CIPHER_JOB_START` (R405): The Mint reads a cipher job's block, checks it in order, loads its key and starts or resumes processing. -/
  | cipherJobStart (t : Nat) (desc blk blob ctx : List Byte) (blkOk keyOk : Bool)
  /-- `PROVISIONAL_COMPLETION` (R375): A streaming decryption writes plaintext per 16 KiB and posts a provisional completion every note_every chunks. -/
  | provisionalCompletion (t : Nat) (core : Fin 8) (src : List Byte)
  /-- `CIPHER_JOB_COMPLETE` (R403): A cipher job ends and posts its final completion, zero-filling written bytes first on TAG_FAIL or PAD_ERR. -/
  | cipherJobComplete (t : Nat) (core : Fin 10) (src : List Byte)
  /-- `TELLER_PREEMPT` (R356): The Teller preempts a running job after the block in progress, saves its context and starts the waiting job. -/
  | tellerPreempt (t : Nat) (client : Fin 3) (kecc : Bool) (blocks : Nat) (src : List Byte)
  /-- `CORE_SLOW_DECLARE` (R359): A core whose rate estimate falls below slow_pct is declared slow, given no new work and MINT_SLOW is written. -/
  | coreSlowDeclare (t : Nat) (core : Fin 8) (est blocks : Nat) (src : List Byte)
  /-- `SLOW_CORE_KAT` (R360): Every 1 ms a known-answer job runs on each slow core and returns it to service when it reaches slow_pct + 10. -/
  | slowCoreKat (t : Nat) (core : Fin 8) (rate : Nat)
  /-- `MINT_MISMATCH` (R362): A first datapath mismatch discards the block, gives the core a strike and restarts the job or frame on another core. -/
  | mintMismatch (t : Nat) (core : Fin 10) (client : Fin 4) (who block : Nat)
  /-- `MINT_QUARANTINE` (R363): A mismatch on the retry ends the job with FAULT_MISMATCH or drops the frame and quarantines the retry core. -/
  | mintQuarantine (t : Nat) (core : Fin 10) (client : Fin 4) (who block : Nat) (out : Bool) (fid : Nat)
  /-- `CORE_RELEASE` (R364): MINT_CORE_CTRL.release starts a 1,024-block known-answer self-test on a quarantined core. -/
  | coreRelease (t : Nat) (who : Fin 8) (core : Fin 10)
  /-- `SELF_TEST_DONE` (R364): A core whose self-test passes returns to service, and otherwise stays quarantined with MINT_QUARANTINE of cause 3. -/
  | selfTestDone (t : Nat) (core : Fin 10) (pass : Bool)
  /-- `CORE_QUARANTINE_CMD` (R364): MINT_CORE_CTRL.quarantine quarantines the core at the end of its current job or frame. -/
  | coreQuarantineCmd (t : Nat) (who : Fin 8) (core : Fin 10)
  /-- `ENCODING_AN_WRITE` (R398): A write of encoding_an governs copies whose protection starts in the cycle after the write. -/
  | encodingAnWrite (t : Nat) (who : Fin 8) (port : Fin 16) (data : Word)
  /-- `GENERATE` (R429): The Vault GENERATE command fills a slot with a random key of the policy's length. -/
  | generate (t : Nat) (mb : Fin 4)
  /-- `LOAD_BLOB` (R426): The Vault LOAD_BLOB command unwraps a blob into a slot with the blob's policy. -/
  | loadBlob (t : Nat) (mb : Fin 4) (mem : List Byte) (readOk : Bool)
  /-- `EXPORT_BLOB` (R424): The Vault EXPORT_BLOB command writes a slot's key as a blob under the selected KEK. -/
  | exportBlob (t : Nat) (mb : Fin 4) (writeOk : Bool)
  /-- `ERASE` (R430): The Vault ERASE command empties a slot from the cycle after its acceptance. -/
  | erase (t : Nat) (mb : Fin 4)
  /-- `DERIVE_SLOT` (R422): The Vault DERIVE_SLOT command derives a key from a root slot into a slot. -/
  | deriveSlot (t : Nat) (mb : Fin 4) (mem : List Byte) (readOk : Bool)
  /-- `KW_UNWRAP` (R429): The Vault KW_UNWRAP command unwraps an RFC 3394 wrapped key into a slot. -/
  | kwUnwrap (t : Nat) (mb : Fin 4) (mem : List Byte) (readOk : Bool)
  /-- `KW_WRAP` (R429): The Vault KW_WRAP command wraps a slot's key with RFC 3394 to memory. -/
  | kwWrap (t : Nat) (mb : Fin 4) (writeOk : Bool)
  /-- `EXTEND` (R419): The Vault EXTEND command extends a BMR with a 32-byte digest, or ends with MEAS_LOCKED. -/
  | extend (t : Nat) (mb : Fin 4) (mem : List Byte) (readOk : Bool)
  /-- `CHALLENGE` (R438): The Vault CHALLENGE command writes a KMAC256 response over the challenge, device ID, BMRs and lifecycle. -/
  | challenge (t : Nat) (mb : Fin 4) (mem : List Byte) (readOk writeOk : Bool)
  /-- `ATTEST` (R442): The Vault ATTEST command writes a statement and an XMSS signature with a leaf reserved from counter 0. -/
  | attest (t : Nat) (mb : Fin 4) (mem : List Byte) (readOk writeOk : Bool)
  /-- `VERIFY` (R439): The Vault VERIFY command verifies an XMSS signature against a selected root. -/
  | verify (t : Nat) (mb : Fin 4) (mem pk msg sig : List Byte) (readOk : Bool)
  /-- `XMSS_PUB` (R429): The Vault XMSS_PUB command writes the 68-byte attestation public key. -/
  | xmssPub (t : Nat) (mb : Fin 4) (writeOk : Bool)
  /-- `CTR_ADVANCE` (R437): The Vault CTR_ADVANCE command raises an advance counter to the given value. -/
  | ctrAdvance (t : Nat) (mb : Fin 4) (nvmOk : Bool)
  /-- `OTP_PROG` (R415): The Vault OTP_PROG command programs FSS or ORH once in MANUFACTURE. -/
  | otpProg (t : Nat) (mb : Fin 4) (mem : List Byte) (readOk : Bool)
  /-- `XMSS_KEYGEN` (R441): The Vault XMSS_KEYGEN command derives the seeds, builds the tree and stores the key once. -/
  | xmssKeygen (t : Nat) (mb : Fin 4)
  /-- `SEAL_LOCK` (R421): VAULT_CTRL.seal_lock derives the CDI, KEKs, roots and challenge key and sets sealed. -/
  | sealLock (t : Nat) (who : Fin 8)
  /-- `NVM_WRITE_DONE` (R432): A reserve counter's new limit written to secure NVM completes, or fails with NVM_FAIL, before a value at or above the old limit is issued. -/
  | nvmWriteDone (t : Nat) (ok : Bool)
  /-- `SHARE_RERANDOMISE` (R417): The Vault re-randomises each slot's key shares at least once per millisecond. -/
  | shareRerandomise (t : Nat) (bad : Option (Fin 256))
  /-- `CAN_TX_ENQUEUE` (R457): A CAN TX descriptor places its message into the named transmit FIFO, waiting while the FIFO is full. -/
  | canTxEnqueue (t : Nat) (ring : Fin 64) (desc data : List Byte) (readOk : Bool)
  /-- `CAN_FRAME_START` (R460): At a selection point the candidate message begins by driving its SOF or taking a received SOF as its own arbitration. -/
  | canFrameStart (t : Nat) (chan : Fin 16) (sof : Nat) (ecc : Bool)
  /-- `CAN_ARBITRATION_LOST` (R461): A message that loses arbitration returns to the head of its FIFO, or completes ONE_SHOT_FAIL or CANCELLED. -/
  | canArbitrationLost (t : Nat) (chan : Fin 16)
  /-- `CAN_FRAME_ERROR` (R478): An error in a frame updates TEC and REC, moves the error state, and returns or completes the message. -/
  | canFrameError (t : Nat) (chan : Fin 16) (dTec dRec : Nat)
  /-- `CAN_TX_COMPLETE` (R468): A message that sends without error completes OK with its SOF and EOF stamps. -/
  | canTxComplete (t : Nat) (chan : Fin 16) (eof : Nat)
  /-- `CAN_TX_CANCEL` (R464): A write to CAN_TX_CANCEL latches a cancel that removes the named message, is refused as BEGUN, or finds nothing. -/
  | canTxCancel (t : Nat) (who : Fin 8) (data : Word)
  /-- `CAN_FRAME_RECEIVED` (R471): A received frame is filtered and written into the next free receive buffer, or discarded and counted in rx_overflow. -/
  | canFrameReceived (t : Nat) (chan : Fin 16) (ident : BitVec 29) (ide rtr : Bool) (fmt : Fin 3) (brs esi : Bool) (sdt vcid : BitVec 8) (af : BitVec 32) (data : List Byte) (sof eof : Nat)
  /-- `CAN_RX_RING_DELIVER` (R474): In ring mode the DMA moves a received frame to the channel's CAN RX ring and posts its completion. -/
  | canRxRingDeliver (t : Nat) (chan : Fin 24) (ring : Fin 64) (desc : List Byte) (ecc : Bool)
  /-- `CAN_WINDOW_LOCK_READ` (R475): A window read of word 0 of a valid buffer locks it and starts its lock timer. -/
  | canWindowLockRead (t : Nat) (who : Fin 8) (chan : Fin 16) (buf : Nat) (ecc : Bool)
  /-- `CAN_WINDOW_RELEASE_READ` (R475): A window read of a locked buffer's last word releases the lock and frees the buffer for the host. -/
  | canWindowReleaseRead (t : Nat) (who : Fin 8) (chan : Fin 16) (buf : Nat) (ecc : Bool)
  /-- `RX_LOCK_BROKEN` (R476): A lock held longer than rx_lock_max is broken, the buffer freed, broken set and RX_LOCK_BROKEN written. -/
  | rxLockBroken (t : Nat) (chan : Fin 16) (buf : Nat)
  /-- `CAN_RECOVER` (R478): CAN_CMD.recover moves a BUS_OFF channel with HOST recovery into RECOVERING. -/
  | canRecover (t : Nat) (who : Fin 8) (chan : Fin 16)
  /-- `RECOVERY_COMPLETE` (R478): After 128 sequences of 11 recessive bits, a recovering channel becomes ACTIVE with TEC and REC at 0. -/
  | recoveryComplete (t : Nat) (chan : Fin 16)
  /-- `STUCK_DOMINANT` (R483): A bus held dominant for more than 1,408 nominal bit times sets stuck_dom and writes CAN_STATE. -/
  | stuckDominant (t : Nat) (chan : Fin 16)
  /-- `CAN_PN_WAKE` (R486): An armed partial-network decoder wakes the device on a matching frame, a wake-up pattern or 32 decode errors. -/
  | canPnWake (t : Nat) (dec : Fin 4) (kind : Fin 3) (ident : BitVec 29) (ide : Bool) (dlc : Fin 16) (data : List Byte) (errs eof : Nat)
  /-- `LIN_SCHEDULE_SELECT` (R489): A write of LIN_SCHED_CMD table or run selects, starts or stops the commander schedule at the end of the current slot. -/
  | linScheduleSelect (t : Nat) (who : Fin 8) (chan : Fin 8) (table : Fin 4) (run : Bool)
  /-- `LIN_SLOT_START` (R489): At each slot start the commander sends the break, sync and protected identifier, or the go-to-sleep request. -/
  | linSlotStart (t : Nat) (chan : Fin 8)
  /-- `LIN_HEADER_RECEIVED` (R490): A responder that sees a header sends its published response or waits for the subscribed one. -/
  | linHeaderReceived (t : Nat) (chan : Fin 8) (ident : Fin 64) (err : Nat × Nat)
  /-- `LIN_FRAME_RECEIVED` (R493): A subscribed LIN frame that ends without error goes to its destinations, and detected errors write LIN_ERR. -/
  | linFrameReceived (t : Nat) (chan : Fin 8) (data : List Byte × BitVec 8) (err eof : Nat)
  /-- `LIN_NO_RESPONSE` (R493): A response not ended within 1.4 times its nominal frame time is a no-response error. -/
  | linNoResponse (t : Nat) (chan : Fin 8)
  /-- `LIN_IDLE_SLEEP` (R494): A responder that sees the bus idle for 4 s sets asleep. -/
  | linIdleSleep (t : Nat) (chan : Fin 8)
  /-- `LIN_WAKE` (R495): LIN_SCHED_CMD.wake sends a dominant wake-up signal. -/
  | linWake (t : Nat) (who : Fin 8) (chan : Fin 8)
  /-- `LIN_WAKE_RECEIVED` (R495): A dominant pulse of at least 150 µs while asleep sets wake_rx. -/
  | linWakeReceived (t : Nat) (chan : Fin 8) (pulse : Nat)
  /-- `LIN_SCHEDULE_RESUME` (R495): A commander resumes its table 100 ms after a wake signal. -/
  | linScheduleResume (t : Nat) (chan : Fin 8)
  /-- `SGE_SOURCE_TAKE` (R519): The SGE takes the next available source frame, judges its crossing, matches its PDU and applies its routes and frame routes. -/
  | sgeSourceTake (t : Nat) (elem : Bool) (ecc : Option (Nat × Nat))
  /-- `SECOC_RX_VERIFY` (R539): A secured receive PDU whose freshness and MAC check finishes is accepted and applied, or rejected with SECOC_FAIL. -/
  | secocRxVerify (t : Nat) (fault : Bool)
  /-- `SIGNAL_TIMEOUT` (R516): The timeout scanner writes subst into a route whose last update is older than tmo_us, sets timed_out and writes SIG_TIMEOUT. -/
  | signalTimeout (t : Nat) (route : Fin 8192)
  /-- `MIN_GAP_EXPIRY` (R523): A deferred on-change trigger is emitted at the last emission plus min_gap_us. -/
  | minGapExpiry (t : Nat) (pdu : Fin 2048) (ecc : Option (Nat × Nat))
  /-- `PERIODIC_EMISSION` (R522): At each working-time instant k × period_us + phase_us a periodic PDU is emitted. -/
  | periodicEmission (t : Nat) (pdu : Fin 2048) (ecc : Option (Nat × Nat))
  /-- `GATE_EMISSION` (R522): gate_lead µs before a gate opening, a gate-triggered PDU is emitted. -/
  | gateEmission (t : Nat) (pdu : Fin 2048) (ecc : Option (Nat × Nat))
  /-- `PENDING_EMISSION_PLACE` (R527): A pending emission is placed, with its image read then, when its FIFO or port 23 queue has room. -/
  | pendingEmissionPlace (t : Nat) (index : Nat)
  /-- `SECOC_TX_COMPLETE` (R537): A secured transmit PDU is emitted when its Mint job ends OK, and otherwise is refused with SECOC_FAIL. -/
  | secocTxComplete (t : Nat) (pdu : Fin 2048) (fault : Bool)
  /-- `SGE_TBL_READ` (R547): The SGE READ command copies a table entry into the data registers. -/
  | sgeTblRead (t : Nat) (who : Fin 8) (table : Fin 16) (staged ecc : Bool)
  /-- `SGE_TBL_WRITE` (R547): The SGE WRITE command writes a table entry between two source frames. -/
  | sgeTblWrite (t : Nat) (who : Fin 8) (table : Fin 16) (staged ecc : Bool)
  /-- `FRESH_READ` (R540): The freshness READ command returns a counter's value and whether it is armed and serves a transmit PDU. -/
  | freshRead (t : Nat) (who : Fin 8) (fn : Fin 1024)
  /-- `RAISE` (R540): The RAISE command sets one freshness counter to the larger of its value and the given value and arms it. -/
  | raise (t : Nat) (who : Fin 8) (fn : Fin 1024)
  /-- `RAISE_ALL` (R540): The RAISE_ALL command raises and arms every transmit freshness counter. -/
  | raiseAll (t : Nat) (who : Fin 8)
  /-- `SGE_RUN` (R546): A write of SGE_CTRL.run starts or stops the SGE. -/
  | sgeRun (t : Nat) (who : Fin 8) (run : Bool)
  /-- `DOORBELL` (R563): A write to HIF_DB advances a ring's tail or head, or is refused when it would exceed the ring. -/
  | doorbell (t : Nat) (who : Fin 8) (ring : Fin 64) (index : BitVec 17)
  /-- `TRANSFER_START` (R598): When a transfer slot and staging space are free, the read engine starts the next transfer by priority and round robin. -/
  | transferStart (t : Nat) (reads : List (List Byte × List Byte)) (wrote : List (Fin 64))
  /-- `FRAME_TX_HANDOVER` (R583): A frame gathered from a frame TX ring is handed to the parser with its ingress stamp and its completion is posted. -/
  | frameTxHandover (t : Nat) (ring : Fin 64)
  /-- `GATHER_TMO` (R582): Expiry of the gather timer discards the open frame, posts PARTIAL_DISCARD and writes GATHER_TMO. -/
  | gatherTmo (t : Nat) (ring : Fin 64)
  /-- `FRAME_RX_COMPLETE` (R588): A delivered copy's data has been written and its frame RX completion is posted. -/
  | frameRxComplete (t : Nat) (ring : Fin 64)
  /-- `MEMORY_COPY_COMPLETE` (R591): A memory copy has moved every line with its swap applied and posts its completion. -/
  | memoryCopyComplete (t : Nat) (ring : Fin 64)
  /-- `COAL_TIMEOUT` (R572): When coal_us µs have passed since the first unsignalled record, the completion ring raises its vector. -/
  | coalTimeout (t : Nat) (ring : Fin 64)
  /-- `DMA_ERROR` (R599): A failed read or write ends its transfer with the error status, and stops the ring when a descriptor, record or write-back failed. -/
  | dmaError (t : Nat) (ring : Fin 64) (kind : Fin 4) (ecc : Bool) (addr : BitVec 64)
  /-- `RING_STOP` (R601): HIF_RING_CTRL.stop latches a stop after which no further descriptor starts. -/
  | ringStop (t : Nat) (who : Fin 8) (ring : Fin 64)
  /-- `RING_STOPPED` (R602): Once started work and any open frame have ended, the ring sets stopped and clears running. -/
  | ringStopped (t : Nat) (ring : Fin 64)
  /-- `RING_START` (R603): HIF_RING_CTRL.start resumes a stopped ring from its head. -/
  | ringStart (t : Nat) (who : Fin 8) (ring : Fin 64)
  /-- `RING_WITHDRAW` (R603): HIF_RING_CTRL.withdraw completes the posted descriptors of a stopped ring with ABORT_STOP. -/
  | ringWithdraw (t : Nat) (who : Fin 8) (ring : Fin 64)
  /-- `RING_CLEAR_ERR` (R603): HIF_RING_CTRL.clear_err clears err on a stopped ring. -/
  | ringClearErr (t : Nat) (who : Fin 8) (ring : Fin 64)
  /-- `RING_ENABLE` (R563): Setting HIF_RING_CFG.en sets both ring indices to 0 and enables the ring. -/
  | ringEnable (t : Nat) (who : Fin 8) (ring : Fin 64) (data : Word)
  /-- `RING_DISABLE` (R604): Writing en = 0 disables a stopped ring, and is refused on a running ring. -/
  | ringDisable (t : Nat) (who : Fin 8) (ring : Fin 64) (data : Word)
  /-- `BUS_MASTER_DISABLE` (R605): A cleared Bus Master Enable, or a link down, fails transfers to the function's memory and stops its rings with err code 4. -/
  | busMasterDisable (t : Nat) (fn : Fin 2) (link : Bool)
  /-- `FUNCTION_LEVEL_RESET` (R606): A Function Level Reset disables the function's rings, discards its frames and transfers, and takes its port down. -/
  | functionLevelReset (t : Nat) (fn : Fin 2)
  /-- `PCIE_LINK_UP` (R589): A PCIe link trains up, and its host port may become UP. -/
  | pcieLinkUp (t : Nat) (link : Fin 2) (speed width : Fin 5)
  /-- `BAR2_WRITE` (R557): A BAR2 write reaches system SRAM while permitted, and is otherwise discarded and recorded with cause 8. -/
  | bar2Write (t : Nat) (fn : Fin 2) (off : Nat) (bytes : List Byte)
  /-- `BAR0_PARTIAL_WRITE` (R556): A BAR0 write whose byte enables do not cover a whole register is discarded and recorded with cause 7. -/
  | bar0PartialWrite (t : Nat) (fn : Fin 2) (off : Nat)
  /-- `POSTED_WRITE_ERROR` (R618): A posted write that fails creates an entry in the agent's error queue, raises its interrupt and reports to the SAFE collector. -/
  | postedWriteError (t : Nat) (who : Fin 8) (addr : Nat) (data : Word) (code : Fin 5)
  /-- `TARGET_TIMEOUT` (R615): BRG ends with ERR_TARGET an access that has had no response within tgt_tmo cycles. -/
  | targetTimeout (t : Nat) (who : Fin 8) (addr : Nat) (data : Word) (write : Bool) (since : Nat)
  /-- `PWE_POP` (R619): A write to BRG_PWE_POP removes the reading agent's oldest posted-write error entry. -/
  | pwePop (t : Nat) (who : Fin 8)
  /-- `LR_W` (R622): An LR.W reads the word and arms a monitor for the hart, releasing its previous monitor. -/
  | lrW (t : Nat) (hart : Fin 5) (addr : BitVec 32)
  /-- `SC_W` (R624): An SC.W writes its word only when the hart's monitor is armed on it, and clears the monitor. -/
  | scW (t : Nat) (hart : Fin 5) (addr : BitVec 32) (data : Word)
  /-- `AMO_W` (R625): An AMO.W locks a monitor while BRG reads, computes and writes the word. -/
  | amoW (t : Nat) (hart : Fin 5) (op : Fin 9) (addr : BitVec 32) (data : Word)
  /-- `EXCLUSIVE_64_ACCESS` (R626): LR.D, SC.D and 64-bit AMOs to the register range fail with ERR_DECODE. -/
  | exclusive64Access (t : Nat) (hart : Fin 5) (addr : Nat)
  /-- `MONITOR_TIMEOUT` (R623): An armed monitor clears excl_tmo µs after it was armed. -/
  | monitorTimeout (t : Nat) (hart : Fin 5)
  /-- `SAFE_ERROR_REPORT` (R627): A block's uncorrectable error report joins the collector queue in LT order, preempting when its severity exceeds all ahead, or is lost on overflow. -/
  | safeErrorReport (t : Nat) (src code : Fin 65536) (sev : Fin 4) (info : Nat)
  /-- `SAFE_EC_ACK` (R628): SAFE_EC_ACK removes the head entry, and the next entry becomes head and reacts unless already reacted. -/
  | safeEcAck (t : Nat) (who : Fin 8)
  /-- `SAFE_EC_OVF_CLR` (R630): SAFE_EC_OVF_CLR clears overflow while the queue holds fewer than 64 entries. -/
  | safeEcOvfClr (t : Nat) (who : Fin 8)
  /-- `FAULT_SET` (R633): SAFE_FAULT_CTRL.set asserts FAULT. -/
  | faultSet (t : Nat) (who : Fin 8)
  /-- `FAULT_RELEASE` (R634): SAFE_FAULT_CTRL.release deasserts FAULT when no faulting entry remains, overflow is 0 and fault_min has passed. -/
  | faultRelease (t : Nat) (who : Fin 8)
  /-- `LEDGER_ACCEPT` (R645): In each cycle the Ledger accepts one queued event record, or a due frame record, numbers it and writes it into ledger SRAM. -/
  | ledgerAccept (t : Nat)
  /-- `TIME_ANCHOR` (R646): The Ledger writes TIME_ANCHOR after LEDGER_START, steps, holdover or domain changes, and every anchor_ms. -/
  | timeAnchor (t : Nat)
  /-- `ANCHOR_MS_WRITE` (R646): A write of anchor_ms governs from the next cycle and writes an anchor at once if the new interval has passed. -/
  | anchorMsWrite (t : Nat) (who : Fin 8) (data : Word)
  /-- `LEDGER_LOST` (R647): After a discard or loss, the Ledger writes one LEDGER_LOST record per 1 ms window. -/
  | ledgerLost (t : Nat)
  /-- `EXPORT_ENABLE` (R654): Setting LEDGER_EXPORT_CFG.en makes the records accepted from the next cycle unexported. -/
  | exportEnable (t : Nat) (who : Fin 8) (data : Word)
  /-- `EXPORT_BUFFER_FULL` (R659): An export buffer filled with whole records posts its completion. -/
  | exportBufferFull (t : Nat) (ecc : Option Nat)
  /-- `EXPORT_FLUSH_TIMEOUT` (R659): flush_us µs after a buffer's first record, the export completion is posted. -/
  | exportFlushTimeout (t : Nat) (ecc : Option Nat)
  /-- `PARK` (R673): PWR_CMD.park is refused with a code, or latched: work stops starting, coefficients are stored and TC10 sleep starts, and drain begins. -/
  | park (t : Nat) (who : Fin 8)
  /-- `PARK_CANCEL` (R682): PWR_CMD.cancel before commit abandons the park and returns to RUN. -/
  | parkCancel (t : Nat) (who : Fin 8)
  /-- `DRAIN_COMPLETE` (R676): When all drained work has ended, the park moves to its store phase. -/
  | drainComplete (t : Nat)
  /-- `DRAIN_TIMEOUT` (R678): At the drain deadline, unfinished work is aborted, stomped or truncated and DRAIN_ABORT is written. -/
  | drainTimeout (t : Nat)
  /-- `PARK_COMMIT` (R681): At the end of store, PMIC_EN2 and EN3 are driven low. -/
  | parkCommit (t : Nat)
  /-- `PMIC_ENABLE_STEP` (R694): 10 µs after the previous enable change and with PMIC_PG held, PWR changes the next rail enable in sequence. -/
  | pmicEnableStep (t : Nat)
  /-- `WAKE_IN_DETECT` (R685): A WAKE_IN pin that completes deb samples at its active level or after an edge wakes the device. -/
  | wakeInDetect (t : Nat) (levels : Fin 16)
  /-- `RTC_ALARM` (R686): The RTC alarm wakes the device at the first tick with LT at or above the alarm, and the alarm is zeroed. -/
  | rtcAlarm (t : Nat)
  /-- `TC10_WAKE_DETECT` (R684): An armed TC10 wake detector detects a wake pulse in PARK-LISTEN. -/
  | tc10WakeDetect (t : Nat) (edge : Fin 8)
  /-- `WAKE_SEQUENCE_START` (R683): A detected wake, after PMIC_PG low or pg_tmo when latched at or after commit, raises the enables and starts the wake sequence. -/
  | wakeSequenceStart (t : Nat) (pgLow : Bool)
  /-- `PMIC_PG_RISE` (R694): PMIC_PG rising lets PWR proceed with the enable sequence. -/
  | pmicPgRise (t : Nat)
  /-- `PLL_LOCK` (R33): The core PLLs lock, FCLK runs and LT is taken over from AON. -/
  | pllLock (t : Nat) (clk : Fin 5)
  /-- `RESTORE_DONE` (R692): Restore from retention ends and the fabric, SGE, triad, cluster and edge ports start. -/
  | restoreDone (t : Nat) (ecc : Bool × Fin 256)
  /-- `PMIC_PG_TIMEOUT` (R695): PMIC_PG not rising within pg_tmo drops every enable, holds FAULT and counts a PMIC fault. -/
  | pmicPgTimeout (t : Nat)
  /-- `PMIC_FAULT_INPUT` (R696): PMIC_PG falling unexpectedly or PMIC_IRQ_N low is reported as 0x0D04 CRITICAL. -/
  | pmicFaultInput (t : Nat) (irqN : Bool)
  /-- `PMIC_SPI_WRITE` (R697): A PMIC register write is read back, and a mismatch is a PMIC_FAULT and repeated once. -/
  | pmicSpiWrite (t : Nat) (back back2 : Nat)
  /-- `AVS_UPDATE` (R698): Every 100 µs PWR reads the delay monitors and moves VDD_CORE towards the clamped target. -/
  | avsUpdate (t : Nat) (need : Option Nat)
  /-- `IDLE_GATING_START` (R670): After idle_us of idleness, PWR stops FCLK to lanes, stages and Mint cores. -/
  | idleGatingStart (t : Nat)
  /-- `IDLE_GATING_END` (R670): A frame byte, doorbell, Vault or Mint request or SGE trigger ends idle gating within 16 cycles. -/
  | idleGatingEnd (t : Nat)
  /-- `DOMAIN_POWER_DOWN` (R701): A write of 1 to a domain's PWR_DOM_CTRL bit powers it down, or is refused while its condition holds. -/
  | domainPowerDown (t : Nat) (who : Fin 8) (dom : Fin 16)
  /-- `DOMAIN_POWER_UP` (R703): A write of 0 to a domain's bit powers the domain up and applies its held writes. -/
  | domainPowerUp (t : Nat) (who : Fin 8) (dom : Fin 16)
  /-- `TRIAD_SINGLE_MISMATCH` (R710): A single copy that disagrees is stopped and resynchronised from the agreeing copies. -/
  | triadSingleMismatch (t : Nat) (copy : Fin 3) (tcm : Bool) (group : Fin 256) (pc : Word)
  /-- `TRIAD_REJOIN` (R711): After the bulk, converge and stall phases, all three copies restart in lock step and TRIAD_RESYNC is written. -/
  | triadRejoin (t : Nat)
  /-- `TRIAD_DOUBLE_MISMATCH` (R715): A double mismatch asserts FAULT, blocks the triad outputs and holds all copies in reset. -/
  | triadDoubleMismatch (t : Nat) (copies : Fin 8) (group : Fin 256) (pc : Word)
  /-- `TRIAD_RESTART` (R716): With auto_restart, the copies leave reset together restart_ms after the double mismatch, reloaded from the triad image. -/
  | triadRestart (t : Nat) (ecc : Bool)
  /-- `TRIAD_WDT_KICK` (R717): A write of 0xA5 to TRIAD_WDT_KICK within the window kicks the triad watchdog, and a wrong or early kick is an expiry. -/
  | triadWdtKick (t : Nat) (who : Fin 8) (data : Word)
  /-- `TRIAD_WDT_EXPIRY` (R717): No valid kick within tmo_us is handled as a double mismatch with report 0x0EF0. -/
  | triadWdtExpiry (t : Nat)
  /-- `CWDT_KICK` (R719): A control cluster write to TRIAD_CWDT_KICK kicks the cluster watchdog. -/
  | cwdtKick (t : Nat) (who : Fin 8)
  /-- `CWDT_EXPIRY` (R718): No cluster kick within tmo_us interrupts the triad and reports 0x0EF1 MAJOR. -/
  | cwdtExpiry (t : Nat)
  /-- `DMI_ACCESS` (R720): A DMI access is permitted by the lifecycle state, or returns op status 2. -/
  | dmiAccess (t : Nat) (dm : Fin 2) (addr : Fin 128) (op : Fin 4) (data : Word)
  /-- `DEBUG_HALT_REQUEST` (R724): A halt request applies to all three copies in SERVICE, or splits the triad in LAB when addressed to fewer. -/
  | debugHaltRequest (t : Nat) (dm : Fin 2) (harts : Fin 16)
  /-- `DEBUG_RESUME_REQUEST` (R724): A resume request resumes the halted copies in the same cycle. -/
  | debugResumeRequest (t : Nat) (dm : Fin 2) (harts : Fin 16)
  /-- `ABSTRACT_COMMAND` (R724): An abstract command is replayed on all three copies and returns copy A's value. -/
  | abstractCommand (t : Nat) (dm : Fin 2) (harts : Fin 16) (odd : Option (Fin 3))
  /-- `SYSTEM_BUS_ACCESS` (R721): A debug system bus access is initiator 7, limited in SERVICE, and returns sberror on error. -/
  | systemBusAccess (t : Nat) (write : Bool) (addr : BitVec 32) (data : Word)
  /-- `TOKEN_SUBMIT` (R734): DBG_LC_CMD.submit judges a token and performs a lifecycle transition or opens a SERVICE session. -/
  | tokenSubmit (t : Nat) (who : Fin 8)
  /-- `LC_DEPLOY` (R731): DBG_LC_CMD.deploy moves MANUFACTURE to DEPLOYED, or SERVICE to DEPLOYED. -/
  | lcDeploy (t : Nat) (who : Fin 8)
  /-- `SESSION_CLOSE` (R722): DBG_LC_CMD.close ends the SERVICE session and extends BMR3. -/
  | sessionClose (t : Nat) (who : Fin 8)
  /-- `SESSION_EXPIRY` (R722): A SERVICE session ends session_s seconds after it opened. -/
  | sessionExpiry (t : Nat)
  /-- `TOKEN_CLAIM` (R738): A standby claims PAIR_ACT after 2 + 2 × PAIR_ID ticks of a released line, and takes over. -/
  | tokenClaim (t : Nat) (samples : Nat) (fltIn : Bool)
  /-- `GUARDED_PORTS_RELEASE` (R762): 20 µs after the claim, the new active releases its guarded ports and channels and writes PAIR_TAKEOVER. -/
  | guardedPortsRelease (t : Nat)
  /-- `PAIR_ACT_LINE_FAULT` (R740): A device that drives PAIR_ACT low and reads it high for 8 cycles releases the line and reports 0x0FF1. -/
  | pairActLineFault (t : Nat) (cycles : Nat)
  /-- `LEASE_EXPIRY` (R742): AON releases PAIR_ACT when no lease renewal has come for about three pair cycles. -/
  | leaseExpiry (t : Nat)
  /-- `HOLDOFF_EXPIRY` (R743): holdoff_ms after a release, the device may claim the token again. -/
  | holdoffExpiry (t : Nat)
  /-- `PAIR_CYCLE_CLOSE` (R749): settle_us after a boundary, the device closes the cycle's digest, judges missing digests and sends its bundle. -/
  | pairCycleClose (t : Nat)
  /-- `BUNDLE_RECEIVE` (R752): A whole bundle with a good CRC is applied in section order, or discarded and need_sync set. -/
  | bundleReceive (t : Nat) (crcOk : Bool) (flags : BitVec 8) (ver : Word) (cycle lt len : Nat) (secs : List (Nat × List Byte))
  /-- `SELF_CHECK_END` (R759): 200 µs after a mismatch, the self-check ends, its result is sent and the outcome table is applied. -/
  | selfCheckEnd (t : Nat) (mintOk replayOk eccOk : Bool)
  /-- `SELF_CHECK_RESULT_TIMEOUT` (R759): A partner result not arrived 250 µs after the mismatch counts as failed. -/
  | selfCheckResultTimeout (t : Nat)
  /-- `PAIR_ACCEPT` (R765): PAIR_CMD.accept arms acceptance for accept_ms and sets the accept flag in bundles. -/
  | pairAccept (t : Nat) (who : Fin 8)
  /-- `ACCEPT_EXPIRY` (R765): Acceptance disarms accept_ms after it was armed. -/
  | acceptExpiry (t : Nat)
  /-- `PAIR_HANDOVER` (R766): PAIR_CMD.handover is accepted when the partner is armed, fit and current, and otherwise refused. -/
  | pairHandover (t : Nat) (who : Fin 8)
  /-- `HANDOVER_RELEASE` (R766): When the handover bundle ends, the active releases PAIR_ACT. -/
  | handoverRelease (t : Nat)
  /-- `CLEAR_ALERT` (R759): PAIR_CMD.clear_alert returns fit to 1. -/
  | clearAlert (t : Nat) (who : Fin 8)
  /-- `CFG_COMMIT` (R780): CFG_CMD.commit commits an OPEN bank A in MANUFACTURE or LAB, or ends with LIFECYCLE_DENY. -/
  | cfgCommit (t : Nat) (who : Fin 8)
  /-- `CFG_LOAD` (R781): CFG_CMD.load judges an image and starts applying its records to the open or non-active bank. -/
  | cfgLoad (t : Nat) (who : Fin 8) (ecc : Bool)
  /-- `CFG_LOAD_COMPLETE` (R784): Once the records are applied, the bank is committed if every check passes, or is left EMPTY with CHECK_FAIL. -/
  | cfgLoadComplete (t : Nat)
  /-- `CFG_ACTIVATE` (R788): CFG_CMD.activate fixes the boundary of a LOADED bank's activation, or ends with LATE or NO_CYCLE. -/
  | cfgActivate (t : Nat) (who : Fin 8)
  /-- `CFG_ROLLBACK` (R791): CFG_CMD.rollback activates the PREVIOUS bank, or ends with NO_PREVIOUS or FLOOR_LOWER. -/
  | cfgRollback (t : Nat) (who : Fin 8)
  /-- `CFG_CANCEL` (R787): CFG_CMD.cancel ends a load or a pending activation. -/
  | cfgCancel (t : Nat) (who : Fin 8)
  /-- `CFG_FLOOR` (R792): CFG_CMD.floor advances Vault counter 2 to the active bank's version. -/
  | cfgFloor (t : Nat) (who : Fin 8) (nvmOk : Bool)
  /-- `ACTIVATION_EFFECT` (R789): At the fixed boundary the pending bank becomes active for every consumer, and the other bank becomes PREVIOUS. -/
  | activationEffect (t : Nat)
  /-- `GCL_APPLY` (R790): In the cycle after an activation, CFG applies the new bank's gate control list records. -/
  | gclApply (t : Nat)
  /-- `FW_RESTART` (R794): CFG_FW_CMD.restart judges a control firmware object and, if it passes, restarts the cluster with it. -/
  | fwRestart (t : Nat) (who : Fin 8) (ecc : Bool)
  /-- `FW_DONE` (R795): CFG_FW_CMD.done from the new firmware clears restarting. -/
  | fwDone (t : Nat) (who : Fin 8)
  /-- `IRQ_ROUTE_WRITE` (R812): A write to a route register governs delivery from the next cycle and resends MSI-X while the interrupt stays asserted. -/
  | irqRouteWrite (t : Nat) (who : Fin 8) (agent : Fin 4) (data : Word)
  /-- `CLOCK_RETURN` (R807): When the 32.768 kHz crystal starts or returns, AON stops keeping LT from the RC oscillator and keeps it from the crystal again. -/
  | clockReturn (t : Nat)
  /-- `RESET_N_RELEASE` (R829): RESET_N rising ends a cold reset held by the ball, so the core leaves reset and the boot proceeds. -/
  | resetNRelease (t : Nat) (straps : Fin 4) (dir0 dir1 obj0 obj1 : List Byte)
  /-- `VDDIO_SUPPLY_CHANGE` (R823): A VDDIO bank supply entering range detects the bank level and may release the core reset, and a bank supply leaving range puts its pins in high impedance. -/
  | vddioSupplyChange (t : Nat) (bank : Fin 2) (mv : Nat)
  /-- `BUS_MASTER_ENABLE` (R589): A host setting Bus Master Enable to 1 lets the function's rings use its memory again, and its host port becomes UP when its link is up and an RXMAP entry is valid. -/
  | busMasterEnable (t : Nat) (fn : Fin 2)
  /-- `TC10_SLEEP_REQUEST_RX` (R43): A TC10 sleep request received from the link partner on an edge port starts the port's sleep handshake with an acknowledge. -/
  | tc10SleepRequestRx (t : Nat) (edge : Fin 8)
  /-- `CAN_CHANNEL_READY` (R691): An enabled or woken CAN channel that has seen 11 recessive bits becomes ready to contend and to receive frames. -/
  | canChannelReady (t : Nat) (chan : Fin 16)
  /-- `PRBS_CHECKER_ERROR` (R66): The PRBS checker of a disabled backbone lane counts a received bit error into MAC_PPRBS_ERR and sets prbs_err. -/
  | prbsCheckerError (t : Nat) (port : Fin 8) (k : Nat)
  /-- `TAP_INSTRUCTION` (R720): An IEEE 1149.1 instruction shifted into the TAP, such as SAMPLE/PRELOAD or EXTEST, takes effect only where the lifecycle state permits it. -/
  | tapInstruction (t : Nat) (ins : Fin 4)
deriving DecidableEq, Repr

end Sys2Proof
end

