-- ==== Sys2Proof/Config.lean ====
section
/-! DEFINITION. What an implementation fixes and the manual does not: free values and cryptographic primitives, as constants
without a body, so that no proof can see what they are. -/

namespace Sys2Proof.Config

/-- The value used where the manual leaves a number open, by how many the device has used before (log entry 3). -/
opaque freeNat : Nat → Nat

/-- A cryptographic primitive on bytes, named by the first argument, with the key, the inputs and the output length in bytes:
the published standards that the manual cites define it, the manual does not repeat it (log entry 4). -/
opaque crypto : String → List Byte → List (List Byte) → Nat → List Byte

/-- Whether a tag, signature or structure verifies under a named primitive, a key and inputs (log entry 4). -/
opaque verifies : String → List Byte → List (List Byte) → Bool

/-- Words that the factory burns into OTP and that the manual gives no value for: 0 `GLB_PCI_VID`, 1 the upper half of
`GLB_PCI_DID`. -/
opaque otp : Nat → Nat

/-- A port's own egress delay in LT counts, which the device calibrates per port mode (R316), by the speed code of
`MAC_PSTATUS`. -/
opaque egressDelay : Nat → Nat

/-- How many cycles after its acceptance a posted write's target answers, less one, by the number of posted writes before it: the manual
gives none (R617). -/
opaque respTime : Nat → Nat

/-- The permutation of the addresses of OTP and secure NVM that FMS keys (R416): the manual does not give it. -/
opaque fmsAddr : Equiv.Perm Nat

/-- The mask that FMS gives for a row of OTP or secure NVM, as a number whose bytes are used from the least significant on (R416): the manual
does not give it. -/
opaque fmsMask : Nat → Nat

end Sys2Proof.Config
end

