-- ==== Sys2Proof/Machine/Bits.lean ====
section
/-! DEFINITION. Bit fields, two's complement, byte order, sparse maps and the CRC-32C of R88.
Numbers that the manual lays out in bits and that are wider than a register (table entries, keys, metadata) are held as the
natural number their little-endian bytes spell (R6); `bits` and `setBits` read and write one field of such a number. -/

namespace Sys2Proof.Machine

/-- Field `[lo+n-1 : lo]` of the number `w`. -/
def bits (w lo n : Nat) : Nat := w / 2 ^ lo % 2 ^ n

/-- Bit `i` of `w` as a Boolean. -/
def bit (w i : Nat) : Bool := bits w i 1 == 1

/-- `w` with field `[lo+n-1 : lo]` replaced by `v`. -/
def setBits (w lo n v : Nat) : Nat := w - bits w lo n * 2 ^ lo + v % 2 ^ n * 2 ^ lo

/-- 1 for true, 0 for false. -/
def b2n (b : Bool) : Nat := if b then 1 else 0

/-- The two's complement value of the `n`-bit number `w`. -/
def sgn (w n : Nat) : Int := if w < 2 ^ (n - 1) then (w : Int) else (w : Int) - 2 ^ n

/-- The `n`-bit two's complement number of the integer `i`. -/
def enc (i : Int) (n : Nat) : Nat := (i % (2 ^ n : Nat)).toNat

/-- The number that `k` set bits spell: a mask of `k` ones. -/
def ones (k : Nat) : Nat := 2 ^ k - 1

/-- Bitwise AND of `w` with the complement of `mask`. -/
def clearMask (w mask : Nat) : Nat := w - Nat.land w mask

/-- The indices of the set bits of `w` below `n`, ascending. -/
def bitList (w n : Nat) : List Nat := (List.range n).filter (bit w)

/-- The number of set bits of `w` below `n`. -/
def popCount (w n : Nat) : Nat := (bitList w n).length

/-- The `n` little-endian bytes of `v` (R6). -/
def leBytes : Nat → Nat → List Byte
  | 0, _ => []
  | n + 1, v => BitVec.ofNat 8 v :: leBytes n (v / 256)

/-- The XOR of two strings of bytes of one length. -/
def xorBytes (a b : List Byte) : List Byte := List.zipWith (· ^^^ ·) a b

/-- The number that little-endian bytes spell (R6). -/
def leNat : List Byte → Nat
  | [] => 0
  | b :: r => b.toNat + 256 * leNat r

/-- The number that bytes in network byte order spell (R7). -/
def beNat (l : List Byte) : Nat := l.foldl (fun a b => a * 256 + b.toNat) 0

/-- The `n` bytes of `v` in network byte order (R7). -/
def beBytes (n v : Nat) : List Byte := (leBytes n v).reverse

/-- `n` bytes of `l` from offset `o`; bytes past the end read 0. -/
def slice (l : List Byte) (o n : Nat) : List Byte := (List.range n).map fun i => l.getD (o + i) 0

/-- The byte at offset `o`, as a number. -/
def byteAt (l : List Byte) (o : Nat) : Nat := (l.getD o 0).toNat

/-- A payload built field by field: each pair is a width in bytes and a value, little-endian (R6). -/
def packLe : List (Nat × Nat) → List Byte
  | [] => []
  | (n, v) :: r => leBytes n v ++ packLe r

/-- The twelve payload bytes 20-31 of a Ledger record; unlisted bytes are 0 (R638). -/
def payload (l : List (Nat × Nat)) : List Byte := (packLe l ++ List.replicate 12 0).take 12

/-- `v`, saturating at the largest number of `n` bits. -/
def sat (n v : Nat) : Nat := min v (2 ^ n - 1)

/-- Division rounding up. -/
def cdiv (a b : Nat) : Nat := (a + b - 1) / b

/-- One bit step of the reflected CRC with polynomial `p`. -/
def crcBit (p c : Nat) : Nat := if c % 2 = 1 then Nat.xor (c / 2) p else c / 2

/-- One byte step of the reflected CRC. -/
def crcByte (p c b : Nat) : Nat :=
  let c := Nat.xor c b
  crcBit p (crcBit p (crcBit p (crcBit p (crcBit p (crcBit p (crcBit p (crcBit p c)))))))

/-- CRC-32C (Castagnoli 0x1EDC_6F41, reflected, final XOR 0xFFFF_FFFF) over `l` from the initial value `init` (R88). -/
def crc32c (init : Nat) (l : List Byte) : Nat :=
  Nat.xor (l.foldl (fun c b => crcByte 0x82F63B78 c b.toNat) init) 0xFFFFFFFF

/-! ### Sparse maps: lists of key and value pairs in strictly rising key order -/

/-- The value at key `k`, if one is listed. -/
def sget {α : Type} : List (Nat × α) → Nat → Option α
  | [], _ => none
  | (k', v) :: r, k => if k' = k then some v else sget r k

/-- `m` with `v` at key `k`; keeps rising key order. -/
def sput {α : Type} : List (Nat × α) → Nat → α → List (Nat × α)
  | [], k, v => [(k, v)]
  | (k', v') :: r, k, v =>
    if k < k' then (k, v) :: (k', v') :: r
    else if k = k' then (k, v) :: r
    else (k', v') :: sput r k v

/-- `m` without key `k`. -/
def sdel {α : Type} (m : List (Nat × α)) (k : Nat) : List (Nat × α) := m.filter fun p => p.1 != k

/-- Store `v` at `k`, listing nothing where `v` is the default `d`: the canonical form of a memory. -/
def sputD {α : Type} [DecidableEq α] (m : List (Nat × α)) (d : α) (k : Nat) (v : α) : List (Nat × α) :=
  if v = d then sdel m k else sput m k v

/-- Keys strictly rising. -/
def rising {α : Type} : List (Nat × α) → Bool
  | [] => true
  | [_] => true
  | a :: b :: r => decide (a.1 < b.1) && rising (b :: r)

/-- Change entry `n` of a fixed-length list; beyond the end nothing changes. -/
def lset {α : Type} (l : List α) (n : Nat) (f : α → α) : List α := l.modify n f

end Sys2Proof.Machine
end

