-- ==== Sys2Proof/Machine/RegMap.lean ====
section
/-! DEFINITION. The register blocks (R802) and the map of every register of the VXG-8640: one row for each row of the register
tables of spec/02 to spec/20, with its offset in the block, its repetitions, its reset value and, bit by bit, what a write may do
to it (R11). Blocks, offsets and field masks are the manual's; a row that the manual repeats over ports, queues, channels or
table entries is one row here with its counts and strides. -/

namespace Sys2Proof.Machine

/-- A register block (R802), in the order of its interrupt bit. -/
inductive Blk where
  | glb | pwr | hif | dma | prs | tm | gate | mac | time | mint | vault | can | lin | sge | ledger | pair | safe | brg | cfg | dbg
deriving DecidableEq, Repr

/-- Every block, in the order of its interrupt bit (R802). -/
def Blk.all : List Blk := [.glb, .pwr, .hif, .dma, .prs, .tm, .gate, .mac, .time, .mint, .vault, .can, .lin, .sge, .ledger, .pair, .safe, .brg, .cfg, .dbg]

/-- Base address of a block (R802). -/
def Blk.base : Blk → Nat
  | .glb => 0x40000000
  | .pwr => 0x40100000
  | .hif => 0x40200000
  | .dma => 0x40300000
  | .prs => 0x40400000
  | .tm => 0x40600000
  | .gate => 0x40700000
  | .mac => 0x40800000
  | .time => 0x40A00000
  | .mint => 0x40B00000
  | .vault => 0x40C00000
  | .can => 0x40D00000
  | .lin => 0x40E00000
  | .sge => 0x40F00000
  | .ledger => 0x41000000
  | .pair => 0x41100000
  | .safe => 0x41200000
  | .brg => 0x41300000
  | .cfg => 0x41400000
  | .dbg => 0x41500000

/-- Size of a block's range (R802). -/
def Blk.size : Blk → Nat
  | .prs => 0x200000
  | .mac => 0x200000
  | .glb => 0x100000
  | .pwr => 0x100000
  | .hif => 0x100000
  | .dma => 0x100000
  | .tm => 0x100000
  | .gate => 0x100000
  | .time => 0x100000
  | .mint => 0x100000
  | .vault => 0x100000
  | .can => 0x100000
  | .lin => 0x100000
  | .sge => 0x100000
  | .ledger => 0x100000
  | .pair => 0x100000
  | .safe => 0x100000
  | .brg => 0x100000
  | .cfg => 0x100000
  | .dbg => 0x100000

/-- The bit of a block in the interrupt registers of GLB (R802). -/
def Blk.irqBit : Blk → Nat
  | .glb => 0
  | .pwr => 1
  | .hif => 2
  | .dma => 3
  | .prs => 4
  | .tm => 5
  | .gate => 6
  | .mac => 7
  | .time => 8
  | .mint => 9
  | .vault => 10
  | .can => 11
  | .lin => 12
  | .sge => 13
  | .ledger => 14
  | .pair => 15
  | .safe => 16
  | .brg => 17
  | .cfg => 18
  | .dbg => 19

/-- The bit `err_capture` of a block's `<BLK>_IRQ_STATUS`, from its field table. -/
def Blk.errBit : Blk → Nat
  | .glb => 2
  | .pwr => 7
  | .hif => 7
  | .dma => 3
  | .prs => 8
  | .tm => 8
  | .gate => 20
  | .mac => 21
  | .time => 8
  | .mint => 9
  | .vault => 7
  | .can => 20
  | .lin => 8
  | .sge => 7
  | .ledger => 5
  | .pair => 6
  | .safe => 4
  | .brg => 5
  | .cfg => 5
  | .dbg => 4

/-- How a register word is kept and accessed (R11). `stored`: a word of the register file; `counter`: half of a 64-bit event
counter (R837); `derived`: read-only, worked out from the rest of the state; `writeOnly`: a command register that reads 0;
`readClear`: a stored word that a read clears. -/
inductive RegKind where
  | stored | counter | derived | writeOnly | readClear
deriving DecidableEq, Repr

/-- One row of a register table. -/
structure RegRow where
  /-- The manual's name. -/
  name : String
  /-- Offset in the block of the first word. -/
  off : Nat
  /-- Repetitions: count and stride, outermost first. -/
  dims : List (Nat × Nat)
  /-- Reset value. -/
  reset : Nat
  /-- Mask of RW fields. -/
  rw : Nat
  /-- Mask of RWL fields. -/
  rwl : Nat
  /-- Mask of W1C fields. -/
  w1c : Nat
  /-- Mask of W1S fields. -/
  w1s : Nat
  kind : RegKind
  /-- Field ranges: low bit, width, least and greatest value, and the cause recorded for a refusal (R839). -/
  rng : List (Nat × Nat × Nat × Nat × Nat)
  /-- Other reset values: first and last index of the outermost repetition, and the value. -/
  alt : List (Nat × Nat × Nat)
deriving DecidableEq, Repr

/-- Register rows of GLB, part 1. -/
def regsGlb1 : List RegRow := [
  ⟨"GLB_IRQ_STATUS", 0, [], 0, 0, 0, 7, 0, .stored, [], []⟩,
  ⟨"GLB_IRQ_ENABLE", 4, [], 0, 7, 0, 0, 0, .stored, [], []⟩,
  ⟨"GLB_ERR_CAPTURE", 8, [], 0, 0, 0, 0, 0, .stored, [], []⟩,
  ⟨"GLB_ERR_CLR", 0xC, [], 0, 0, 0, 0, 0, .writeOnly, [], []⟩,
  ⟨"GLB_CHIP_ID", 0x10, [], 0x18640, 0, 0, 0, 0, .stored, [], []⟩,
  ⟨"GLB_REV", 0x14, [], 0x10, 0, 0, 0, 0, .stored, [], []⟩,
  ⟨"GLB_GRADE", 0x18, [], 0, 0, 0, 0, 0, .stored, [], []⟩,
  ⟨"GLB_STRAP", 0x1C, [], 0, 0, 0, 0, 0, .stored, [], []⟩,
  ⟨"GLB_PCI_VID", 0x20, [], 0, 0, 0, 0, 0, .derived, [], []⟩,
  ⟨"GLB_PCI_DID", 0x24, [], 0, 0, 0, 0, 0, .derived, [], []⟩,
  ⟨"GLB_RST_CMD", 0x30, [], 0, 0, 0, 0, 0, .writeOnly, [], []⟩,
  ⟨"GLB_RST_CAUSE", 0x34, [], 1, 0, 0, 0, 0, .stored, [], []⟩,
  ⟨"GLB_CLK_STATUS", 0x40, [], 0, 0, 0, 0, 0, .stored, [], []⟩,
  ⟨"GLB_IRQ_SUMMARY", 0x100, [], 0, 0, 0, 0, 0, .derived, [], []⟩,
  ⟨"GLB_IRQ_ROUTE_H0", 0x110, [], 0, 0xFFFFF, 0, 0, 0, .stored, [], []⟩,
  ⟨"GLB_IRQ_PEND_H0", 0x130, [], 0, 0, 0, 0, 0, .derived, [], []⟩,
  ⟨"GLB_IRQ_ROUTE_H1", 0x114, [], 0, 0xFFFFF, 0, 0, 0, .stored, [], []⟩,
  ⟨"GLB_IRQ_PEND_H1", 0x134, [], 0, 0, 0, 0, 0, .derived, [], []⟩,
  ⟨"GLB_IRQ_ROUTE_CPU", 0x118, [], 0xFFFFF, 0xFFFFF, 0, 0, 0, .stored, [], []⟩,
  ⟨"GLB_IRQ_PEND_CPU", 0x138, [], 0, 0, 0, 0, 0, .derived, [], []⟩]

/-- Register rows of GLB, part 2. -/
def regsGlb2 : List RegRow := [
  ⟨"GLB_IRQ_ROUTE_TRIAD", 0x11C, [], 0x10000, 0xFFFFF, 0, 0, 0, .stored, [], []⟩,
  ⟨"GLB_IRQ_PEND_TRIAD", 0x13C, [], 0, 0, 0, 0, 0, .derived, [], []⟩]

/-- Every register row of GLB. -/
def regsGlb : List RegRow := regsGlb1 ++ regsGlb2

/-- Register rows of PWR, part 1. -/
def regsPwr1 : List RegRow := [
  ⟨"PWR_IRQ_STATUS", 0, [], 0, 0, 0, 0xFF, 0, .stored, [], []⟩,
  ⟨"PWR_IRQ_ENABLE", 4, [], 0, 0xFF, 0, 0, 0, .stored, [], []⟩,
  ⟨"PWR_ERR_CAPTURE", 8, [], 0, 0, 0, 0, 0, .stored, [], []⟩,
  ⟨"PWR_ERR_CLR", 0xC, [], 0, 0, 0, 0, 0, .writeOnly, [], []⟩,
  ⟨"PWR_STATE", 0x10, [], 0, 0, 0, 0, 0, .derived, [], []⟩,
  ⟨"PWR_CMD", 0x14, [], 0, 0, 0, 0, 3, .stored, [], []⟩,
  ⟨"PWR_PARK_CFG", 0x18, [], 2, 3, 0, 0, 0, .stored, [], []⟩,
  ⟨"PWR_DRAIN_TMO", 0x1C, [], 0x3E8, 0x1FFFF, 0, 0, 0, .stored, [(0, 0x11, 0xA, 0x186A0, 3)], []⟩,
  ⟨"PWR_PARK_STATUS", 0x20, [], 0, 0, 0, 0, 0, .stored, [], []⟩,
  ⟨"PWR_DOM_CTRL", 0x24, [], 0, 0x9FFC, 0, 0, 0, .stored, [], []⟩,
  ⟨"PWR_DOM_STATUS", 0x28, [], 0xFFFF, 0, 0, 0, 0, .derived, [], []⟩,
  ⟨"PWR_WAKE_EN", 0x30, [], 0, 0x1F, 0, 0, 0, .stored, [], []⟩,
  ⟨"PWR_WAKEIN_CFG", 0x34, [], 0x4040404, 0xFFFFFFFF, 0, 0, 0, .stored, [(2, 6, 1, 0x3F, 3), (0xA, 6, 1, 0x3F, 3), (0x12, 6, 1, 0x3F, 3), (0x1A, 6, 1, 0x3F, 3)], []⟩,
  ⟨"PWR_WAKE_CAUSE", 0x38, [], 5, 0, 0, 0, 0, .stored, [], []⟩,
  ⟨"PWR_WAKE_SRC", 0x3C, [], 0, 0, 0, 0, 0, .stored, [], []⟩,
  ⟨"PWR_WAKE_LT_LO", 0x40, [], 0, 0, 0, 0, 0, .stored, [], []⟩,
  ⟨"PWR_WAKE_LT_HI", 0x44, [], 0, 0, 0, 0, 0, .stored, [], []⟩,
  ⟨"PWR_RTC_ALARM_LO", 0x48, [], 0, 0xFFFFFFFF, 0, 0, 0, .stored, [], []⟩,
  ⟨"PWR_RTC_ALARM_HI", 0x4C, [], 0, 0xFFFFFFFF, 0, 0, 0, .stored, [], []⟩,
  ⟨"PWR_WAKE_T", 0x50, [(4, 4)], 0, 0, 0, 0, 0, .stored, [], []⟩]

/-- Register rows of PWR, part 2. -/
def regsPwr2 : List RegRow := [
  ⟨"PWR_PMIC_CFG", 0x60, [], 0x7D00000, 0xFFFF00FF, 0, 0, 0, .stored, [(0x10, 0x10, 0x64, 0xFFFF, 3)], []⟩,
  ⟨"PWR_PMIC_VMAP", 0x64, [], 0, 0xFF03FF, 0, 0, 0, .stored, [], []⟩,
  ⟨"PWR_AVS_CFG", 0x68, [], 0x32002D0, 0x83FF03FF, 0, 0, 0, .stored, [(0, 0xA, 0x2D0, 0x320, 3), (0x10, 0xA, 0x2D0, 0x320, 3)], []⟩,
  ⟨"PWR_AVS_STATUS", 0x6C, [], 0, 0, 0, 0, 0, .stored, [], []⟩,
  ⟨"PWR_IDLE_CFG", 0x70, [], 0xA0001, 0xFFFF0001, 0, 0, 0, .stored, [(0x10, 0x10, 1, 0xFFFF, 3)], []⟩,
  ⟨"parks", 0x100, [], 0, 0, 0, 0, 0, .counter, [], []⟩,
  ⟨"park_abandoned", 0x108, [], 0, 0, 0, 0, 0, .counter, [], []⟩,
  ⟨"park_refused", 0x110, [], 0, 0, 0, 0, 0, .counter, [], []⟩,
  ⟨"drain_aborts", 0x118, [], 0, 0, 0, 0, 0, .counter, [], []⟩,
  ⟨"pmic_faults", 0x120, [], 0, 0, 0, 0, 0, .counter, [], []⟩]

/-- Every register row of PWR. -/
def regsPwr : List RegRow := regsPwr1 ++ regsPwr2

/-- Register rows of HIF, part 1. -/
def regsHif1 : List RegRow := [
  ⟨"HIF_IRQ_STATUS", 0, [], 0, 0, 0, 0xFF, 0, .stored, [], []⟩,
  ⟨"HIF_IRQ_ENABLE", 4, [], 0, 0xFF, 0, 0, 0, .stored, [], []⟩,
  ⟨"HIF_ERR_CAPTURE", 8, [], 0, 0, 0, 0, 0, .stored, [], []⟩,
  ⟨"HIF_ERR_CLR", 0xC, [], 0, 0, 0, 0, 0, .writeOnly, [], []⟩,
  ⟨"HIF_LINK_STATUS", 0x10, [], 0, 0, 0, 0, 0, .stored, [], []⟩,
  ⟨"HIF_TX_CFG", 0x14, [], 0x2710, 0xFFFFF, 0, 0, 0, .stored, [(0, 0x14, 0x64, 0xF4240, 3)], []⟩,
  ⟨"HIF_BAR2_CFG", 0x18, [], 0, 0, 3, 0, 0, .stored, [], []⟩,
  ⟨"HIF_CNT_NOMAP", 0x40, [(3, 8)], 0, 0, 0, 0, 0, .counter, [], []⟩,
  ⟨"HIF_RXMAP_LO", 0x100, [(3, 8)], 0, 0, 0xBFBFBFBF, 0, 0, .stored, [], []⟩,
  ⟨"HIF_RXMAP_HI", 0x104, [(3, 8)], 0, 0, 0xBFBFBFBF, 0, 0, .stored, [], []⟩,
  ⟨"HIF_RING_CFG", 0x10000, [(0x40, 0x40)], 0, 0x1FC0FC1, 0x3F03E, 0, 0, .stored, [(6, 4, 0, 0xC, 3)], []⟩,
  ⟨"HIF_RING_BASE_LO", 0x10004, [(0x40, 0x40)], 0, 0xFFFFFFC0, 0, 0, 0, .stored, [], []⟩,
  ⟨"HIF_RING_BASE_HI", 0x10008, [(0x40, 0x40)], 0, 0xFFFFFFFF, 0, 0, 0, .stored, [], []⟩,
  ⟨"HIF_RING_WB_LO", 0x1000C, [(0x40, 0x40)], 0, 0xFFFFFFF8, 0, 0, 0, .stored, [], []⟩,
  ⟨"HIF_RING_WB_HI", 0x10010, [(0x40, 0x40)], 0, 0xFFFFFFFF, 0, 0, 0, .stored, [], []⟩,
  ⟨"HIF_RING_COAL", 0x10014, [(0x40, 0x40)], 0, 0xFFFFFFFF, 0, 0, 0, .stored, [], []⟩,
  ⟨"HIF_RING_CTRL", 0x10018, [(0x40, 0x40)], 0, 0, 0, 0, 0xF, .stored, [], []⟩,
  ⟨"HIF_RING_STATUS", 0x1001C, [(0x40, 0x40)], 2, 0, 0, 0, 0, .derived, [], []⟩,
  ⟨"ring_completed", 0x20000, [(0x40, 0x20)], 0, 0, 0, 0, 0, .counter, [], []⟩,
  ⟨"no_desc", 0x20008, [(0x40, 0x20)], 0, 0, 0, 0, 0, .counter, [], []⟩]

/-- Register rows of HIF, part 2. -/
def regsHif2 : List RegRow := [
  ⟨"no_cpl", 0x20010, [(0x40, 0x20)], 0, 0, 0, 0, 0, .counter, [], []⟩,
  ⟨"partial_discard", 0x20018, [(0x40, 0x20)], 0, 0, 0, 0, 0, .counter, [], []⟩,
  ⟨"HIF_MSIX_TABLE", 0x70000, [(0x80, 0x10), (4, 4)], 0, 0, 0, 0, 0, .derived, [], []⟩,
  ⟨"HIF_MSIX_PBA", 0x78000, [(4, 4)], 0, 0, 0, 0, 0, .derived, [], []⟩,
  ⟨"HIF_DB", 0x80000, [(0x40, 0x1000)], 0, 0, 0, 0, 0, .writeOnly, [], []⟩,
  ⟨"HIF_DB_IDX", 0x80004, [(0x40, 0x1000)], 0, 0, 0, 0, 0, .derived, [], []⟩]

/-- Every register row of HIF. -/
def regsHif : List RegRow := regsHif1 ++ regsHif2

/-- Register rows of DMA, part 1. -/
def regsDma1 : List RegRow := [
  ⟨"DMA_IRQ_STATUS", 0, [], 0, 0, 0, 0xF, 0, .stored, [], []⟩,
  ⟨"DMA_IRQ_ENABLE", 4, [], 0, 0xF, 0, 0, 0, .stored, [], []⟩,
  ⟨"DMA_ERR_CAPTURE", 8, [], 0, 0, 0, 0, 0, .stored, [], []⟩,
  ⟨"DMA_ERR_CLR", 0xC, [], 0, 0, 0, 0, 0, .writeOnly, [], []⟩,
  ⟨"DMA_CFG", 0x10, [], 0xC820, 0xFF3F, 0, 0, 0, .stored, [(0, 6, 1, 0x20, 3), (8, 4, 1, 8, 3), (0xC, 4, 9, 0xC, 3)], []⟩,
  ⟨"DMA_STATUS", 0x14, [], 0x100000, 0, 0, 0, 0, .derived, [], []⟩,
  ⟨"read_bytes", 0x100, [], 0, 0, 0, 0, 0, .counter, [], []⟩,
  ⟨"write_bytes", 0x108, [], 0, 0, 0, 0, 0, .counter, [], []⟩,
  ⟨"read_err", 0x110, [], 0, 0, 0, 0, 0, .counter, [], []⟩,
  ⟨"write_err", 0x118, [], 0, 0, 0, 0, 0, .counter, [], []⟩,
  ⟨"transfers", 0x120, [], 0, 0, 0, 0, 0, .counter, [], []⟩]

/-- Every register row of DMA. -/
def regsDma : List RegRow := regsDma1

/-- Register rows of PRS, part 1. -/
def regsPrs1 : List RegRow := [
  ⟨"PRS_IRQ_STATUS", 0, [], 0, 0, 0, 0x1FF, 0, .stored, [], []⟩,
  ⟨"PRS_IRQ_ENABLE", 4, [], 0, 0x1FF, 0, 0, 0, .stored, [], []⟩,
  ⟨"PRS_ERR_CAPTURE", 8, [], 0, 0, 0, 0, 0, .stored, [], []⟩,
  ⟨"PRS_ERR_CLR", 0xC, [], 0, 0, 0, 0, 0, .writeOnly, [], []⟩,
  ⟨"PRS_PARSE_CFG", 0x10, [], 0, 0, 0xFFFF, 0, 0, .stored, [], []⟩,
  ⟨"PRS_SOMEIP_PORTS0", 0x14, [], 0x771A, 0, 0xFFFFFFFF, 0, 0, .stored, [], []⟩,
  ⟨"PRS_SOMEIP_PORTS1", 0x18, [], 0, 0, 0xFFFFFFFF, 0, 0, .stored, [], []⟩,
  ⟨"PRS_TBL_CMD", 0x20, [], 0, 0xFF, 0, 0, 0x80000000, .stored, [], []⟩,
  ⟨"PRS_TBL_INDEX", 0x24, [], 0, 0xFFFF, 0, 0, 0, .stored, [], []⟩,
  ⟨"PRS_TBL_STATUS", 0x28, [], 0, 0, 0, 0, 0, .stored, [], []⟩,
  ⟨"PRS_TBL_DATA", 0x40, [(0x18, 4)], 0, 0xFFFFFFFF, 0, 0, 0, .stored, [], []⟩,
  ⟨"PRS_MIRROR", 0x100, [(8, 4)], 0, 0, 0x3FFF, 0, 0, .stored, [(0, 0xC, 0, 0x17, 4)], []⟩,
  ⟨"PRS_CNT_S0_MISS", 0x200, [], 0, 0, 0, 0, 0, .counter, [], []⟩,
  ⟨"PRS_CNT_NO_DEST", 0x208, [], 0, 0, 0, 0, 0, .counter, [], []⟩,
  ⟨"PRS_CNT_ZONE_REFUSED", 0x210, [], 0, 0, 0, 0, 0, .counter, [], []⟩,
  ⟨"PRS_CNT_MALFORMED", 0x218, [], 0, 0, 0, 0, 0, .counter, [], []⟩,
  ⟨"PRS_CNT_TRUNC_PARSE", 0x220, [], 0, 0, 0, 0, 0, .counter, [], []⟩,
  ⟨"PRS_CNT_TBL_ECC", 0x228, [], 0, 0, 0, 0, 0, .counter, [], []⟩,
  ⟨"PRS_PORT_CFG", 0x1000, [(0x18, 0x10)], 0x10001, 0, 0xFFFFF, 0, 0, .stored, [(0x11, 3, 0, 4, 2)], []⟩,
  ⟨"PRS_PORT_PCP2TC", 0x1004, [(0x18, 0x10)], 0xFAC688, 0, 0xFFFFFF, 0, 0, .stored, [], []⟩]

/-- Register rows of PRS, part 2. -/
def regsPrs2 : List RegRow := [
  ⟨"PRS_COUNTER", 0x80000, [(0x4000, 8)], 0, 0, 0, 0, 0, .counter, [], []⟩,
  ⟨"PRS_CT_EN", 0x20000, [], 0xFFFF, 0xFFFFF, 0, 0, 0, .stored, [], []⟩,
  ⟨"PRS_HASH_CFG", 0x20004, [], 0, 0, 3, 0, 0, .stored, [], []⟩,
  ⟨"PRS_HASH_SEED", 0x20008, [], 0xFFFFFFFF, 0, 0xFFFFFFFF, 0, 0, .stored, [], []⟩,
  ⟨"PRS_LANE_CFG", 0x20010, [], 0x1194B, 0x17F7F, 0, 0, 0, .stored, [(0, 7, 1, 0x64, 4), (8, 7, 0, 0x63, 4)], []⟩,
  ⟨"PRS_FLOWLET_GAP", 0x20014, [], 0x32, 0x3FFF, 0, 0, 0, .stored, [(0, 0xE, 1, 0x2710, 4)], []⟩,
  ⟨"PRS_LANE_RETURN", 0x20018, [], 0xA, 0xFFFF, 0, 0, 0, .stored, [], []⟩,
  ⟨"PRS_LANE_CTRL", 0x2001C, [], 0, 0, 0, 0, 1, .stored, [], []⟩,
  ⟨"PRS_LANE_STATUS", 0x20020, [], 0, 0, 0, 0, 0, .derived, [], []⟩,
  ⟨"PRS_LANE_OCC", 0x20024, [], 0, 0, 0, 0, 0, .derived, [], []⟩,
  ⟨"PRS_LANE_EVENT", 0x20028, [], 0, 0, 0, 0x1FFF, 0, .stored, [], []⟩,
  ⟨"PRS_LANE_EVENT_EN", 0x2002C, [], 0, 0x1FFF, 0, 0, 0, .stored, [], []⟩,
  ⟨"PRS_CNT_CT_UNDERRUN", 0x20040, [], 0, 0, 0, 0, 0, .counter, [], []⟩,
  ⟨"PRS_CNT_CT_OVERLEN", 0x20048, [], 0, 0, 0, 0, 0, .counter, [], []⟩,
  ⟨"heads", 0x20100, [(4, 0x40)], 0, 0, 0, 0, 0, .counter, [], []⟩,
  ⟨"head_drop", 0x20108, [(4, 0x40)], 0, 0, 0, 0, 0, .counter, [], []⟩,
  ⟨"moved_out", 0x20110, [(4, 0x40)], 0, 0, 0, 0, 0, .counter, [], []⟩,
  ⟨"pinned_frames", 0x20118, [(4, 0x40)], 0, 0, 0, 0, 0, .counter, [], []⟩,
  ⟨"PRS_LAG_CFG", 0x20200, [(8, 0x10)], 0, 0, 0xFFFF, 0, 0, .stored, [], []⟩,
  ⟨"PRS_LAG_ACTIVE", 0x20204, [(8, 0x10)], 0, 0xFFFF, 0, 0, 0, .stored, [], []⟩]

/-- Register rows of PRS, part 3. -/
def regsPrs3 : List RegRow := [
  ⟨"PRS_LAG_STATUS", 0x20208, [(8, 0x10)], 0, 0, 0, 0, 0, .derived, [], []⟩,
  ⟨"PRS_BUCKET", 0x24000, [(0x1000, 4)], 0, 0, 0, 0, 0, .derived, [], []⟩,
  ⟨"PRS_FW_CFG", 0x30000, [], 4, 0, 7, 0, 0, .stored, [], []⟩,
  ⟨"PRS_FW_EVENT", 0x30004, [], 0, 0, 0, 0x7F, 0, .stored, [], []⟩,
  ⟨"PRS_FW_EVENT_EN", 0x30008, [], 0, 0x7F, 0, 0, 0, .stored, [], []⟩,
  ⟨"PRS_FW_LOG", 0x3000C, [], 0x40, 0xFFFF, 0, 0, 0, .stored, [], []⟩,
  ⟨"PRS_FW_PORT_ZONE", 0x30010, [(3, 4)], 0x11111111, 0, 0xFFFFFFFF, 0, 0, .stored, [], [(2, 2, 0x10001111)]⟩,
  ⟨"PRS_FW_CAN_ZONE", 0x30020, [(2, 4)], 0x11111111, 0, 0xFFFFFFFF, 0, 0, .stored, [], []⟩,
  ⟨"PRS_FW_LIN_ZONE", 0x30028, [], 0x11111111, 0, 0xFFFFFFFF, 0, 0, .stored, [], []⟩,
  ⟨"PRS_CT_TMO_TCP0", 0x30040, [], 0xE100014, 0xFFFFFFFF, 0, 0, 0, .stored, [(0, 0x10, 1, 0xFFFF, 4), (0x10, 0x10, 1, 0xFFFF, 4)], []⟩,
  ⟨"PRS_CT_TMO_TCP1", 0x30044, [], 0x1E003C, 0xFFFFFFFF, 0, 0, 0, .stored, [(0, 0x10, 1, 0xFFFF, 4), (0x10, 0x10, 1, 0xFFFF, 4)], []⟩,
  ⟨"PRS_CT_TMO_UDP", 0x30048, [], 0xB4001E, 0xFFFFFFFF, 0, 0, 0, .stored, [(0, 0x10, 1, 0xFFFF, 4), (0x10, 0x10, 1, 0xFFFF, 4)], []⟩,
  ⟨"PRS_CT_TMO_GEN", 0x3004C, [], 0x1E, 0xFFFF, 0, 0, 0, .stored, [(0, 0x10, 1, 0xFFFF, 4)], []⟩,
  ⟨"PRS_CT_CMD", 0x30060, [], 0, 3, 0, 0, 0x80000000, .stored, [], []⟩,
  ⟨"PRS_CT_INDEX", 0x30064, [], 0, 0xFFFF, 0, 0, 0, .stored, [], []⟩,
  ⟨"PRS_CT_STATUS", 0x30068, [], 0, 0, 0, 0, 0, .stored, [], []⟩,
  ⟨"PRS_CT_COUNT", 0x3006C, [], 0, 0, 0, 0, 0, .derived, [], []⟩,
  ⟨"PRS_CT_DATA", 0x30080, [(0x10, 4)], 0, 0xFFFFFFFF, 0, 0, 0, .stored, [], []⟩,
  ⟨"PRS_FW_MATRIX_LO", 0x30100, [(0x10, 8)], 0x44444444, 0, 0x77777777, 0, 0, .stored, [(0, 2, 0, 2, 2), (4, 2, 0, 2, 2), (8, 2, 0, 2, 2), (0xC, 2, 0, 2, 2), (0x10, 2, 0, 2, 2), (0x14, 2, 0, 2, 2), (0x18, 2, 0, 2, 2), (0x1C, 2, 0, 2, 2)], [(0, 0, 0x44444441), (1, 1, 0x44444414), (2, 2, 0x44444144), (3, 3, 0x44441444), (4, 4, 0x44414444), (5, 5, 0x44144444), (6, 6, 0x41444444), (7, 7, 0x14444444)]⟩,
  ⟨"PRS_FW_MATRIX_HI", 0x30104, [(0x10, 8)], 0x44444444, 0, 0x77777777, 0, 0, .stored, [(0, 2, 0, 2, 2), (4, 2, 0, 2, 2), (8, 2, 0, 2, 2), (0xC, 2, 0, 2, 2), (0x10, 2, 0, 2, 2), (0x14, 2, 0, 2, 2), (0x18, 2, 0, 2, 2), (0x1C, 2, 0, 2, 2)], [(8, 8, 0x44444441), (9, 9, 0x44444414), (0xA, 0xA, 0x44444144), (0xB, 0xB, 0x44441444), (0xC, 0xC, 0x44414444), (0xD, 0xD, 0x44144444), (0xE, 0xE, 0x41444444), (0xF, 0xF, 0x14444444)]⟩]

/-- Register rows of PRS, part 4. -/
def regsPrs4 : List RegRow := [
  ⟨"PRS_CNT_FW_DENY", 0x30200, [], 0, 0, 0, 0, 0, .counter, [], []⟩,
  ⟨"PRS_CNT_CT_DENY", 0x30208, [], 0, 0, 0, 0, 0, .counter, [], []⟩,
  ⟨"PRS_CNT_CT_FULL", 0x30210, [], 0, 0, 0, 0, 0, .counter, [], []⟩,
  ⟨"PRS_CNT_CT_EVICT", 0x30218, [], 0, 0, 0, 0, 0, .counter, [], []⟩,
  ⟨"PRS_CNT_CT_EXPIRED", 0x30220, [], 0, 0, 0, 0, 0, .counter, [], []⟩,
  ⟨"PRS_CNT_CT_REVOKED", 0x30228, [], 0, 0, 0, 0, 0, .counter, [], []⟩,
  ⟨"PRS_CNT_CAN_DENY", 0x30230, [], 0, 0, 0, 0, 0, .counter, [], []⟩,
  ⟨"PRS_CNT_LOG_LOST", 0x30238, [], 0, 0, 0, 0, 0, .counter, [], []⟩,
  ⟨"PRS_FW_CANRULE", 0x31000, [(0x100, 0x10)], 0, 0, 0x7FFFF, 0, 0, .stored, [(0x11, 2, 0, 2, 2)], []⟩,
  ⟨"PRS_FW_CANRULE_IDLO", 0x31004, [(0x100, 0x10)], 0, 0, 0x1FFFFFFF, 0, 0, .stored, [], []⟩,
  ⟨"PRS_FW_CANRULE_IDHI", 0x31008, [(0x100, 0x10)], 0, 0, 0x1FFFFFFF, 0, 0, .stored, [], []⟩,
  ⟨"PRS_FW_CANRULE_W3", 0x3100C, [(0x100, 0x10)], 0, 0, 0, 0, 0, .stored, [], []⟩]

/-- Every register row of PRS. -/
def regsPrs : List RegRow := regsPrs1 ++ regsPrs2 ++ regsPrs3 ++ regsPrs4

/-- Register rows of TM, part 1. -/
def regsTm1 : List RegRow := [
  ⟨"TM_IRQ_STATUS", 0, [], 0, 0, 0, 0xFFFF01FF, 0, .stored, [], []⟩,
  ⟨"TM_IRQ_ENABLE", 4, [], 0, 0xFFFF01FF, 0, 0, 0, .stored, [], []⟩,
  ⟨"TM_ERR_CAPTURE", 8, [], 0, 0, 0, 0, 0, .stored, [], []⟩,
  ⟨"TM_ERR_CLR", 0xC, [], 0, 0, 0, 0, 0, .writeOnly, [], []⟩,
  ⟨"TM_BUF_CFG", 0x10, [], 0x1000, 0, 0xFFFF, 0, 0, .stored, [(0, 0x10, 0x100, 0x4000, 3)], []⟩,
  ⟨"TM_MC_RESIDUE_AGE", 0x14, [], 0x2710, 0xFFFFF, 0, 0, 0, .stored, [(0, 0x14, 0x64, 0xF4240, 3)], []⟩,
  ⟨"TM_LOG", 0x18, [], 0x40, 0xFFFF, 0, 0, 0, .stored, [], []⟩,
  ⟨"TM_FREE_CELLS", 0x20, [], 0x10000, 0, 0, 0, 0, .derived, [], []⟩,
  ⟨"TM_POOL_SIZE", 0x24, [], 0xC000, 0, 0, 0, 0, .derived, [], []⟩,
  ⟨"TM_POOL_USED", 0x28, [], 0, 0, 0, 0, 0, .derived, [], []⟩,
  ⟨"TM_HDRM_USED", 0x2C, [], 0, 0, 0, 0, 0, .derived, [], []⟩,
  ⟨"TM_BUF_RETIRED", 0x30, [], 0, 0, 0, 0, 0, .derived, [], []⟩,
  ⟨"TM_SCRUB_PASSES", 0x34, [], 0, 0, 0, 0, 0, .stored, [], []⟩,
  ⟨"TM_CNT_ECC_CORR", 0x40, [], 0, 0, 0, 0, 0, .counter, [], []⟩,
  ⟨"TM_CNT_ECC_UNCORR", 0x48, [], 0, 0, 0, 0, 0, .counter, [], []⟩,
  ⟨"TM_CNT_LOG_LOST", 0x50, [], 0, 0, 0, 0, 0, .counter, [], []⟩,
  ⟨"TM_PORT_HOLD", 0x1000, [(0x18, 0x10)], 0x7D0, 0x1FFFF, 0, 0, 0, .stored, [(0, 0x11, 0, 0x186A0, 3)], []⟩,
  ⟨"TM_PORT_STATE", 0x1004, [(0x18, 0x10)], 2, 0, 0, 0, 0, .derived, [], []⟩,
  ⟨"TM_PORT_CMD", 0x1008, [(0x18, 0x10)], 0, 0, 0, 0, 1, .stored, [], []⟩,
  ⟨"hdrm_drop", 0x2000, [(0x18, 0x20)], 0, 0, 0, 0, 0, .counter, [], []⟩]

/-- Register rows of TM, part 2. -/
def regsTm2 : List RegRow := [
  ⟨"mc_abandoned", 0x2008, [(0x18, 0x20)], 0, 0, 0, 0, 0, .counter, [], []⟩,
  ⟨"ecc_discard", 0x2010, [(0x18, 0x20)], 0, 0, 0, 0, 0, .counter, [], []⟩,
  ⟨"TM_Q_CFG", 0x4000, [(0xC0, 0x10)], 0x40, 0xF000, 0xFFF, 0, 0, .stored, [], []⟩,
  ⟨"TM_Q_THR", 0x4004, [(0xC0, 0x10)], 0xFFFFFFFF, 0xFFFFFFFF, 0, 0, 0, .stored, [], []⟩,
  ⟨"TM_Q_RES", 0x4008, [(0xC0, 0x10)], 0x4E20, 0xFFFFFF, 0, 0, 0, .stored, [], []⟩,
  ⟨"TM_Q_OCC", 0x400C, [(0xC0, 0x10)], 0, 0, 0, 0, 0, .derived, [], []⟩,
  ⟨"enq", 0x10000, [(0xC0, 0x40)], 0, 0, 0, 0, 0, .counter, [], []⟩,
  ⟨"ecn_marked", 0x10008, [(0xC0, 0x40)], 0, 0, 0, 0, 0, .counter, [], []⟩,
  ⟨"would_mark", 0x10010, [(0xC0, 0x40)], 0, 0, 0, 0, 0, .counter, [], []⟩,
  ⟨"drop_thr", 0x10018, [(0xC0, 0x40)], 0, 0, 0, 0, 0, .counter, [], []⟩,
  ⟨"drop_noroom", 0x10020, [(0xC0, 0x40)], 0, 0, 0, 0, 0, .counter, [], []⟩,
  ⟨"drop_aged", 0x10028, [(0xC0, 0x40)], 0, 0, 0, 0, 0, .counter, [], []⟩,
  ⟨"drop_down", 0x10030, [(0xC0, 0x40)], 0, 0, 0, 0, 0, .counter, [], []⟩,
  ⟨"flushed", 0x10038, [(0xC0, 0x40)], 0, 0, 0, 0, 0, .counter, [], []⟩,
  ⟨"TM_SCH_PORT_CFG", 0x20000, [(0x18, 0x100)], 0xA143, 0x3FFF7, 0, 0, 0, .stored, [(0, 3, 0, 4, 3)], []⟩,
  ⟨"TM_PURSE_CFG", 0x20004, [(0x18, 0x100)], 0, 0x3FFFFFF, 0, 0, 0, .stored, [], []⟩,
  ⟨"TM_PURSE_BURST", 0x20008, [(0x18, 0x100)], 0x4000, 0xFFFFFF, 0, 0, 0, .stored, [], []⟩,
  ⟨"TM_PURSE_LEVEL", 0x2000C, [(0x18, 0x100)], 0, 0, 0, 0, 0, .derived, [], []⟩,
  ⟨"TM_SCH_PORT_STATUS", 0x20010, [(0x18, 0x100)], 0, 0, 0, 0, 0, .derived, [], []⟩,
  ⟨"TM_SCH_Q_CFG", 0x20020, [(0x18, 0x100), (8, 0x10)], 0x602, 0x1FFFF, 0, 0, 0, .stored, [(0, 0x10, 0x40, 0xFFFF, 3)], []⟩]

/-- Register rows of TM, part 3. -/
def regsTm3 : List RegRow := [
  ⟨"TM_CBS_CFG", 0x20024, [(0x18, 0x100), (8, 0x10)], 0, 0x3FFFFFF, 0, 0, 0, .stored, [], []⟩,
  ⟨"TM_CBS_HICREDIT", 0x20028, [(0x18, 0x100), (8, 0x10)], 0x3000, 0xFFFFFF, 0, 0, 0, .stored, [], []⟩,
  ⟨"TM_CBS_CREDIT", 0x2002C, [(0x18, 0x100), (8, 0x10)], 0, 0, 0, 0, 0, .derived, [], []⟩,
  ⟨"TM_SCH_DEFICIT", 0x200A0, [(0x18, 0x100), (8, 4)], 0, 0, 0, 0, 0, .derived, [], []⟩,
  ⟨"tx_copies", 0x30000, [(0xC0, 0x20)], 0, 0, 0, 0, 0, .counter, [], []⟩,
  ⟨"tx_counted", 0x30008, [(0xC0, 0x20)], 0, 0, 0, 0, 0, .counter, [], []⟩,
  ⟨"shaper_held", 0x30010, [(0xC0, 0x20)], 0, 0, 0, 0, 0, .counter, [], []⟩,
  ⟨"purse_held", 0x30018, [(0xC0, 0x20)], 0, 0, 0, 0, 0, .counter, [], []⟩]

/-- Every register row of TM. -/
def regsTm : List RegRow := regsTm1 ++ regsTm2 ++ regsTm3

/-- Register rows of GATE, part 1. -/
def regsGate1 : List RegRow := [
  ⟨"GATE_IRQ_STATUS", 0, [], 0, 0, 0, 0x1FFFFF, 0, .stored, [], []⟩,
  ⟨"GATE_IRQ_ENABLE", 4, [], 0, 0x1FFFFF, 0, 0, 0, .stored, [], []⟩,
  ⟨"GATE_ERR_CAPTURE", 8, [], 0, 0, 0, 0, 0, .stored, [], []⟩,
  ⟨"GATE_ERR_CLR", 0xC, [], 0, 0, 0, 0, 0, .writeOnly, [], []⟩,
  ⟨"GATE_PCTL", 0x10000, [(0x14, 0x100)], 0, 1, 0, 0, 6, .stored, [], []⟩,
  ⟨"GATE_ADMIN_BASE_NS", 0x10004, [(0x14, 0x100)], 0, 0x3FFFFFFF, 0, 0, 0, .stored, [], []⟩,
  ⟨"GATE_OPER_BASE_NS", 0x10020, [(0x14, 0x100)], 0, 0, 0, 0, 0, .derived, [], []⟩,
  ⟨"GATE_CHANGE_NS", 0x10038, [(0x14, 0x100)], 0, 0, 0, 0, 0, .derived, [], []⟩,
  ⟨"GATE_ADMIN_BASE_SEC_LO", 0x10008, [(0x14, 0x100)], 0, 0xFFFFFFFF, 0, 0, 0, .stored, [], []⟩,
  ⟨"GATE_OPER_BASE_SEC_LO", 0x10024, [(0x14, 0x100)], 0, 0, 0, 0, 0, .derived, [], []⟩,
  ⟨"GATE_CHANGE_SEC_LO", 0x1003C, [(0x14, 0x100)], 0, 0, 0, 0, 0, .derived, [], []⟩,
  ⟨"GATE_ADMIN_BASE_SEC_HI", 0x1000C, [(0x14, 0x100)], 0, 0xFFFF, 0, 0, 0, .stored, [], []⟩,
  ⟨"GATE_OPER_BASE_SEC_HI", 0x10028, [(0x14, 0x100)], 0, 0, 0, 0, 0, .derived, [], []⟩,
  ⟨"GATE_CHANGE_SEC_HI", 0x10040, [(0x14, 0x100)], 0, 0, 0, 0, 0, .derived, [], []⟩,
  ⟨"GATE_ADMIN_CYCLE", 0x10010, [(0x14, 0x100)], 0x61A80, 0x1FFFFFFF, 0, 0, 0, .stored, [(0, 0x1D, 0x190, 0x17D78400, 3)], []⟩,
  ⟨"GATE_ADMIN_LEN", 0x10014, [(0x14, 0x100)], 1, 0x7FF, 0, 0, 0, .stored, [(0, 0xB, 1, 0x400, 3)], []⟩,
  ⟨"GATE_ADMIN_EXT", 0x10018, [(0x14, 0x100)], 0, 0x1FFFFFFF, 0, 0, 0, .stored, [], []⟩,
  ⟨"GATE_OPER_CYCLE", 0x1002C, [(0x14, 0x100)], 0, 0, 0, 0, 0, .derived, [], []⟩,
  ⟨"GATE_OPER_LEN", 0x10030, [(0x14, 0x100)], 0, 0, 0, 0, 0, .derived, [], []⟩,
  ⟨"GATE_OPER_EXT", 0x10034, [(0x14, 0x100)], 0, 0, 0, 0, 0, .derived, [], []⟩]

/-- Register rows of GATE, part 2. -/
def regsGate2 : List RegRow := [
  ⟨"GATE_PSTATUS", 0x10044, [(0x14, 0x100)], 0xFF, 0, 0, 0, 0, .derived, [], []⟩,
  ⟨"GATE_GUARD", 0x10048, [(0x14, 0x100)], 0, 0xFFFF, 0, 0, 0, .stored, [], []⟩,
  ⟨"GATE_TRIM_CFG", 0x1004C, [(0x14, 0x100)], 0xFF0FA000, 0xFFFFFFFF, 0, 0, 0, .stored, [(8, 0x10, 0x3E8, 0xFFFF, 3)], []⟩,
  ⟨"GATE_PRE_CFG", 0x10050, [(0x14, 0x100)], 0xA00, 0, 0xFFFF0F, 0, 0, .stored, [(8, 8, 1, 0x80, 3)], []⟩,
  ⟨"GATE_PRE_ADV", 0x10054, [(0x14, 0x100)], 0, 0xFFFFFFFF, 0, 0, 0, .stored, [], []⟩,
  ⟨"GATE_PRE_STATUS", 0x10058, [(0x14, 0x100)], 0, 0, 0, 0, 0, .stored, [], []⟩,
  ⟨"GATE_EVENT", 0x1005C, [(0x14, 0x100)], 0, 0, 0, 0x3F, 0, .stored, [], []⟩,
  ⟨"GATE_EVENT_EN", 0x10060, [(0x14, 0x100)], 0, 0x3F, 0, 0, 0, .stored, [], []⟩,
  ⟨"overrun", 0x10080, [(0x14, 0x100)], 0, 0, 0, 0, 0, .counter, [], []⟩,
  ⟨"trim_windows", 0x10088, [(0x14, 0x100)], 0, 0, 0, 0, 0, .counter, [], []⟩,
  ⟨"trim_abort", 0x10090, [(0x14, 0x100)], 0, 0, 0, 0, 0, .counter, [], []⟩,
  ⟨"frag_tx", 0x10098, [(0x14, 0x100)], 0, 0, 0, 0, 0, .counter, [], []⟩,
  ⟨"frag_rx", 0x100A0, [(0x14, 0x100)], 0, 0, 0, 0, 0, .counter, [], []⟩,
  ⟨"assembly_err", 0x100A8, [(0x14, 0x100)], 0, 0, 0, 0, 0, .counter, [], []⟩,
  ⟨"verify_fail", 0x100B0, [(0x14, 0x100)], 0, 0, 0, 0, 0, .counter, [], []⟩,
  ⟨"guard_held", 0x100B8, [(0x14, 0x100)], 0, 0, 0, 0, 0, .counter, [], []⟩,
  ⟨"GATE_ADMIN_LIST", 0x20000, [(0x14, 0x2000), (0x400, 8), (2, 4)], 0, 0xFFFFFFFF, 0, 0, 0, .stored, [], []⟩,
  ⟨"GATE_OPER_LIST", 0x50000, [(0x14, 0x2000), (0x400, 8), (2, 4)], 0, 0, 0, 0, 0, .derived, [], []⟩,
  ⟨"GATE_STREAM", 0x80000, [(0x800, 4)], 0, 0x3FFFFF, 0, 0, 0, .stored, [], []⟩,
  ⟨"GATE_GEN0", 0x90000, [(0x400, 8)], 0, 0xFFFF, 0, 0, 0, .stored, [], []⟩]

/-- Register rows of GATE, part 3. -/
def regsGate3 : List RegRow := [
  ⟨"GATE_GEN1", 0x90004, [(0x400, 8)], 0, 0xFFFFF, 0, 0, 0, .stored, [], []⟩,
  ⟨"GATE_RCVY0", 0xA0000, [(0x400, 0x10)], 0, 0xFFFF03FF, 0, 0, 0, .stored, [(2, 6, 2, 0x20, 3), (0x10, 0x10, 1, 0xFFFF, 3)], []⟩,
  ⟨"GATE_RCVY1", 0xA0004, [(0x400, 0x10)], 0, 0, 0, 0, 0, .derived, [], []⟩,
  ⟨"GATE_RCVY2", 0xA0008, [(0x400, 0x10)], 0, 0, 0, 0, 0, .derived, [], []⟩,
  ⟨"GATE_RCVY3", 0xA000C, [(0x400, 0x10)], 0, 0, 0, 0, 0, .derived, [], []⟩,
  ⟨"rc_passed", 0xC0000, [(0x400, 0x40)], 0, 0, 0, 0, 0, .counter, [], []⟩,
  ⟨"rc_discarded", 0xC0008, [(0x400, 0x40)], 0, 0, 0, 0, 0, .counter, [], []⟩,
  ⟨"rc_out_of_order", 0xC0010, [(0x400, 0x40)], 0, 0, 0, 0, 0, .counter, [], []⟩,
  ⟨"rc_rogue", 0xC0018, [(0x400, 0x40)], 0, 0, 0, 0, 0, .counter, [], []⟩,
  ⟨"rc_lost", 0xC0020, [(0x400, 0x40)], 0, 0, 0, 0, 0, .counter, [], []⟩,
  ⟨"rc_tagless", 0xC0028, [(0x400, 0x40)], 0, 0, 0, 0, 0, .counter, [], []⟩,
  ⟨"rc_resets", 0xC0030, [(0x400, 0x40)], 0, 0, 0, 0, 0, .counter, [], []⟩]

/-- Every register row of GATE. -/
def regsGate : List RegRow := regsGate1 ++ regsGate2 ++ regsGate3

/-- Register rows of MAC, part 1. -/
def regsMac1 : List RegRow := [
  ⟨"MAC_IRQ_STATUS", 0, [], 0, 0, 0, 0x3FFFFF, 0, .stored, [], []⟩,
  ⟨"MAC_IRQ_ENABLE", 4, [], 0, 0x3FFFFF, 0, 0, 0, .stored, [], []⟩,
  ⟨"MAC_ERR_CAPTURE", 8, [], 0, 0, 0, 0, 0, .stored, [], []⟩,
  ⟨"MAC_ERR_CLR", 0xC, [], 0, 0, 0, 0, 0, .writeOnly, [], []⟩,
  ⟨"MAC_PCFG", 0x1000, [(0x14, 0x400)], 0, 0x301, 0xF0, 0, 0, .stored, [], []⟩,
  ⟨"MAC_PFRAME", 0x1004, [(0x14, 0x400)], 0x5F2, 0, 0x3FFF, 0, 0, .stored, [], []⟩,
  ⟨"MAC_PLINK", 0x1008, [(0x14, 0x400)], 0xA, 0xFFFF, 0, 0, 0, .stored, [], []⟩,
  ⟨"MAC_PSTATUS", 0x100C, [(0x14, 0x400)], 0, 0, 0, 0, 0, .stored, [], []⟩,
  ⟨"MAC_PEVENT", 0x1010, [(0x14, 0x400)], 0, 0, 0, 0x1FF, 0, .stored, [], []⟩,
  ⟨"MAC_PEVENT_EN", 0x1014, [(0x14, 0x400)], 0, 0x1FF, 0, 0, 0, .stored, [], []⟩,
  ⟨"MAC_PTS_CORR", 0x1018, [(0x14, 0x400)], 0, 0xFFFFFFFF, 0, 0, 0, .stored, [], []⟩,
  ⟨"MAC_PSD_CFG", 0x1020, [(0x14, 0x400)], 0x6400, 0xFF01, 0, 0, 0, .stored, [], [(8, 0x13, 0)]⟩,
  ⟨"MAC_PPRBS_CFG", 0x1024, [(0x14, 0x400)], 0, 0x1F, 0, 0, 0, .stored, [(0, 3, 0, 4, 2)], []⟩,
  ⟨"MAC_PPRBS_ERR", 0x1028, [(0x14, 0x400)], 0, 0, 0, 0, 0, .readClear, [], []⟩,
  ⟨"MAC_PT1_CFG", 0x1030, [(0x14, 0x400)], 0x41, 0xFDC, 3, 0, 0, .stored, [], [(0, 7, 0), (0x10, 0x13, 0)]⟩,
  ⟨"MAC_PT1_STATUS", 0x1034, [(0x14, 0x400)], 0, 0, 0, 0, 0, .stored, [], []⟩,
  ⟨"MAC_PT1_CTRL", 0x1038, [(0x14, 0x400)], 0, 0, 0, 0, 3, .stored, [], []⟩,
  ⟨"MAC_PPLCA_CFG", 0x1040, [(0x14, 0x400)], 0x82001, 0, 0xFFFFFF3F, 0, 0, .stored, [(0x10, 8, 1, 0x20, 5)], [(0, 0xF, 0)]⟩,
  ⟨"MAC_PPLCA_STATUS", 0x1044, [(0x14, 0x400)], 0, 0, 0, 0, 0, .derived, [], []⟩,
  ⟨"MAC_PCNT_CLR", 0x10FC, [(0x14, 0x400)], 0, 0, 0, 0, 0, .writeOnly, [], []⟩]

/-- Register rows of MAC, part 2. -/
def regsMac2 : List RegRow := [
  ⟨"rx_frames", 0x1100, [(0x14, 0x400)], 0, 0, 0, 0, 0, .counter, [], []⟩,
  ⟨"rx_octets", 0x1108, [(0x14, 0x400)], 0, 0, 0, 0, 0, .counter, [], []⟩,
  ⟨"rx_fcs_err", 0x1110, [(0x14, 0x400)], 0, 0, 0, 0, 0, .counter, [], []⟩,
  ⟨"rx_runt", 0x1118, [(0x14, 0x400)], 0, 0, 0, 0, 0, .counter, [], []⟩,
  ⟨"rx_oversize", 0x1120, [(0x14, 0x400)], 0, 0, 0, 0, 0, .counter, [], []⟩,
  ⟨"rx_symbol_err", 0x1128, [(0x14, 0x400)], 0, 0, 0, 0, 0, .counter, [], []⟩,
  ⟨"rx_mac_ctrl", 0x1130, [(0x14, 0x400)], 0, 0, 0, 0, 0, .counter, [], []⟩,
  ⟨"rx_truncated", 0x1138, [(0x14, 0x400)], 0, 0, 0, 0, 0, .counter, [], []⟩,
  ⟨"tx_frames", 0x1140, [(0x14, 0x400)], 0, 0, 0, 0, 0, .counter, [], []⟩,
  ⟨"tx_octets", 0x1148, [(0x14, 0x400)], 0, 0, 0, 0, 0, .counter, [], []⟩,
  ⟨"tx_stomped", 0x1150, [(0x14, 0x400)], 0, 0, 0, 0, 0, .counter, [], []⟩,
  ⟨"tx_oversize", 0x1158, [(0x14, 0x400)], 0, 0, 0, 0, 0, .counter, [], []⟩,
  ⟨"link_down", 0x1160, [(0x14, 0x400)], 0, 0, 0, 0, 0, .counter, [], []⟩,
  ⟨"warm_ok", 0x1168, [(0x14, 0x400)], 0, 0, 0, 0, 0, .counter, [], []⟩,
  ⟨"warm_fallback", 0x1170, [(0x14, 0x400)], 0, 0, 0, 0, 0, .counter, [], []⟩,
  ⟨"plca_lost", 0x1178, [(0x14, 0x400)], 0, 0, 0, 0, 0, .counter, [], []⟩,
  ⟨"MACSEC_TXSC_SCI_LO", 0x100000, [(0x10, 0x100)], 0, 0xFFFFFFFF, 0, 0, 0, .stored, [], []⟩,
  ⟨"MACSEC_TXSC_SCI_HI", 0x100004, [(0x10, 0x100)], 0, 0xFFFFFFFF, 0, 0, 0, .stored, [], []⟩,
  ⟨"MACSEC_TXSC_CFG", 0x100008, [(0x10, 0x100)], 0, 0xFFF, 0, 0, 0, .stored, [], []⟩,
  ⟨"MACSEC_TXSC_WARN", 0x10000C, [(0x10, 0x100)], 0, 0xFFFFFFFF, 0, 0, 0, .stored, [], []⟩]

/-- Register rows of MAC, part 3. -/
def regsMac3 : List RegRow := [
  ⟨"MACSEC_TXSC_SA", 0x100020, [(0x10, 0x100), (4, 0x20)], 0, 0xFF01, 0, 0, 0, .stored, [], []⟩,
  ⟨"MACSEC_TXSC_SA_PN_LO", 0x100024, [(0x10, 0x100), (4, 0x20)], 0, 0xFFFFFFFF, 0, 0, 0, .stored, [], []⟩,
  ⟨"MACSEC_TXSC_SA_PN_HI", 0x100028, [(0x10, 0x100), (4, 0x20)], 0, 0xFFFFFFFF, 0, 0, 0, .stored, [], []⟩,
  ⟨"MACSEC_TXSC_SA_SSCI", 0x10002C, [(0x10, 0x100), (4, 0x20)], 0, 0xFFFFFFFF, 0, 0, 0, .stored, [], []⟩,
  ⟨"MACSEC_TXSC_SA_SALT", 0x100030, [(0x10, 0x100), (4, 0x20), (3, 4)], 0, 0xFFFFFFFF, 0, 0, 0, .stored, [], []⟩,
  ⟨"MACSEC_RXSC_SCI_LO", 0x102000, [(0x10, 0x400), (4, 0x100)], 0, 0xFFFFFFFF, 0, 0, 0, .stored, [], []⟩,
  ⟨"MACSEC_RXSC_SCI_HI", 0x102004, [(0x10, 0x400), (4, 0x100)], 0, 0xFFFFFFFF, 0, 0, 0, .stored, [], []⟩,
  ⟨"MACSEC_RXSC_CFG", 0x102008, [(0x10, 0x400), (4, 0x100)], 0, 0xFFF, 0, 0, 0, .stored, [], []⟩,
  ⟨"MACSEC_RXSC_WARN", 0x10200C, [(0x10, 0x400), (4, 0x100)], 0, 0xFFFFFFFF, 0, 0, 0, .stored, [], []⟩,
  ⟨"MACSEC_RXSC_SA", 0x102020, [(0x10, 0x400), (4, 0x100), (4, 0x20)], 0, 0xFF01, 0, 0, 0, .stored, [], []⟩,
  ⟨"MACSEC_RXSC_SA_PN_LO", 0x102024, [(0x10, 0x400), (4, 0x100), (4, 0x20)], 0, 0xFFFFFFFF, 0, 0, 0, .stored, [], []⟩,
  ⟨"MACSEC_RXSC_SA_PN_HI", 0x102028, [(0x10, 0x400), (4, 0x100), (4, 0x20)], 0, 0xFFFFFFFF, 0, 0, 0, .stored, [], []⟩,
  ⟨"MACSEC_RXSC_SA_SSCI", 0x10202C, [(0x10, 0x400), (4, 0x100), (4, 0x20)], 0, 0xFFFFFFFF, 0, 0, 0, .stored, [], []⟩,
  ⟨"MACSEC_RXSC_SA_SALT", 0x102030, [(0x10, 0x400), (4, 0x100), (4, 0x20), (3, 4)], 0, 0xFFFFFFFF, 0, 0, 0, .stored, [], []⟩,
  ⟨"out_protected", 0x108000, [(0x10, 0x80)], 0, 0, 0, 0, 0, .counter, [], []⟩,
  ⟨"out_pn_exhausted", 0x108008, [(0x10, 0x80)], 0, 0, 0, 0, 0, .counter, [], []⟩,
  ⟨"out_mint_drop", 0x108010, [(0x10, 0x80)], 0, 0, 0, 0, 0, .counter, [], []⟩,
  ⟨"in_ok", 0x108018, [(0x10, 0x80)], 0, 0, 0, 0, 0, .counter, [], []⟩,
  ⟨"in_not_valid", 0x108020, [(0x10, 0x80)], 0, 0, 0, 0, 0, .counter, [], []⟩,
  ⟨"in_late", 0x108028, [(0x10, 0x80)], 0, 0, 0, 0, 0, .counter, [], []⟩]

/-- Register rows of MAC, part 4. -/
def regsMac4 : List RegRow := [
  ⟨"in_no_sa", 0x108030, [(0x10, 0x80)], 0, 0, 0, 0, 0, .counter, [], []⟩,
  ⟨"in_no_tag", 0x108038, [(0x10, 0x80)], 0, 0, 0, 0, 0, .counter, [], []⟩,
  ⟨"in_mint_drop", 0x108040, [(0x10, 0x80)], 0, 0, 0, 0, 0, .counter, [], []⟩]

/-- Every register row of MAC. -/
def regsMac : List RegRow := regsMac1 ++ regsMac2 ++ regsMac3 ++ regsMac4

/-- Register rows of TIME, part 1. -/
def regsTime1 : List RegRow := [
  ⟨"TIME_IRQ_STATUS", 0, [], 0, 0, 0, 0x1FF, 0, .stored, [], []⟩,
  ⟨"TIME_IRQ_ENABLE", 4, [], 0, 0x1FF, 0, 0, 0, .stored, [], []⟩,
  ⟨"TIME_ERR_CAPTURE", 8, [], 0, 0, 0, 0, 0, .stored, [], []⟩,
  ⟨"TIME_ERR_CLR", 0xC, [], 0, 0, 0, 0, 0, .writeOnly, [], []⟩,
  ⟨"TIME_CFG", 0x10, [], 0x104, 0xFF07, 0, 0, 0, .stored, [(8, 8, 1, 0x7F, 3)], []⟩,
  ⟨"TIME_SLEW", 0x14, [], 0x3E80064, 0xFFFF03FF, 0, 0, 0, .stored, [(0, 0xA, 1, 0x3E8, 3)], []⟩,
  ⟨"TIME_HOLD", 0x18, [], 0x7D0, 0xFFFF, 0, 0, 0, .stored, [(0, 0x10, 1, 0xFFFF, 3)], []⟩,
  ⟨"TIME_STATUS", 0x1C, [], 1, 0, 0, 0, 0, .derived, [], []⟩,
  ⟨"TIME_CMD", 0x20, [], 0, 0, 0, 0, 1, .stored, [], []⟩,
  ⟨"TIME_WOFS_LO", 0x28, [], 0, 0, 0, 0, 0, .derived, [], []⟩,
  ⟨"TIME_WOFS_HI", 0x2C, [], 0, 0, 0, 0, 0, .derived, [], []⟩,
  ⟨"TIME_LT_LO", 0x30, [], 0, 0, 0, 0, 0, .derived, [], []⟩,
  ⟨"TIME_LT_HI", 0x34, [], 0, 0, 0, 0, 0, .derived, [], []⟩,
  ⟨"TIME_SNAP_LT_LO", 0x40, [], 0, 0, 0, 0, 0, .derived, [], []⟩,
  ⟨"TIME_SNAP_LT_HI", 0x44, [], 0, 0, 0, 0, 0, .derived, [], []⟩,
  ⟨"TIME_BCYC_COUNT_LO", 0x210, [], 0, 0, 0, 0, 0, .derived, [], []⟩,
  ⟨"TIME_BCYC_COUNT_HI", 0x214, [], 0, 0, 0, 0, 0, .derived, [], []⟩,
  ⟨"TIME_TXTS_LT_LO", 0x310, [], 0, 0, 0, 0, 0, .derived, [], []⟩,
  ⟨"TIME_TXTS_LT_HI", 0x314, [], 0, 0, 0, 0, 0, .derived, [], []⟩,
  ⟨"TIME_SNAP_NS", 0x50, [(3, 0x10)], 0, 0, 0, 0, 0, .derived, [], []⟩]

/-- Register rows of TIME, part 2. -/
def regsTime2 : List RegRow := [
  ⟨"TIME_SNAP_SEC_LO", 0x54, [(3, 0x10)], 0, 0, 0, 0, 0, .derived, [], []⟩,
  ⟨"TIME_SNAP_SEC_HI", 0x58, [(3, 0x10)], 0, 0, 0, 0, 0, .derived, [], []⟩,
  ⟨"TIME_Dd_RATE", 0x100, [(2, 0x40)], 0, 0xFFFFFFFF, 0, 0, 0, .stored, [], []⟩,
  ⟨"TIME_Dd_ADJ_LO", 0x108, [(2, 0x40)], 0, 0xFFFFFFFF, 0, 0, 0, .stored, [], []⟩,
  ⟨"TIME_Dd_ADJ_HI", 0x10C, [(2, 0x40)], 0, 0xFFFFFFFF, 0, 0, 0, .stored, [], []⟩,
  ⟨"TIME_Dd_ADJ_CMD", 0x110, [(2, 0x40)], 0, 0, 0, 0, 1, .stored, [], []⟩,
  ⟨"TIME_BCYC_CFG", 0x200, [], 0xF4240, 0x80FFFFFF, 0, 0, 0, .stored, [(0, 0x18, 0x1E848, 0x989680, 3)], []⟩,
  ⟨"TIME_BCYC_BASE_NS", 0x204, [], 0, 0x3FFFFFFF, 0, 0, 0, .stored, [], []⟩,
  ⟨"TIME_BCYC_BASE_SEC_LO", 0x208, [], 0, 0xFFFFFFFF, 0, 0, 0, .stored, [], []⟩,
  ⟨"TIME_BCYC_BASE_SEC_HI", 0x20C, [], 0, 0xFFFF, 0, 0, 0, .stored, [], []⟩,
  ⟨"TIME_BCYC_SKIPPED", 0x218, [], 0, 0, 0, 0, 0, .derived, [], []⟩,
  ⟨"TIME_TXTS_STATUS", 0x300, [], 0, 0, 0, 0, 0, .derived, [], []⟩,
  ⟨"TIME_TXTS_INFO", 0x304, [], 0, 0, 0, 0, 0, .derived, [], []⟩,
  ⟨"TIME_TXTS_DOM", 0x308, [], 0, 0, 0, 0, 0, .derived, [], []⟩,
  ⟨"TIME_TXTS_POP", 0x318, [], 0, 0, 0, 0, 0, .writeOnly, [], []⟩]

/-- Every register row of TIME. -/
def regsTime : List RegRow := regsTime1 ++ regsTime2

/-- Register rows of MINT, part 1. -/
def regsMint1 : List RegRow := [
  ⟨"MINT_IRQ_STATUS", 0, [], 0, 0, 0, 0x3FF, 0, .stored, [], []⟩,
  ⟨"MINT_IRQ_ENABLE", 4, [], 0, 0x3FF, 0, 0, 0, .stored, [], []⟩,
  ⟨"MINT_ERR_CAPTURE", 8, [], 0, 0, 0, 0, 0, .stored, [], []⟩,
  ⟨"MINT_ERR_CLR", 0xC, [], 0, 0, 0, 0, 0, .writeOnly, [], []⟩,
  ⟨"MINT_TELLER_CFG", 0x10, [], 0x10003200, 0xFFFF7F00, 0xF, 0, 0, .stored, [(0, 4, 0, 8, 3), (8, 7, 1, 0x5A, 3), (0x10, 0x10, 1, 0xFFFF, 3)], []⟩,
  ⟨"MINT_STREAM_CFG", 0x14, [], 4, 0x7F, 0, 0, 0, .stored, [(0, 7, 1, 0x40, 3)], []⟩,
  ⟨"MINT_POOL_STATUS", 0x18, [], 0xFF00, 0, 0, 0, 0, .derived, [], []⟩,
  ⟨"MINT_CTX_EPOCH", 0x1C, [], 0, 0, 0, 0, 0, .derived, [], []⟩,
  ⟨"MINT_IVGEN_CFG", 0x100, [(8, 0x10)], 0x100000, 0, 0x1FFF1F, 0, 0, .stored, [(0x10, 5, 8, 0x18, 3)], []⟩,
  ⟨"MINT_IVGEN_FIXED", 0x104, [(8, 0x10)], 0, 0, 0xFFFFFFFF, 0, 0, .stored, [], []⟩,
  ⟨"MINT_IVGEN_NEXT_LO", 0x108, [(8, 0x10)], 0, 0, 0, 0, 0, .derived, [], []⟩,
  ⟨"MINT_IVGEN_NEXT_HI", 0x10C, [(8, 0x10)], 0, 0, 0, 0, 0, .derived, [], []⟩,
  ⟨"MINT_CORE_STATUS", 0x200, [(0xA, 0x20)], 0x6400, 0, 0, 0, 0, .derived, [], []⟩,
  ⟨"MINT_CORE_CTRL", 0x204, [(0xA, 0x20)], 0, 0, 0, 0, 3, .stored, [], []⟩,
  ⟨"core_blocks", 0x208, [(0xA, 0x20)], 0, 0, 0, 0, 0, .counter, [], []⟩,
  ⟨"core_mismatches", 0x210, [(0xA, 0x20)], 0, 0, 0, 0, 0, .counter, [], []⟩,
  ⟨"MINT_RING_PRI", 0x400, [(0x40, 4)], 0, 3, 0, 0, 0, .stored, [], []⟩,
  ⟨"jobs_ok", 0x1000, [], 0, 0, 0, 0, 0, .counter, [], []⟩,
  ⟨"jobs_failed", 0x1008, [], 0, 0, 0, 0, 0, .counter, [], []⟩,
  ⟨"tag_fail", 0x1010, [], 0, 0, 0, 0, 0, .counter, [], []⟩]

/-- Register rows of MINT, part 2. -/
def regsMint2 : List RegRow := [
  ⟨"retries", 0x1018, [], 0, 0, 0, 0, 0, .counter, [], []⟩,
  ⟨"mint_fault_mismatch", 0x1020, [], 0, 0, 0, 0, 0, .counter, [], []⟩,
  ⟨"ctx_save_clear", 0x1028, [], 0, 0, 0, 0, 0, .counter, [], []⟩,
  ⟨"ctx_save_wrapped", 0x1030, [], 0, 0, 0, 0, 0, .counter, [], []⟩,
  ⟨"ctx_auth_fail", 0x1038, [], 0, 0, 0, 0, 0, .counter, [], []⟩,
  ⟨"preemptions", 0x1040, [], 0, 0, 0, 0, 0, .counter, [], []⟩,
  ⟨"ctx_slot_busy", 0x1048, [], 0, 0, 0, 0, 0, .counter, [], []⟩]

/-- Every register row of MINT. -/
def regsMint : List RegRow := regsMint1 ++ regsMint2

/-- Register rows of VAULT, part 1. -/
def regsVault1 : List RegRow := [
  ⟨"VAULT_IRQ_STATUS", 0, [], 0, 0, 0, 0xFF, 0, .stored, [], []⟩,
  ⟨"VAULT_IRQ_ENABLE", 4, [], 0, 0xFF, 0, 0, 0, .stored, [], []⟩,
  ⟨"VAULT_ERR_CAPTURE", 8, [], 0, 0, 0, 0, 0, .stored, [], []⟩,
  ⟨"VAULT_ERR_CLR", 0xC, [], 0, 0, 0, 0, 0, .writeOnly, [], []⟩,
  ⟨"VAULT_STATUS", 0x10, [], 0, 0, 0, 0, 0, .derived, [], []⟩,
  ⟨"VAULT_CTRL", 0x14, [], 0, 0, 0, 0, 1, .stored, [], []⟩,
  ⟨"VAULT_DEVICE_ID", 0x20, [(4, 4)], 0, 0, 0, 0, 0, .derived, [], []⟩,
  ⟨"VAULT_PAIR_LABEL", 0x30, [(8, 4)], 0, 0, 0xFFFFFFFF, 0, 0, .stored, [], []⟩,
  ⟨"VAULT_XMSS_STATUS", 0x50, [], 0, 0, 0, 0, 0, .derived, [], []⟩,
  ⟨"VAULT_MB_CMD", 0x100, [(4, 0x20)], 0, 0xFFFFFF, 0, 0, 0x80000000, .stored, [], []⟩,
  ⟨"VAULT_MB_POLICY", 0x104, [(4, 0x20)], 0, 0xFFFFFFFF, 0, 0, 0, .stored, [], []⟩,
  ⟨"VAULT_MB_ADDR_LO", 0x108, [(4, 0x20)], 0, 0xFFFFFFFF, 0, 0, 0, .stored, [], []⟩,
  ⟨"VAULT_MB_ADDR_HI", 0x10C, [(4, 0x20)], 0, 0xFFFFFFFF, 0, 0, 0, .stored, [], []⟩,
  ⟨"VAULT_MB_ARG", 0x110, [(4, 0x20)], 0, 0x1FFFF, 0, 0, 0, .stored, [], []⟩,
  ⟨"VAULT_MB_STATUS", 0x118, [(4, 0x20)], 0, 0, 0, 0, 0, .stored, [], []⟩,
  ⟨"VAULT_BMR", 0x200, [(8, 0x20), (8, 4)], 0, 0, 0, 0, 0, .derived, [], []⟩,
  ⟨"VAULT_CTR_NEXT_LO", 0x400, [(0x10, 0x10)], 0, 0, 0, 0, 0, .derived, [], []⟩,
  ⟨"VAULT_CTR_NEXT_HI", 0x404, [(0x10, 0x10)], 0, 0, 0, 0, 0, .derived, [], []⟩,
  ⟨"VAULT_CTR_CFG", 0x408, [(0x10, 0x10)], 0, 0, 3, 0, 0, .stored, [(0, 2, 0, 2, 2)], [(0, 1, 1), (2, 3, 2)]⟩,
  ⟨"VAULT_CTR_WEAR", 0x40C, [(0x10, 0x10)], 0, 0, 0, 0, 0, .derived, [], []⟩]

/-- Register rows of VAULT, part 2. -/
def regsVault2 : List RegRow := [
  ⟨"VAULT_SLOT_POLICY", 0x800, [(0x100, 4)], 0, 0, 0, 0, 0, .derived, [], []⟩]

/-- Every register row of VAULT. -/
def regsVault : List RegRow := regsVault1 ++ regsVault2

/-- Register rows of CAN, part 1. -/
def regsCan1 : List RegRow := [
  ⟨"CAN_IRQ_STATUS", 0, [], 0, 0, 0, 0x1FFFFF, 0, .stored, [], []⟩,
  ⟨"CAN_IRQ_ENABLE", 4, [], 0, 0x1FFFFF, 0, 0, 0, .stored, [], []⟩,
  ⟨"CAN_ERR_CAPTURE", 8, [], 0, 0, 0, 0, 0, .stored, [], []⟩,
  ⟨"CAN_ERR_CLR", 0xC, [], 0, 0, 0, 0, 0, .writeOnly, [], []⟩,
  ⟨"CAN_TX_CANCEL", 0x10, [], 0, 0, 0, 0, 0, .writeOnly, [], []⟩,
  ⟨"CAN_CANCEL_STATUS", 0x14, [], 0, 0, 0, 0, 0, .stored, [], []⟩,
  ⟨"CAN_RAM_PART", 0x100, [(0x10, 4)], 0x800, 0, 0xFF7F, 0, 0, .stored, [], [(0, 0, 0x800), (1, 1, 0x808), (2, 2, 0x810), (3, 3, 0x818), (4, 4, 0x820), (5, 5, 0x828), (6, 6, 0x830), (7, 7, 0x838), (8, 8, 0x840), (9, 9, 0x848), (0xA, 0xA, 0x850), (0xB, 0xB, 0x858), (0xC, 0xC, 0x860), (0xD, 0xD, 0x868), (0xE, 0xE, 0x870), (0xF, 0xF, 0x878)]⟩,
  ⟨"CAN_PN_CFG", 0x800, [(4, 0x40)], 0, 0xFF, 0, 0, 0, .stored, [], []⟩,
  ⟨"CAN_PN_ID", 0x804, [(4, 0x40)], 0, 0x3FFFFFFF, 0, 0, 0, .stored, [], []⟩,
  ⟨"CAN_PN_MASK", 0x808, [(4, 0x40)], 0, 0x1FFFFFFF, 0, 0, 0, .stored, [], []⟩,
  ⟨"CAN_PN_DATA_LO", 0x80C, [(4, 0x40)], 0, 0xFFFFFFFF, 0, 0, 0, .stored, [], []⟩,
  ⟨"CAN_PN_DATA_HI", 0x810, [(4, 0x40)], 0, 0xFFFFFFFF, 0, 0, 0, .stored, [], []⟩,
  ⟨"CAN_PN_WAKE_LT_LO", 0x818, [(4, 0x40)], 0, 0, 0, 0, 0, .stored, [], []⟩,
  ⟨"CAN_PN_WAKE_LT_HI", 0x81C, [(4, 0x40)], 0, 0, 0, 0, 0, .stored, [], []⟩,
  ⟨"CAN_PN_WAKE_ID", 0x820, [(4, 0x40)], 0, 0, 0, 0, 0, .stored, [], []⟩,
  ⟨"CAN_CH_CFG", 0x1000, [(0x10, 0x200)], 0x3F000000, 0x201, 0x3F0001FE, 0, 0, .stored, [], []⟩,
  ⟨"CAN_NBT", 0x1004, [(0x10, 0x200)], 0xF3E01, 0x7F7FFFFF, 0, 0, 0, .stored, [(8, 8, 1, 0xFF, 2)], []⟩,
  ⟨"CAN_DBT", 0x1008, [(0x10, 0x200)], 0x30600, 0xFF7FFFFF, 0, 0, 0, .stored, [(0, 8, 0, 0x1F, 2), (8, 8, 0, 0x3F, 2), (0x10, 7, 0, 0x1F, 2), (0x18, 7, 0, 0x1F, 2)], []⟩,
  ⟨"CAN_XCFG", 0x100C, [(0x10, 0x200)], 0, 0xFFFFF, 0, 0, 0, .stored, [], []⟩,
  ⟨"CAN_LAYOUT", 0x1010, [(0x10, 0x200)], 0x202000C1, 0, 0xFFFFFFFF, 0, 0, .stored, [], []⟩]

/-- Register rows of CAN, part 2. -/
def regsCan2 : List RegRow := [
  ⟨"CAN_RX_LOCK", 0x1014, [(0x10, 0x200)], 0x3E8, 0xFFFF, 0, 0, 0, .stored, [(0, 0x10, 1, 0xFFFF, 2)], []⟩,
  ⟨"CAN_STATUS", 0x1018, [(0x10, 0x200)], 4, 0, 0, 0, 0, .derived, [], []⟩,
  ⟨"CAN_EVENT", 0x101C, [(0x10, 0x200)], 0, 0, 0, 0x3F, 0, .stored, [], []⟩,
  ⟨"CAN_EVENT_EN", 0x1020, [(0x10, 0x200)], 0, 0x3F, 0, 0, 0, .stored, [], []⟩,
  ⟨"CAN_CMD", 0x1024, [(0x10, 0x200)], 0, 0, 0, 0, 1, .stored, [], []⟩,
  ⟨"CAN_RX_HEAD", 0x1028, [(0x10, 0x200)], 0xFFFF, 0, 0, 0, 0, .derived, [], []⟩,
  ⟨"CAN_LAYOUT2", 0x102C, [(0x10, 0x200)], 0x2020, 0, 0xFFFF, 0, 0, .stored, [], []⟩,
  ⟨"CAN_FLT_ID", 0x1080, [(0x10, 0x200), (0x20, 8)], 0, 0, 0x7FFFFFFF, 0, 0, .stored, [], []⟩,
  ⟨"CAN_FLT_MASK", 0x1084, [(0x10, 0x200), (0x20, 8)], 0, 0, 0xDFFFFFFF, 0, 0, .stored, [], []⟩,
  ⟨"tx_ok", 0x1180, [(0x10, 0x200)], 0, 0, 0, 0, 0, .counter, [], []⟩,
  ⟨"rx_ok", 0x1188, [(0x10, 0x200)], 0, 0, 0, 0, 0, .counter, [], []⟩,
  ⟨"rx_overflow", 0x1190, [(0x10, 0x200)], 0, 0, 0, 0, 0, .counter, [], []⟩,
  ⟨"rx_too_long", 0x1198, [(0x10, 0x200)], 0, 0, 0, 0, 0, .counter, [], []⟩,
  ⟨"rx_lock_broken", 0x11A0, [(0x10, 0x200)], 0, 0, 0, 0, 0, .counter, [], []⟩,
  ⟨"rx_ecc", 0x11A8, [(0x10, 0x200)], 0, 0, 0, 0, 0, .counter, [], []⟩,
  ⟨"arb_lost", 0x11B0, [(0x10, 0x200)], 0, 0, 0, 0, 0, .counter, [], []⟩,
  ⟨"bus_off", 0x11B8, [(0x10, 0x200)], 0, 0, 0, 0, 0, .counter, [], []⟩,
  ⟨"CAN_RAM_WINDOW", 0x80000, [(0x20000, 4)], 0, 0, 0, 0, 0, .derived, [], []⟩]

/-- Every register row of CAN. -/
def regsCan : List RegRow := regsCan1 ++ regsCan2

/-- Register rows of LIN, part 1. -/
def regsLin1 : List RegRow := [
  ⟨"LIN_IRQ_STATUS", 0, [], 0, 0, 0, 0x1FF, 0, .stored, [], []⟩,
  ⟨"LIN_IRQ_ENABLE", 4, [], 0, 0x1FF, 0, 0, 0, .stored, [], []⟩,
  ⟨"LIN_ERR_CAPTURE", 8, [], 0, 0, 0, 0, 0, .stored, [], []⟩,
  ⟨"LIN_ERR_CLR", 0xC, [], 0, 0, 0, 0, 0, .writeOnly, [], []⟩,
  ⟨"LIN_CH_CFG", 0x1000, [(8, 0x100)], 0xD530B00, 0xFC000001, 0x3FFFF82, 0, 0, .stored, [(7, 0xE, 0x1F4, 0x2710, 3), (0x15, 5, 0xA, 0x17, 3), (0x1A, 6, 1, 0x14, 3)], []⟩,
  ⟨"LIN_SCHED_CMD", 0x1004, [(8, 0x100)], 0, 7, 0, 0, 8, .stored, [], []⟩,
  ⟨"LIN_STATUS", 0x1008, [(8, 0x100)], 0, 0, 0, 0, 0, .stored, [], []⟩,
  ⟨"LIN_EVENT", 0x100C, [(8, 0x100)], 0, 0, 0, 0xF, 0, .stored, [], []⟩,
  ⟨"LIN_EVENT_EN", 0x1010, [(8, 0x100)], 0, 0xF, 0, 0, 0, .stored, [], []⟩,
  ⟨"frames_ok", 0x1040, [(8, 0x100)], 0, 0, 0, 0, 0, .counter, [], []⟩,
  ⟨"lin_errors", 0x1048, [(8, 0x100)], 0, 0, 0, 0, 0, .counter, [], []⟩,
  ⟨"no_response", 0x1050, [(8, 0x100)], 0, 0, 0, 0, 0, .counter, [], []⟩,
  ⟨"LIN_FRAME", 0x2000, [(8, 0x100), (0x40, 4)], 0, 0, 0x1FF, 0, 0, .stored, [], []⟩,
  ⟨"LIN_SLOT", 0x4000, [(8, 0x400), (4, 0x100), (0x40, 4)], 0, 0, 0xFFFF, 0, 0, .stored, [], []⟩]

/-- Every register row of LIN. -/
def regsLin : List RegRow := regsLin1

/-- Register rows of SGE, part 1. -/
def regsSge1 : List RegRow := [
  ⟨"SGE_IRQ_STATUS", 0, [], 0, 0, 0, 0xFF, 0, .stored, [], []⟩,
  ⟨"SGE_IRQ_ENABLE", 4, [], 0, 0xFF, 0, 0, 0, .stored, [], []⟩,
  ⟨"SGE_ERR_CAPTURE", 8, [], 0, 0, 0, 0, 0, .stored, [], []⟩,
  ⟨"SGE_ERR_CLR", 0xC, [], 0, 0, 0, 0, 0, .writeOnly, [], []⟩,
  ⟨"SGE_CTRL", 0x10, [], 0, 1, 0, 0, 0, .stored, [], []⟩,
  ⟨"SGE_CFG", 0x14, [], 2, 0, 0x3FF, 0, 0, .stored, [(0, 0xA, 1, 0x3E8, 3)], []⟩,
  ⟨"SGE_LOG", 0x18, [], 0x40, 0xFFFF, 0, 0, 0, .stored, [], []⟩,
  ⟨"SGE_STATUS", 0x1C, [], 0, 0, 0, 0, 0, .derived, [], []⟩,
  ⟨"SGE_TBL_CMD", 0x20, [], 0, 0xFF, 0, 0, 0x80000000, .stored, [], []⟩,
  ⟨"SGE_TBL_INDEX", 0x24, [], 0, 0x3FFF, 0, 0, 0, .stored, [], []⟩,
  ⟨"SGE_TBL_STATUS", 0x28, [], 0, 0, 0, 0, 0, .stored, [], []⟩,
  ⟨"SGE_TBL_DATA", 0x40, [(0x18, 4)], 0, 0xFFFFFFFF, 0, 0, 0, .stored, [], []⟩,
  ⟨"SGE_FRESH_CMD", 0xC0, [], 0, 0xFFF, 0, 0, 0x80000000, .stored, [], []⟩,
  ⟨"SGE_FRESH_VAL_LO", 0xC8, [], 0, 0xFFFFFFFF, 0, 0, 0, .stored, [], []⟩,
  ⟨"SGE_FRESH_VAL_HI", 0xCC, [], 0, 0xFFFFFFFF, 0, 0, 0, .stored, [], []⟩,
  ⟨"SGE_FRESH_STATUS", 0xD0, [], 0, 0, 0, 0, 0, .stored, [], []⟩,
  ⟨"src_frames", 0x200, [], 0, 0, 0, 0, 0, .counter, [], []⟩,
  ⟨"rx_nomatch", 0x208, [], 0, 0, 0, 0, 0, .counter, [], []⟩,
  ⟨"short_src", 0x210, [], 0, 0, 0, 0, 0, .counter, [], []⟩,
  ⟨"saturated", 0x218, [], 0, 0, 0, 0, 0, .counter, [], []⟩]

/-- Register rows of SGE, part 2. -/
def regsSge2 : List RegRow := [
  ⟨"invalid_mapped", 0x220, [], 0, 0, 0, 0, 0, .counter, [], []⟩,
  ⟨"timeouts", 0x228, [], 0, 0, 0, 0, 0, .counter, [], []⟩,
  ⟨"emitted", 0x230, [], 0, 0, 0, 0, 0, .counter, [], []⟩,
  ⟨"coalesced", 0x238, [], 0, 0, 0, 0, 0, .counter, [], []⟩,
  ⟨"fifo_wait", 0x240, [], 0, 0, 0, 0, 0, .counter, [], []⟩,
  ⟨"late", 0x248, [], 0, 0, 0, 0, 0, .counter, [], []⟩,
  ⟨"fmt_drop", 0x250, [], 0, 0, 0, 0, 0, .counter, [], []⟩,
  ⟨"sge_tx_ok", 0x258, [], 0, 0, 0, 0, 0, .counter, [], []⟩,
  ⟨"sge_tx_fail", 0x260, [], 0, 0, 0, 0, 0, .counter, [], []⟩,
  ⟨"auth_fail", 0x268, [], 0, 0, 0, 0, 0, .counter, [], []⟩,
  ⟨"fresh_reject", 0x270, [], 0, 0, 0, 0, 0, .counter, [], []⟩,
  ⟨"mac_unavail", 0x278, [], 0, 0, 0, 0, 0, .counter, [], []⟩,
  ⟨"sge_ecc", 0x280, [], 0, 0, 0, 0, 0, .counter, [], []⟩,
  ⟨"stopped", 0x288, [], 0, 0, 0, 0, 0, .counter, [], []⟩,
  ⟨"sge_log_lost", 0x290, [], 0, 0, 0, 0, 0, .counter, [], []⟩]

/-- Every register row of SGE. -/
def regsSge : List RegRow := regsSge1 ++ regsSge2

/-- Register rows of LEDGER, part 1. -/
def regsLedger1 : List RegRow := [
  ⟨"LEDGER_IRQ_STATUS", 0, [], 0, 0, 0, 0x3F, 0, .stored, [], []⟩,
  ⟨"LEDGER_IRQ_ENABLE", 4, [], 0, 0x3F, 0, 0, 0, .stored, [], []⟩,
  ⟨"LEDGER_ERR_CAPTURE", 8, [], 0, 0, 0, 0, 0, .stored, [], []⟩,
  ⟨"LEDGER_ERR_CLR", 0xC, [], 0, 0, 0, 0, 0, .writeOnly, [], []⟩,
  ⟨"LEDGER_CFG", 0x10, [], 0x3E81000, 0xFFFF7F00, 1, 0, 0, .stored, [(8, 7, 0, 0x40, 3), (0x10, 0x10, 1, 0xFFFF, 3)], []⟩,
  ⟨"LEDGER_EXPORT_CFG", 0x14, [], 0x3E80000, 0xFFFF0040, 0x3F, 0, 0, .stored, [(0x10, 0x10, 1, 0xFFFF, 3)], []⟩,
  ⟨"LEDGER_STATUS", 0x18, [], 0, 0, 0, 0, 0, .derived, [], []⟩,
  ⟨"LEDGER_NEXT_SEQ_LO", 0x20, [], 0, 0, 0, 0, 0, .derived, [], []⟩,
  ⟨"LEDGER_NEXT_SEQ_HI", 0x24, [], 0, 0, 0, 0, 0, .derived, [], []⟩,
  ⟨"LEDGER_EXP_SEQ_LO", 0x28, [], 0, 0, 0, 0, 0, .derived, [], []⟩,
  ⟨"LEDGER_EXP_SEQ_HI", 0x2C, [], 0, 0, 0, 0, 0, .derived, [], []⟩,
  ⟨"LEDGER_FRAME_RX_PORTS", 0x30, [], 0, 0xFFFFFF, 0, 0, 0, .stored, [], []⟩,
  ⟨"LEDGER_FRAME_TX_PORTS", 0x34, [], 0, 0xFFFFF, 0, 0, 0, .stored, [], []⟩,
  ⟨"LEDGER_STREAM_EN", 0x100, [(0x40, 4)], 0, 0xFFFFFFFF, 0, 0, 0, .stored, [], []⟩,
  ⟨"records", 0x200, [], 0, 0, 0, 0, 0, .counter, [], []⟩,
  ⟨"frame_discarded", 0x208, [], 0, 0, 0, 0, 0, .counter, [], []⟩,
  ⟨"evt_lost", 0x210, [], 0, 0, 0, 0, 0, .counter, [], []⟩,
  ⟨"overwritten", 0x218, [], 0, 0, 0, 0, 0, .counter, [], []⟩,
  ⟨"merged_in", 0x220, [], 0, 0, 0, 0, 0, .counter, [], []⟩,
  ⟨"merge_lost", 0x228, [], 0, 0, 0, 0, 0, .counter, [], []⟩]

/-- Every register row of LEDGER. -/
def regsLedger : List RegRow := regsLedger1

/-- Register rows of PAIR, part 1. -/
def regsPair1 : List RegRow := [
  ⟨"PAIR_IRQ_STATUS", 0, [], 0, 0, 0, 0x7F, 0, .stored, [], []⟩,
  ⟨"PAIR_IRQ_ENABLE", 4, [], 0, 0x7F, 0, 0, 0, .stored, [], []⟩,
  ⟨"PAIR_ERR_CAPTURE", 8, [], 0, 0, 0, 0, 0, .stored, [], []⟩,
  ⟨"PAIR_ERR_CLR", 0xC, [], 0, 0, 0, 0, 0, .writeOnly, [], []⟩,
  ⟨"PAIR_CFG", 0x10, [], 0x8000, 0, 0xFF01, 0, 0, .stored, [], []⟩,
  ⟨"PAIR_PORTS", 0x14, [], 0xFFFFF, 0, 0xFFFFF, 0, 0, .stored, [], []⟩,
  ⟨"PAIR_CHANNELS", 0x18, [], 0xFFFFFF, 0, 0xFFFFFF, 0, 0, .stored, [], []⟩,
  ⟨"PAIR_DIGEST_PORTS", 0x1C, [], 0xFFFFF, 0, 0xFFFFFF, 0, 0, .stored, [], []⟩,
  ⟨"PAIR_PN_SKIP_LO", 0x20, [], 0x100000, 0, 0xFFFFFFFF, 0, 0, .stored, [], []⟩,
  ⟨"PAIR_PN_SKIP_HI", 0x24, [], 0, 0, 0xFFFFFFFF, 0, 0, .stored, [], []⟩,
  ⟨"PAIR_FRESH_SKIP_LO", 0x28, [], 0x10000, 0, 0xFFFFFFFF, 0, 0, .stored, [], []⟩,
  ⟨"PAIR_FRESH_SKIP_HI", 0x2C, [], 0, 0, 0xFFFFFFFF, 0, 0, .stored, [], []⟩,
  ⟨"PAIR_TIMING", 0x30, [], 0x641464, 0xFFFFFFFF, 0, 0, 0, .stored, [(0, 8, 1, 0xFF, 3), (8, 8, 5, 0x64, 3), (0x10, 8, 1, 0xFF, 3)], []⟩,
  ⟨"PAIR_CTRL", 0x34, [], 0, 1, 0, 0, 0, .stored, [], []⟩,
  ⟨"PAIR_CMD", 0x38, [], 0, 0, 0, 0, 7, .stored, [], []⟩,
  ⟨"PAIR_STATUS", 0x3C, [], 0x28, 0, 0, 0, 0, .derived, [], []⟩,
  ⟨"PAIR_DELTA_LO", 0x40, [], 0, 0, 0, 0, 0, .derived, [], []⟩,
  ⟨"PAIR_DELTA_HI", 0x44, [], 0, 0, 0, 0, 0, .derived, [], []⟩,
  ⟨"PAIR_PARTNER_VER", 0x48, [], 0, 0, 0, 0, 0, .stored, [], []⟩,
  ⟨"bundles_sent", 0x100, [], 0, 0, 0, 0, 0, .counter, [], []⟩]

/-- Register rows of PAIR, part 2. -/
def regsPair2 : List RegRow := [
  ⟨"bundles_applied", 0x108, [], 0, 0, 0, 0, 0, .counter, [], []⟩,
  ⟨"pair_mismatches", 0x110, [], 0, 0, 0, 0, 0, .counter, [], []⟩,
  ⟨"unresolved_total", 0x118, [], 0, 0, 0, 0, 0, .counter, [], []⟩,
  ⟨"missing", 0x120, [], 0, 0, 0, 0, 0, .counter, [], []⟩,
  ⟨"takeovers", 0x128, [], 0, 0, 0, 0, 0, .counter, [], []⟩,
  ⟨"standby_discard", 0x130, [], 0, 0, 0, 0, 0, .counter, [], []⟩,
  ⟨"link_crc_err", 0x138, [], 0, 0, 0, 0, 0, .counter, [], []⟩,
  ⟨"full_syncs", 0x140, [], 0, 0, 0, 0, 0, .counter, [], []⟩]

/-- Every register row of PAIR. -/
def regsPair : List RegRow := regsPair1 ++ regsPair2

/-- Register rows of SAFE, part 1. -/
def regsSafe1 : List RegRow := [
  ⟨"SAFE_IRQ_STATUS", 0, [], 0, 0, 0, 0x3F001F, 0, .stored, [], []⟩,
  ⟨"SAFE_IRQ_ENABLE", 4, [], 0, 0x3F001F, 0, 0, 0, .stored, [], []⟩,
  ⟨"SAFE_ERR_CAPTURE", 8, [], 0, 0, 0, 0, 0, .stored, [], []⟩,
  ⟨"SAFE_ERR_CLR", 0xC, [], 0, 0, 0, 0, 0, .writeOnly, [], []⟩,
  ⟨"SAFE_EC_STATUS", 0x10000, [], 0, 0, 0, 0, 0, .derived, [], []⟩,
  ⟨"SAFE_EC_ACK", 0x10004, [], 0, 0, 0, 0, 0, .writeOnly, [], []⟩,
  ⟨"SAFE_EC_OVF_CLR", 0x10008, [], 0, 0, 0, 0, 0, .writeOnly, [], []⟩,
  ⟨"SAFE_EC_REACT1", 0x10014, [], 1, 0, 0xF, 0, 0, .stored, [], []⟩,
  ⟨"SAFE_EC_REACT2", 0x10018, [], 3, 0, 0xF, 0, 0, .stored, [], []⟩,
  ⟨"SAFE_EC_REACT3", 0x1001C, [], 0xB, 0, 0xF, 0, 0, .stored, [], []⟩,
  ⟨"SAFE_EC_IDX", 0x10020, [], 0, 0x3F, 0, 0, 0, .stored, [], []⟩,
  ⟨"SAFE_EC_ENTRY", 0x10024, [(4, 4)], 0, 0, 0, 0, 0, .derived, [], []⟩,
  ⟨"SAFE_FAULT_CTRL", 0x10040, [], 0, 0, 0, 0, 3, .stored, [], []⟩,
  ⟨"SAFE_FAULT_STATUS", 0x10044, [], 1, 0, 0, 0, 0, .derived, [], []⟩,
  ⟨"SAFE_FAULT_CFG", 0x10048, [], 0xA, 0, 0xFFFF, 0, 0, .stored, [(0, 0x10, 1, 0xFFFF, 3)], []⟩,
  ⟨"reports", 0x10100, [], 0, 0, 0, 0, 0, .counter, [], []⟩,
  ⟨"lost", 0x10108, [], 0, 0, 0, 0, 0, .counter, [], []⟩,
  ⟨"acks", 0x10110, [], 0, 0, 0, 0, 0, .counter, [], []⟩,
  ⟨"TRIAD_STATUS", 0x20000, [], 0, 0, 0, 0, 0, .derived, [], []⟩,
  ⟨"TRIAD_CFG", 0x20004, [], 0x10A01, 0, 0xFFFFFF01, 0, 0, .stored, [(8, 8, 1, 0xFF, 3), (0x10, 0x10, 1, 0xFFFF, 3)], []⟩]

/-- Register rows of SAFE, part 2. -/
def regsSafe2 : List RegRow := [
  ⟨"TRIAD_WDT_CFG", 0x20008, [], 0, 0, 0xFFFFFFFF, 0, 0, .stored, [], []⟩,
  ⟨"TRIAD_WDT_KICK", 0x2000C, [], 0, 0, 0, 0, 0, .writeOnly, [], []⟩,
  ⟨"TRIAD_CWDT_CFG", 0x20010, [], 0, 0x80FFFFFF, 0, 0, 0, .stored, [(0, 0x18, 1, 0xFFFFFF, 3)], []⟩,
  ⟨"TRIAD_CWDT_KICK", 0x20014, [], 0, 0, 0, 0, 0, .writeOnly, [], []⟩,
  ⟨"TRIAD_MM_LT_LO", 0x20018, [], 0, 0, 0, 0, 0, .stored, [], []⟩,
  ⟨"TRIAD_MM_LT_HI", 0x2001C, [], 0, 0, 0, 0, 0, .stored, [], []⟩,
  ⟨"TRIAD_MM_INFO", 0x20020, [], 0, 0, 0, 0, 0, .stored, [], []⟩,
  ⟨"mismatches", 0x20100, [], 0, 0, 0, 0, 0, .counter, [], []⟩,
  ⟨"resyncs", 0x20108, [], 0, 0, 0, 0, 0, .counter, [], []⟩,
  ⟨"doubles", 0x20110, [], 0, 0, 0, 0, 0, .counter, [], []⟩,
  ⟨"wdt_expiries", 0x20118, [], 0, 0, 0, 0, 0, .counter, [], []⟩,
  ⟨"cwdt_expiries", 0x20120, [], 0, 0, 0, 0, 0, .counter, [], []⟩,
  ⟨"triad_ecc_corr", 0x20128, [], 0, 0, 0, 0, 0, .counter, [], []⟩,
  ⟨"TRIAD_LOAD_WINDOW", 0x40000, [(0x8000, 4)], 0, 0, 0, 0, 0, .derived, [], []⟩]

/-- Every register row of SAFE. -/
def regsSafe : List RegRow := regsSafe1 ++ regsSafe2

/-- Register rows of BRG, part 1. -/
def regsBrg1 : List RegRow := [
  ⟨"BRG_IRQ_STATUS", 0, [], 0, 0, 0, 0x3F, 0, .stored, [], []⟩,
  ⟨"BRG_IRQ_ENABLE", 4, [], 0, 0x3F, 0, 0, 0, .stored, [], []⟩,
  ⟨"BRG_ERR_CAPTURE", 8, [], 0, 0, 0, 0, 0, .stored, [], []⟩,
  ⟨"BRG_ERR_CLR", 0xC, [], 0, 0, 0, 0, 0, .writeOnly, [], []⟩,
  ⟨"BRG_CFG", 0x10, [], 0xA0400, 0xFFFFFFFF, 0, 0, 0, .stored, [(0, 0x10, 0x40, 0xFFFF, 3), (0x10, 0x10, 1, 0xFFFF, 3)], []⟩,
  ⟨"BRG_SYNC_WR", 0x14, [], 0, 0xF, 0, 0, 0, .stored, [], []⟩,
  ⟨"BRG_MON_STATUS", 0x18, [], 0, 0, 0, 0, 0, .derived, [], []⟩,
  ⟨"BRG_PWE_STATUS", 0x1C, [], 0, 0, 0, 0, 0, .derived, [], []⟩,
  ⟨"BRG_PWE_LT_LO", 0x20, [], 0, 0, 0, 0, 0, .derived, [], []⟩,
  ⟨"BRG_PWE_LT_HI", 0x24, [], 0, 0, 0, 0, 0, .derived, [], []⟩,
  ⟨"BRG_PWE_ADDR", 0x28, [], 0, 0, 0, 0, 0, .derived, [], []⟩,
  ⟨"BRG_PWE_DATA", 0x2C, [], 0, 0, 0, 0, 0, .derived, [], []⟩,
  ⟨"BRG_PWE_INFO", 0x30, [], 0, 0, 0, 0, 0, .derived, [], []⟩,
  ⟨"BRG_PWE_POP", 0x34, [], 0, 0, 0, 0, 0, .writeOnly, [], []⟩,
  ⟨"err_decode", 0x100, [], 0, 0, 0, 0, 0, .counter, [], []⟩,
  ⟨"err_target", 0x108, [], 0, 0, 0, 0, 0, .counter, [], []⟩,
  ⟨"tgt_timeout", 0x110, [], 0, 0, 0, 0, 0, .counter, [], []⟩,
  ⟨"sc_fail", 0x118, [], 0, 0, 0, 0, 0, .counter, [], []⟩,
  ⟨"lost_h0", 0x120, [], 0, 0, 0, 0, 0, .counter, [], []⟩,
  ⟨"lost_h1", 0x128, [], 0, 0, 0, 0, 0, .counter, [], []⟩]

/-- Register rows of BRG, part 2. -/
def regsBrg2 : List RegRow := [
  ⟨"lost_cpu", 0x130, [], 0, 0, 0, 0, 0, .counter, [], []⟩,
  ⟨"lost_triad", 0x138, [], 0, 0, 0, 0, 0, .counter, [], []⟩]

/-- Every register row of BRG. -/
def regsBrg : List RegRow := regsBrg1 ++ regsBrg2

/-- Register rows of CFG, part 1. -/
def regsCfg1 : List RegRow := [
  ⟨"CFG_IRQ_STATUS", 0, [], 0, 0, 0, 0x3F, 0, .stored, [], []⟩,
  ⟨"CFG_IRQ_ENABLE", 4, [], 0, 0x3F, 0, 0, 0, .stored, [], []⟩,
  ⟨"CFG_ERR_CAPTURE", 8, [], 0, 0, 0, 0, 0, .stored, [], []⟩,
  ⟨"CFG_ERR_CLR", 0xC, [], 0, 0, 0, 0, 0, .writeOnly, [], []⟩,
  ⟨"CFG_CMD", 0x10, [], 0, 0, 0, 0, 0x3F, .stored, [], []⟩,
  ⟨"CFG_STATUS", 0x14, [], 0x10, 0, 0, 0, 0, .derived, [], []⟩,
  ⟨"CFG_IMG_ADDR_LO", 0x18, [], 0, 0xFFFFFFC0, 0, 0, 0, .stored, [], []⟩,
  ⟨"CFG_IMG_ADDR_HI", 0x1C, [], 0, 0xFFFFFFFF, 0, 0, 0, .stored, [], []⟩,
  ⟨"CFG_ACT_CFG", 0x20, [], 0, 1, 0, 0, 0, .stored, [], []⟩,
  ⟨"CFG_ACT_CYCLE_LO", 0x24, [], 0, 0xFFFFFFFF, 0, 0, 0, .stored, [], []⟩,
  ⟨"CFG_ACT_CYCLE_HI", 0x28, [], 0, 0xFFFFFFFF, 0, 0, 0, .stored, [], []⟩,
  ⟨"CFG_CHECK", 0x2C, [], 0, 0, 0, 0, 0, .stored, [], []⟩,
  ⟨"CFG_VER_A", 0x30, [], 0, 0, 0, 0, 0, .derived, [], []⟩,
  ⟨"CFG_VER_B", 0x34, [], 0, 0, 0, 0, 0, .derived, [], []⟩,
  ⟨"CFG_FLOOR", 0x38, [], 0, 0, 0, 0, 0, .derived, [], []⟩,
  ⟨"CFG_ACT_LT_LO", 0x40, [], 0, 0, 0, 0, 0, .stored, [], []⟩,
  ⟨"CFG_ACT_LT_HI", 0x44, [], 0, 0, 0, 0, 0, .stored, [], []⟩,
  ⟨"CFG_PEND_LO", 0x48, [], 0, 0, 0, 0, 0, .derived, [], []⟩,
  ⟨"CFG_PEND_HI", 0x4C, [], 0, 0, 0, 0, 0, .derived, [], []⟩,
  ⟨"CFG_FW_CMD", 0x100, [], 0, 0, 0, 0, 3, .stored, [], []⟩]

/-- Register rows of CFG, part 2. -/
def regsCfg2 : List RegRow := [
  ⟨"CFG_FW_ADDR_LO", 0x104, [], 0, 0xFFFFFFC0, 0, 0, 0, .stored, [], []⟩,
  ⟨"CFG_FW_ADDR_HI", 0x108, [], 0, 0xFFFFFFFF, 0, 0, 0, .stored, [], []⟩,
  ⟨"CFG_FW_STATUS", 0x10C, [], 0, 0, 0, 0, 0, .stored, [], []⟩,
  ⟨"CFG_BOOT_STATUS", 0x200, [], 0, 0, 0, 0, 0, .stored, [], []⟩,
  ⟨"CFG_BOOT_CMD", 0x204, [], 0, 0, 0, 0, 1, .stored, [], []⟩,
  ⟨"CFG_TRIAD_GO", 0x208, [], 0, 0, 0, 0, 1, .stored, [], []⟩,
  ⟨"loads", 0x300, [], 0, 0, 0, 0, 0, .counter, [], []⟩,
  ⟨"load_fail", 0x308, [], 0, 0, 0, 0, 0, .counter, [], []⟩,
  ⟨"activations", 0x310, [], 0, 0, 0, 0, 0, .counter, [], []⟩,
  ⟨"rollbacks", 0x318, [], 0, 0, 0, 0, 0, .counter, [], []⟩,
  ⟨"fw_restarts", 0x320, [], 0, 0, 0, 0, 0, .counter, [], []⟩]

/-- Every register row of CFG. -/
def regsCfg : List RegRow := regsCfg1 ++ regsCfg2

/-- Register rows of DBG, part 1. -/
def regsDbg1 : List RegRow := [
  ⟨"DBG_IRQ_STATUS", 0, [], 0, 0, 0, 0x1F, 0, .stored, [], []⟩,
  ⟨"DBG_IRQ_ENABLE", 4, [], 0, 0x1F, 0, 0, 0, .stored, [], []⟩,
  ⟨"DBG_ERR_CAPTURE", 8, [], 0, 0, 0, 0, 0, .stored, [], []⟩,
  ⟨"DBG_ERR_CLR", 0xC, [], 0, 0, 0, 0, 0, .writeOnly, [], []⟩,
  ⟨"DBG_LC_STATUS", 0x10, [], 0, 0, 0, 0, 0, .derived, [], []⟩,
  ⟨"DBG_LC_CMD", 0x14, [], 0, 0, 0, 0, 7, .stored, [], []⟩,
  ⟨"DBG_AUTH_ADDR_LO", 0x18, [], 0, 0xFFFFFFC0, 0, 0, 0, .stored, [], []⟩,
  ⟨"DBG_AUTH_ADDR_HI", 0x1C, [], 0, 0xFFFFFFFF, 0, 0, 0, .stored, [], []⟩,
  ⟨"DBG_AUTH_STATUS", 0x20, [], 0, 0, 0, 0, 0, .stored, [], []⟩,
  ⟨"DBG_SESSION_LEFT", 0x24, [], 0, 0, 0, 0, 0, .derived, [], []⟩,
  ⟨"DBG_SESSION_NUM", 0x28, [], 0, 0, 0, 0, 0, .stored, [], []⟩,
  ⟨"DBG_NONCE", 0x40, [(8, 4)], 0, 0, 0, 0, 0, .derived, [], []⟩,
  ⟨"tokens_ok", 0x100, [], 0, 0, 0, 0, 0, .counter, [], []⟩,
  ⟨"tokens_refused", 0x108, [], 0, 0, 0, 0, 0, .counter, [], []⟩,
  ⟨"sessions", 0x110, [], 0, 0, 0, 0, 0, .counter, [], []⟩,
  ⟨"splits", 0x118, [], 0, 0, 0, 0, 0, .counter, [], []⟩]

/-- Every register row of DBG. -/
def regsDbg : List RegRow := regsDbg1

/-- The register rows of a block. -/
def Blk.rows : Blk → List RegRow
  | .glb => regsGlb
  | .pwr => regsPwr
  | .hif => regsHif
  | .dma => regsDma
  | .prs => regsPrs
  | .tm => regsTm
  | .gate => regsGate
  | .mac => regsMac
  | .time => regsTime
  | .mint => regsMint
  | .vault => regsVault
  | .can => regsCan
  | .lin => regsLin
  | .sge => regsSge
  | .ledger => regsLedger
  | .pair => regsPair
  | .safe => regsSafe
  | .brg => regsBrg
  | .cfg => regsCfg
  | .dbg => regsDbg

/-- The indices that offset `o` names within repetitions `dims`, if it names one exactly. -/
def dimIndex : List (Nat × Nat) → Nat → Option (List Nat)
  | [], o => if o = 0 then some [] else none
  | (n, s) :: r, o => if o / s < n then (dimIndex r (o % s)).map (o / s :: ·) else none

/-- Like `dimIndex`, for a 64-bit counter: the last index is 0 for the low word and 1 for the high word (R837). -/
def RegRow.index (r : RegRow) (o : Nat) : Option (List Nat) :=
  if o < r.off then none
  else dimIndex (if r.kind = .counter then r.dims ++ [(2, 4)] else r.dims) (o - r.off)

/-- The first row of a list that holds offset `o`, with the indices. -/
def findRow : List RegRow → Nat → Option (RegRow × List Nat)
  | [], _ => none
  | r :: rs, o =>
    match r.index o with
    | some ix => some (r, ix)
    | none => findRow rs o

/-- The block that claims an address (R614, R802). -/
def blkOf (addr : Nat) : Option Blk :=
  Blk.all.find? fun b => decide (b.base ≤ addr) && decide (addr < b.base + b.size)

/-- The register row at an address, with its block and indices. -/
def regRow (addr : Nat) : Option (Blk × RegRow × List Nat) :=
  match blkOf addr with
  | none => none
  | some b => (findRow b.rows (addr - b.base)).map fun p => (b, p.1, p.2)

/-- The reset value of a row at given indices. -/
def RegRow.resetAt (r : RegRow) (ix : List Nat) : Nat :=
  let i := ix.headD 0
  match r.alt.find? fun a => decide (a.1 ≤ i) && decide (i ≤ a.2.1) with
  | some a => a.2.2
  | none => r.reset

/-- The reset value of the word at an address: the register file lists only words that differ from it. Reserved offsets
read 0 (R614). -/
def resetWord (addr : Nat) : Word :=
  match regRow addr with
  | some (_, r, ix) => BitVec.ofNat 32 (r.resetAt ix)
  | none => 0

end Sys2Proof.Machine
end

