-- ==== Sys2Proof/Machine/Addr.lean ====
section
/-! DEFINITION. The address of every register by its manual name, from the same tables as `RegMap`; a repeated register takes its
indices, outermost first. A 64-bit counter is named by its low word. -/

namespace Sys2Proof.Machine

/-- Address of `MAC_IRQ_STATUS` (spec/02 R71). -/
def A.MAC_IRQ_STATUS : Nat := 0x40800000
/-- Address of `MAC_IRQ_ENABLE` (spec/02 R71). -/
def A.MAC_IRQ_ENABLE : Nat := 0x40800004
/-- Address of `MAC_ERR_CAPTURE` (spec/00 R836, 02 R71). -/
def A.MAC_ERR_CAPTURE : Nat := 0x40800008
/-- Address of `MAC_ERR_CLR` (spec/00 R836). -/
def A.MAC_ERR_CLR : Nat := 0x4080000C
/-- Address of `MAC_PCFG` (spec/02 R40,R59). -/
def A.MAC_PCFG (i : Nat) : Nat := 0x40801000 + i * 0x400
/-- Address of `MAC_PFRAME` (spec/02 R52). -/
def A.MAC_PFRAME (i : Nat) : Nat := 0x40801004 + i * 0x400
/-- Address of `MAC_PLINK` (spec/02 R63). -/
def A.MAC_PLINK (i : Nat) : Nat := 0x40801008 + i * 0x400
/-- Address of `MAC_PSTATUS` (spec/02 R64). -/
def A.MAC_PSTATUS (i : Nat) : Nat := 0x4080100C + i * 0x400
/-- Address of `MAC_PEVENT` (spec/02 R38-R66). -/
def A.MAC_PEVENT (i : Nat) : Nat := 0x40801010 + i * 0x400
/-- Address of `MAC_PEVENT_EN` (spec/02 R838). -/
def A.MAC_PEVENT_EN (i : Nat) : Nat := 0x40801014 + i * 0x400
/-- Address of `MAC_PTS_CORR` (spec/02 R60,R61). -/
def A.MAC_PTS_CORR (i : Nat) : Nat := 0x40801018 + i * 0x400
/-- Address of `MAC_PSD_CFG` (spec/02 R39,R69). -/
def A.MAC_PSD_CFG (i : Nat) : Nat := 0x40801020 + i * 0x400
/-- Address of `MAC_PPRBS_CFG` (spec/02 R66). -/
def A.MAC_PPRBS_CFG (i : Nat) : Nat := 0x40801024 + i * 0x400
/-- Address of `MAC_PPRBS_ERR` (spec/02 R66). -/
def A.MAC_PPRBS_ERR (i : Nat) : Nat := 0x40801028 + i * 0x400
/-- Address of `MAC_PT1_CFG` (spec/02 R41-R47,R69). -/
def A.MAC_PT1_CFG (i : Nat) : Nat := 0x40801030 + i * 0x400
/-- Address of `MAC_PT1_STATUS` (spec/02 R43-R48). -/
def A.MAC_PT1_STATUS (i : Nat) : Nat := 0x40801034 + i * 0x400
/-- Address of `MAC_PT1_CTRL` (spec/02 R43,R45). -/
def A.MAC_PT1_CTRL (i : Nat) : Nat := 0x40801038 + i * 0x400
/-- Address of `MAC_PPLCA_CFG` (spec/02 R49,R69). -/
def A.MAC_PPLCA_CFG (i : Nat) : Nat := 0x40801040 + i * 0x400
/-- Address of `MAC_PPLCA_STATUS` (spec/02 R50). -/
def A.MAC_PPLCA_STATUS (i : Nat) : Nat := 0x40801044 + i * 0x400
/-- Address of `MAC_PCNT_CLR` (spec/02 R68). -/
def A.MAC_PCNT_CLR (i : Nat) : Nat := 0x408010FC + i * 0x400
/-- Address of `rx_frames` (spec/02 R68). -/
def A.rx_frames (i : Nat) : Nat := 0x40801100 + i * 0x400
/-- Address of `rx_octets` (spec/02 R68). -/
def A.rx_octets (i : Nat) : Nat := 0x40801108 + i * 0x400
/-- Address of `rx_fcs_err` (spec/02 R68). -/
def A.rx_fcs_err (i : Nat) : Nat := 0x40801110 + i * 0x400
/-- Address of `rx_runt` (spec/02 R68). -/
def A.rx_runt (i : Nat) : Nat := 0x40801118 + i * 0x400
/-- Address of `rx_oversize` (spec/02 R68). -/
def A.rx_oversize (i : Nat) : Nat := 0x40801120 + i * 0x400
/-- Address of `rx_symbol_err` (spec/02 R68). -/
def A.rx_symbol_err (i : Nat) : Nat := 0x40801128 + i * 0x400
/-- Address of `rx_mac_ctrl` (spec/02 R68). -/
def A.rx_mac_ctrl (i : Nat) : Nat := 0x40801130 + i * 0x400
/-- Address of `rx_truncated` (spec/02 R68). -/
def A.rx_truncated (i : Nat) : Nat := 0x40801138 + i * 0x400
/-- Address of `tx_frames` (spec/02 R68). -/
def A.tx_frames (i : Nat) : Nat := 0x40801140 + i * 0x400
/-- Address of `tx_octets` (spec/02 R68). -/
def A.tx_octets (i : Nat) : Nat := 0x40801148 + i * 0x400
/-- Address of `tx_stomped` (spec/02 R68). -/
def A.tx_stomped (i : Nat) : Nat := 0x40801150 + i * 0x400
/-- Address of `tx_oversize` (spec/02 R68). -/
def A.tx_oversize (i : Nat) : Nat := 0x40801158 + i * 0x400
/-- Address of `link_down` (spec/02 R68). -/
def A.link_down (i : Nat) : Nat := 0x40801160 + i * 0x400
/-- Address of `warm_ok` (spec/02 R68). -/
def A.warm_ok (i : Nat) : Nat := 0x40801168 + i * 0x400
/-- Address of `warm_fallback` (spec/02 R68). -/
def A.warm_fallback (i : Nat) : Nat := 0x40801170 + i * 0x400
/-- Address of `plca_lost` (spec/02 R68). -/
def A.plca_lost (i : Nat) : Nat := 0x40801178 + i * 0x400
/-- Address of `MACSEC_TXSC_SCI_LO` (spec/09 R399). -/
def A.MACSEC_TXSC_SCI_LO (i : Nat) : Nat := 0x40900000 + i * 0x100
/-- Address of `MACSEC_TXSC_SCI_HI` (spec/09 R399). -/
def A.MACSEC_TXSC_SCI_HI (i : Nat) : Nat := 0x40900004 + i * 0x100
/-- Address of `MACSEC_TXSC_CFG` (spec/09 R399). -/
def A.MACSEC_TXSC_CFG (i : Nat) : Nat := 0x40900008 + i * 0x100
/-- Address of `MACSEC_TXSC_WARN` (spec/09 R388,R397). -/
def A.MACSEC_TXSC_WARN (i : Nat) : Nat := 0x4090000C + i * 0x100
/-- Address of `MACSEC_TXSC_SA` (spec/09 R386,R388). -/
def A.MACSEC_TXSC_SA (i j : Nat) : Nat := 0x40900020 + i * 0x100 + j * 0x20
/-- Address of `MACSEC_TXSC_SA_PN_LO` (spec/09 R389). -/
def A.MACSEC_TXSC_SA_PN_LO (i j : Nat) : Nat := 0x40900024 + i * 0x100 + j * 0x20
/-- Address of `MACSEC_TXSC_SA_PN_HI` (spec/09 R389). -/
def A.MACSEC_TXSC_SA_PN_HI (i j : Nat) : Nat := 0x40900028 + i * 0x100 + j * 0x20
/-- Address of `MACSEC_TXSC_SA_SSCI` (spec/09 R399). -/
def A.MACSEC_TXSC_SA_SSCI (i j : Nat) : Nat := 0x4090002C + i * 0x100 + j * 0x20
/-- Address of `MACSEC_TXSC_SA_SALT` (spec/09 R399). -/
def A.MACSEC_TXSC_SA_SALT (i j k : Nat) : Nat := 0x40900030 + i * 0x100 + j * 0x20 + k * 0x4
/-- Address of `MACSEC_RXSC_SCI_LO` (spec/09 R399). -/
def A.MACSEC_RXSC_SCI_LO (i j : Nat) : Nat := 0x40902000 + i * 0x400 + j * 0x100
/-- Address of `MACSEC_RXSC_SCI_HI` (spec/09 R399). -/
def A.MACSEC_RXSC_SCI_HI (i j : Nat) : Nat := 0x40902004 + i * 0x400 + j * 0x100
/-- Address of `MACSEC_RXSC_CFG` (spec/09 R399). -/
def A.MACSEC_RXSC_CFG (i j : Nat) : Nat := 0x40902008 + i * 0x400 + j * 0x100
/-- Address of `MACSEC_RXSC_WARN` (spec/09 R388,R397). -/
def A.MACSEC_RXSC_WARN (i j : Nat) : Nat := 0x4090200C + i * 0x400 + j * 0x100
/-- Address of `MACSEC_RXSC_SA` (spec/09 R386,R388). -/
def A.MACSEC_RXSC_SA (i j k : Nat) : Nat := 0x40902020 + i * 0x400 + j * 0x100 + k * 0x20
/-- Address of `MACSEC_RXSC_SA_PN_LO` (spec/09 R389). -/
def A.MACSEC_RXSC_SA_PN_LO (i j k : Nat) : Nat := 0x40902024 + i * 0x400 + j * 0x100 + k * 0x20
/-- Address of `MACSEC_RXSC_SA_PN_HI` (spec/09 R389). -/
def A.MACSEC_RXSC_SA_PN_HI (i j k : Nat) : Nat := 0x40902028 + i * 0x400 + j * 0x100 + k * 0x20
/-- Address of `MACSEC_RXSC_SA_SSCI` (spec/09 R399). -/
def A.MACSEC_RXSC_SA_SSCI (i j k : Nat) : Nat := 0x4090202C + i * 0x400 + j * 0x100 + k * 0x20
/-- Address of `MACSEC_RXSC_SA_SALT` (spec/09 R399). -/
def A.MACSEC_RXSC_SA_SALT (i j k l : Nat) : Nat := 0x40902030 + i * 0x400 + j * 0x100 + k * 0x20 + l * 0x4
/-- Address of `out_protected` (spec/09 R399). -/
def A.out_protected (i : Nat) : Nat := 0x40908000 + i * 0x80
/-- Address of `out_pn_exhausted` (spec/09 R399). -/
def A.out_pn_exhausted (i : Nat) : Nat := 0x40908008 + i * 0x80
/-- Address of `out_mint_drop` (spec/09 R399). -/
def A.out_mint_drop (i : Nat) : Nat := 0x40908010 + i * 0x80
/-- Address of `in_ok` (spec/09 R399). -/
def A.in_ok (i : Nat) : Nat := 0x40908018 + i * 0x80
/-- Address of `in_not_valid` (spec/09 R399). -/
def A.in_not_valid (i : Nat) : Nat := 0x40908020 + i * 0x80
/-- Address of `in_late` (spec/09 R399). -/
def A.in_late (i : Nat) : Nat := 0x40908028 + i * 0x80
/-- Address of `in_no_sa` (spec/09 R399). -/
def A.in_no_sa (i : Nat) : Nat := 0x40908030 + i * 0x80
/-- Address of `in_no_tag` (spec/09 R399). -/
def A.in_no_tag (i : Nat) : Nat := 0x40908038 + i * 0x80
/-- Address of `in_mint_drop` (spec/09 R399). -/
def A.in_mint_drop (i : Nat) : Nat := 0x40908040 + i * 0x80
/-- Address of `PRS_IRQ_STATUS` (spec/04 R185). -/
def A.PRS_IRQ_STATUS : Nat := 0x40400000
/-- Address of `PRS_IRQ_ENABLE` (spec/04 R185). -/
def A.PRS_IRQ_ENABLE : Nat := 0x40400004
/-- Address of `PRS_ERR_CAPTURE` (spec/00 R836, 04 R185). -/
def A.PRS_ERR_CAPTURE : Nat := 0x40400008
/-- Address of `PRS_ERR_CLR` (spec/00 R836). -/
def A.PRS_ERR_CLR : Nat := 0x4040000C
/-- Address of `PRS_PARSE_CFG` (spec/04 R121). -/
def A.PRS_PARSE_CFG : Nat := 0x40400010
/-- Address of `PRS_SOMEIP_PORTS0` (spec/04 R842). -/
def A.PRS_SOMEIP_PORTS0 : Nat := 0x40400014
/-- Address of `PRS_SOMEIP_PORTS1` (spec/04 R842). -/
def A.PRS_SOMEIP_PORTS1 : Nat := 0x40400018
/-- Address of `PRS_TBL_CMD` (spec/04 R172). -/
def A.PRS_TBL_CMD : Nat := 0x40400020
/-- Address of `PRS_TBL_INDEX` (spec/04 R172). -/
def A.PRS_TBL_INDEX : Nat := 0x40400024
/-- Address of `PRS_TBL_STATUS` (spec/04 R844). -/
def A.PRS_TBL_STATUS : Nat := 0x40400028
/-- Address of `PRS_TBL_DATA` (spec/04 R172). -/
def A.PRS_TBL_DATA (i : Nat) : Nat := 0x40400040 + i * 0x4
/-- Address of `PRS_MIRROR` (spec/04 R142). -/
def A.PRS_MIRROR (i : Nat) : Nat := 0x40400100 + i * 0x4
/-- Address of `PRS_CNT_S0_MISS` (spec/04 R147,R139,R140,R129,R128,R180). -/
def A.PRS_CNT_S0_MISS : Nat := 0x40400200
/-- Address of `PRS_CNT_NO_DEST` (spec/04 R147,R139,R140,R129,R128,R180). -/
def A.PRS_CNT_NO_DEST : Nat := 0x40400208
/-- Address of `PRS_CNT_ZONE_REFUSED` (spec/04 R147,R139,R140,R129,R128,R180). -/
def A.PRS_CNT_ZONE_REFUSED : Nat := 0x40400210
/-- Address of `PRS_CNT_MALFORMED` (spec/04 R147,R139,R140,R129,R128,R180). -/
def A.PRS_CNT_MALFORMED : Nat := 0x40400218
/-- Address of `PRS_CNT_TRUNC_PARSE` (spec/04 R147,R139,R140,R129,R128,R180). -/
def A.PRS_CNT_TRUNC_PARSE : Nat := 0x40400220
/-- Address of `PRS_CNT_TBL_ECC` (spec/04 R147,R139,R140,R129,R128,R180). -/
def A.PRS_CNT_TBL_ECC : Nat := 0x40400228
/-- Address of `PRS_PORT_CFG` (spec/04 R147). -/
def A.PRS_PORT_CFG (i : Nat) : Nat := 0x40401000 + i * 0x10
/-- Address of `PRS_PORT_PCP2TC` (spec/04 R136). -/
def A.PRS_PORT_PCP2TC (i : Nat) : Nat := 0x40401004 + i * 0x10
/-- Address of `PRS_COUNTER` (spec/04 R184). -/
def A.PRS_COUNTER (i : Nat) : Nat := 0x40480000 + i * 0x8
/-- Address of `PRS_CT_EN` (spec/03 R78). -/
def A.PRS_CT_EN : Nat := 0x40420000
/-- Address of `PRS_HASH_CFG` (spec/03 R89). -/
def A.PRS_HASH_CFG : Nat := 0x40420004
/-- Address of `PRS_HASH_SEED` (spec/03 R90). -/
def A.PRS_HASH_SEED : Nat := 0x40420008
/-- Address of `PRS_LANE_CFG` (spec/03 R101,R841). -/
def A.PRS_LANE_CFG : Nat := 0x40420010
/-- Address of `PRS_FLOWLET_GAP` (spec/03 R119). -/
def A.PRS_FLOWLET_GAP : Nat := 0x40420014
/-- Address of `PRS_LANE_RETURN` (spec/03 R105). -/
def A.PRS_LANE_RETURN : Nat := 0x40420018
/-- Address of `PRS_LANE_CTRL` (spec/03 R106). -/
def A.PRS_LANE_CTRL : Nat := 0x4042001C
/-- Address of `PRS_LANE_STATUS` (spec/03 R99). -/
def A.PRS_LANE_STATUS : Nat := 0x40420020
/-- Address of `PRS_LANE_OCC` (spec/03 R75). -/
def A.PRS_LANE_OCC : Nat := 0x40420024
/-- Address of `PRS_LANE_EVENT` (spec/03 R99). -/
def A.PRS_LANE_EVENT : Nat := 0x40420028
/-- Address of `PRS_LANE_EVENT_EN` (spec/03 R838). -/
def A.PRS_LANE_EVENT_EN : Nat := 0x4042002C
/-- Address of `PRS_CNT_CT_UNDERRUN` (spec/03 R87,R85). -/
def A.PRS_CNT_CT_UNDERRUN : Nat := 0x40420040
/-- Address of `PRS_CNT_CT_OVERLEN` (spec/03 R87,R85). -/
def A.PRS_CNT_CT_OVERLEN : Nat := 0x40420048
/-- Address of `heads` (spec/03 R76,R104). -/
def A.heads (i : Nat) : Nat := 0x40420100 + i * 0x40
/-- Address of `head_drop` (spec/03 R76,R104). -/
def A.head_drop (i : Nat) : Nat := 0x40420108 + i * 0x40
/-- Address of `moved_out` (spec/03 R76,R104). -/
def A.moved_out (i : Nat) : Nat := 0x40420110 + i * 0x40
/-- Address of `pinned_frames` (spec/03 R76,R104). -/
def A.pinned_frames (i : Nat) : Nat := 0x40420118 + i * 0x40
/-- Address of `PRS_LAG_CFG` (spec/03 R109). -/
def A.PRS_LAG_CFG (i : Nat) : Nat := 0x40420200 + i * 0x10
/-- Address of `PRS_LAG_ACTIVE` (spec/03 R111). -/
def A.PRS_LAG_ACTIVE (i : Nat) : Nat := 0x40420204 + i * 0x10
/-- Address of `PRS_LAG_STATUS` (spec/03 R112). -/
def A.PRS_LAG_STATUS (i : Nat) : Nat := 0x40420208 + i * 0x10
/-- Address of `PRS_BUCKET` (spec/03 R92). -/
def A.PRS_BUCKET (i : Nat) : Nat := 0x40424000 + i * 0x4
/-- Address of `PRS_FW_CFG` (spec/05 R195,R201,R207). -/
def A.PRS_FW_CFG : Nat := 0x40430000
/-- Address of `PRS_FW_EVENT` (spec/05 R192). -/
def A.PRS_FW_EVENT : Nat := 0x40430004
/-- Address of `PRS_FW_EVENT_EN` (spec/05 R838). -/
def A.PRS_FW_EVENT_EN : Nat := 0x40430008
/-- Address of `PRS_FW_LOG` (spec/05 R219). -/
def A.PRS_FW_LOG : Nat := 0x4043000C
/-- Address of `PRS_FW_PORT_ZONE` (spec/05 R186). -/
def A.PRS_FW_PORT_ZONE (i : Nat) : Nat := 0x40430010 + i * 0x4
/-- Address of `PRS_FW_CAN_ZONE` (spec/05 R186). -/
def A.PRS_FW_CAN_ZONE (i : Nat) : Nat := 0x40430020 + i * 0x4
/-- Address of `PRS_FW_LIN_ZONE` (spec/05 R186). -/
def A.PRS_FW_LIN_ZONE : Nat := 0x40430028
/-- Address of `PRS_CT_TMO_TCP0` (spec/05 R206). -/
def A.PRS_CT_TMO_TCP0 : Nat := 0x40430040
/-- Address of `PRS_CT_TMO_TCP1` (spec/05 R206). -/
def A.PRS_CT_TMO_TCP1 : Nat := 0x40430044
/-- Address of `PRS_CT_TMO_UDP` (spec/05 R206). -/
def A.PRS_CT_TMO_UDP : Nat := 0x40430048
/-- Address of `PRS_CT_TMO_GEN` (spec/05 R206). -/
def A.PRS_CT_TMO_GEN : Nat := 0x4043004C
/-- Address of `PRS_CT_CMD` (spec/05 R212). -/
def A.PRS_CT_CMD : Nat := 0x40430060
/-- Address of `PRS_CT_INDEX` (spec/05 R212). -/
def A.PRS_CT_INDEX : Nat := 0x40430064
/-- Address of `PRS_CT_STATUS` (spec/05 R212). -/
def A.PRS_CT_STATUS : Nat := 0x40430068
/-- Address of `PRS_CT_COUNT` (spec/05 R209). -/
def A.PRS_CT_COUNT : Nat := 0x4043006C
/-- Address of `PRS_CT_DATA` (spec/05 R212). -/
def A.PRS_CT_DATA (i : Nat) : Nat := 0x40430080 + i * 0x4
/-- Address of `PRS_FW_MATRIX_LO` (spec/05 R188). -/
def A.PRS_FW_MATRIX_LO (i : Nat) : Nat := 0x40430100 + i * 0x8
/-- Address of `PRS_FW_MATRIX_HI` (spec/05 R188). -/
def A.PRS_FW_MATRIX_HI (i : Nat) : Nat := 0x40430104 + i * 0x8
/-- Address of `PRS_CNT_FW_DENY` (spec/05 R192,R208,R207,R209,R200,R217,R219). -/
def A.PRS_CNT_FW_DENY : Nat := 0x40430200
/-- Address of `PRS_CNT_CT_DENY` (spec/05 R192,R208,R207,R209,R200,R217,R219). -/
def A.PRS_CNT_CT_DENY : Nat := 0x40430208
/-- Address of `PRS_CNT_CT_FULL` (spec/05 R192,R208,R207,R209,R200,R217,R219). -/
def A.PRS_CNT_CT_FULL : Nat := 0x40430210
/-- Address of `PRS_CNT_CT_EVICT` (spec/05 R192,R208,R207,R209,R200,R217,R219). -/
def A.PRS_CNT_CT_EVICT : Nat := 0x40430218
/-- Address of `PRS_CNT_CT_EXPIRED` (spec/05 R192,R208,R207,R209,R200,R217,R219). -/
def A.PRS_CNT_CT_EXPIRED : Nat := 0x40430220
/-- Address of `PRS_CNT_CT_REVOKED` (spec/05 R192,R208,R207,R209,R200,R217,R219). -/
def A.PRS_CNT_CT_REVOKED : Nat := 0x40430228
/-- Address of `PRS_CNT_CAN_DENY` (spec/05 R192,R208,R207,R209,R200,R217,R219). -/
def A.PRS_CNT_CAN_DENY : Nat := 0x40430230
/-- Address of `PRS_CNT_LOG_LOST` (spec/05 R192,R208,R207,R209,R200,R217,R219). -/
def A.PRS_CNT_LOG_LOST : Nat := 0x40430238
/-- Address of `PRS_FW_CANRULE` (spec/05 R216). -/
def A.PRS_FW_CANRULE (i : Nat) : Nat := 0x40431000 + i * 0x10
/-- Address of `PRS_FW_CANRULE_IDLO` (spec/05 R216). -/
def A.PRS_FW_CANRULE_IDLO (i : Nat) : Nat := 0x40431004 + i * 0x10
/-- Address of `PRS_FW_CANRULE_IDHI` (spec/05 R216). -/
def A.PRS_FW_CANRULE_IDHI (i : Nat) : Nat := 0x40431008 + i * 0x10
/-- Address of `PRS_FW_CANRULE_W3` (spec/05 R216). -/
def A.PRS_FW_CANRULE_W3 (i : Nat) : Nat := 0x4043100C + i * 0x10
/-- Address of `TM_IRQ_STATUS` (spec/06 R263). -/
def A.TM_IRQ_STATUS : Nat := 0x40600000
/-- Address of `TM_IRQ_ENABLE` (spec/06 R263). -/
def A.TM_IRQ_ENABLE : Nat := 0x40600004
/-- Address of `TM_ERR_CAPTURE` (spec/00 R836, 06 R263). -/
def A.TM_ERR_CAPTURE : Nat := 0x40600008
/-- Address of `TM_ERR_CLR` (spec/00 R836). -/
def A.TM_ERR_CLR : Nat := 0x4060000C
/-- Address of `TM_BUF_CFG` (spec/06 R231). -/
def A.TM_BUF_CFG : Nat := 0x40600010
/-- Address of `TM_MC_RESIDUE_AGE` (spec/06 R251). -/
def A.TM_MC_RESIDUE_AGE : Nat := 0x40600014
/-- Address of `TM_LOG` (spec/06 R259). -/
def A.TM_LOG : Nat := 0x40600018
/-- Address of `TM_FREE_CELLS` (spec/06 R230-R235). -/
def A.TM_FREE_CELLS : Nat := 0x40600020
/-- Address of `TM_POOL_SIZE` (spec/06 R230-R235). -/
def A.TM_POOL_SIZE : Nat := 0x40600024
/-- Address of `TM_POOL_USED` (spec/06 R230-R235). -/
def A.TM_POOL_USED : Nat := 0x40600028
/-- Address of `TM_HDRM_USED` (spec/06 R230-R235). -/
def A.TM_HDRM_USED : Nat := 0x4060002C
/-- Address of `TM_BUF_RETIRED` (spec/06 R230-R235). -/
def A.TM_BUF_RETIRED : Nat := 0x40600030
/-- Address of `TM_SCRUB_PASSES` (spec/06 R225). -/
def A.TM_SCRUB_PASSES : Nat := 0x40600034
/-- Address of `TM_CNT_ECC_CORR` (spec/06 R223,R224,R259). -/
def A.TM_CNT_ECC_CORR : Nat := 0x40600040
/-- Address of `TM_CNT_ECC_UNCORR` (spec/06 R223,R224,R259). -/
def A.TM_CNT_ECC_UNCORR : Nat := 0x40600048
/-- Address of `TM_CNT_LOG_LOST` (spec/06 R223,R224,R259). -/
def A.TM_CNT_LOG_LOST : Nat := 0x40600050
/-- Address of `TM_PORT_HOLD` (spec/06 R253). -/
def A.TM_PORT_HOLD (i : Nat) : Nat := 0x40601000 + i * 0x10
/-- Address of `TM_PORT_STATE` (spec/06 R253). -/
def A.TM_PORT_STATE (i : Nat) : Nat := 0x40601004 + i * 0x10
/-- Address of `TM_PORT_CMD` (spec/06 R258). -/
def A.TM_PORT_CMD (i : Nat) : Nat := 0x40601008 + i * 0x10
/-- Address of `hdrm_drop` (spec/06 R233,R250,R224). -/
def A.hdrm_drop (i : Nat) : Nat := 0x40602000 + i * 0x20
/-- Address of `mc_abandoned` (spec/06 R233,R250,R224). -/
def A.mc_abandoned (i : Nat) : Nat := 0x40602008 + i * 0x20
/-- Address of `ecc_discard` (spec/06 R233,R250,R224). -/
def A.ecc_discard (i : Nat) : Nat := 0x40602010 + i * 0x20
/-- Address of `TM_Q_CFG` (spec/06 R238,R240). -/
def A.TM_Q_CFG (i : Nat) : Nat := 0x40604000 + i * 0x10
/-- Address of `TM_Q_THR` (spec/06 R237,R242). -/
def A.TM_Q_THR (i : Nat) : Nat := 0x40604004 + i * 0x10
/-- Address of `TM_Q_RES` (spec/06 R245). -/
def A.TM_Q_RES (i : Nat) : Nat := 0x40604008 + i * 0x10
/-- Address of `TM_Q_OCC` (spec/06 R236). -/
def A.TM_Q_OCC (i : Nat) : Nat := 0x4060400C + i * 0x10
/-- Address of `enq` (spec/06 R237-R261). -/
def A.enq (i : Nat) : Nat := 0x40610000 + i * 0x40
/-- Address of `ecn_marked` (spec/06 R237-R261). -/
def A.ecn_marked (i : Nat) : Nat := 0x40610008 + i * 0x40
/-- Address of `would_mark` (spec/06 R237-R261). -/
def A.would_mark (i : Nat) : Nat := 0x40610010 + i * 0x40
/-- Address of `drop_thr` (spec/06 R237-R261). -/
def A.drop_thr (i : Nat) : Nat := 0x40610018 + i * 0x40
/-- Address of `drop_noroom` (spec/06 R237-R261). -/
def A.drop_noroom (i : Nat) : Nat := 0x40610020 + i * 0x40
/-- Address of `drop_aged` (spec/06 R237-R261). -/
def A.drop_aged (i : Nat) : Nat := 0x40610028 + i * 0x40
/-- Address of `drop_down` (spec/06 R237-R261). -/
def A.drop_down (i : Nat) : Nat := 0x40610030 + i * 0x40
/-- Address of `flushed` (spec/06 R237-R261). -/
def A.flushed (i : Nat) : Nat := 0x40610038 + i * 0x40
/-- Address of `TM_SCH_PORT_CFG` (spec/07 R275,R278). -/
def A.TM_SCH_PORT_CFG (i : Nat) : Nat := 0x40620000 + i * 0x100
/-- Address of `TM_PURSE_CFG` (spec/07 R288-R290). -/
def A.TM_PURSE_CFG (i : Nat) : Nat := 0x40620004 + i * 0x100
/-- Address of `TM_PURSE_BURST` (spec/07 R290). -/
def A.TM_PURSE_BURST (i : Nat) : Nat := 0x40620008 + i * 0x100
/-- Address of `TM_PURSE_LEVEL` (spec/07 R285). -/
def A.TM_PURSE_LEVEL (i : Nat) : Nat := 0x4062000C + i * 0x100
/-- Address of `TM_SCH_PORT_STATUS` (spec/07 R265). -/
def A.TM_SCH_PORT_STATUS (i : Nat) : Nat := 0x40620010 + i * 0x100
/-- Address of `TM_SCH_Q_CFG` (spec/07 R279,R267). -/
def A.TM_SCH_Q_CFG (i j : Nat) : Nat := 0x40620020 + i * 0x100 + j * 0x10
/-- Address of `TM_CBS_CFG` (spec/07 R280,R290). -/
def A.TM_CBS_CFG (i j : Nat) : Nat := 0x40620024 + i * 0x100 + j * 0x10
/-- Address of `TM_CBS_HICREDIT` (spec/07 R290). -/
def A.TM_CBS_HICREDIT (i j : Nat) : Nat := 0x40620028 + i * 0x100 + j * 0x10
/-- Address of `TM_CBS_CREDIT` (spec/07 R285). -/
def A.TM_CBS_CREDIT (i j : Nat) : Nat := 0x4062002C + i * 0x100 + j * 0x10
/-- Address of `TM_SCH_DEFICIT` (spec/07 R276). -/
def A.TM_SCH_DEFICIT (i j : Nat) : Nat := 0x406200A0 + i * 0x100 + j * 0x4
/-- Address of `tx_copies` (spec/07 R299). -/
def A.tx_copies (i : Nat) : Nat := 0x40630000 + i * 0x20
/-- Address of `tx_counted` (spec/07 R299). -/
def A.tx_counted (i : Nat) : Nat := 0x40630008 + i * 0x20
/-- Address of `shaper_held` (spec/07 R299). -/
def A.shaper_held (i : Nat) : Nat := 0x40630010 + i * 0x20
/-- Address of `purse_held` (spec/07 R299). -/
def A.purse_held (i : Nat) : Nat := 0x40630018 + i * 0x20
/-- Address of `GATE_IRQ_STATUS` (spec/08 R345). -/
def A.GATE_IRQ_STATUS : Nat := 0x40700000
/-- Address of `GATE_IRQ_ENABLE` (spec/08 R345). -/
def A.GATE_IRQ_ENABLE : Nat := 0x40700004
/-- Address of `GATE_ERR_CAPTURE` (spec/00 R836, 08 R345). -/
def A.GATE_ERR_CAPTURE : Nat := 0x40700008
/-- Address of `GATE_ERR_CLR` (spec/00 R836). -/
def A.GATE_ERR_CLR : Nat := 0x4070000C
/-- Address of `GATE_PCTL` (spec/08 R313,R317,R318). -/
def A.GATE_PCTL (i : Nat) : Nat := 0x40710000 + i * 0x100
/-- Address of `GATE_ADMIN_BASE_NS` (spec/08 R315). -/
def A.GATE_ADMIN_BASE_NS (i : Nat) : Nat := 0x40710004 + i * 0x100
/-- Address of `GATE_OPER_BASE_NS` (spec/08 R320). -/
def A.GATE_OPER_BASE_NS (i : Nat) : Nat := 0x40710020 + i * 0x100
/-- Address of `GATE_CHANGE_NS` (spec/08 R317). -/
def A.GATE_CHANGE_NS (i : Nat) : Nat := 0x40710038 + i * 0x100
/-- Address of `GATE_ADMIN_BASE_SEC_LO` (spec/08 R315). -/
def A.GATE_ADMIN_BASE_SEC_LO (i : Nat) : Nat := 0x40710008 + i * 0x100
/-- Address of `GATE_OPER_BASE_SEC_LO` (spec/08 R320). -/
def A.GATE_OPER_BASE_SEC_LO (i : Nat) : Nat := 0x40710024 + i * 0x100
/-- Address of `GATE_CHANGE_SEC_LO` (spec/08 R317). -/
def A.GATE_CHANGE_SEC_LO (i : Nat) : Nat := 0x4071003C + i * 0x100
/-- Address of `GATE_ADMIN_BASE_SEC_HI` (spec/08 R315). -/
def A.GATE_ADMIN_BASE_SEC_HI (i : Nat) : Nat := 0x4071000C + i * 0x100
/-- Address of `GATE_OPER_BASE_SEC_HI` (spec/08 R320). -/
def A.GATE_OPER_BASE_SEC_HI (i : Nat) : Nat := 0x40710028 + i * 0x100
/-- Address of `GATE_CHANGE_SEC_HI` (spec/08 R317). -/
def A.GATE_CHANGE_SEC_HI (i : Nat) : Nat := 0x40710040 + i * 0x100
/-- Address of `GATE_ADMIN_CYCLE` (spec/08 R315). -/
def A.GATE_ADMIN_CYCLE (i : Nat) : Nat := 0x40710010 + i * 0x100
/-- Address of `GATE_ADMIN_LEN` (spec/08 R314). -/
def A.GATE_ADMIN_LEN (i : Nat) : Nat := 0x40710014 + i * 0x100
/-- Address of `GATE_ADMIN_EXT` (spec/08 R319). -/
def A.GATE_ADMIN_EXT (i : Nat) : Nat := 0x40710018 + i * 0x100
/-- Address of `GATE_OPER_CYCLE` (spec/08 R320). -/
def A.GATE_OPER_CYCLE (i : Nat) : Nat := 0x4071002C + i * 0x100
/-- Address of `GATE_OPER_LEN` (spec/08 R320). -/
def A.GATE_OPER_LEN (i : Nat) : Nat := 0x40710030 + i * 0x100
/-- Address of `GATE_OPER_EXT` (spec/08 R320). -/
def A.GATE_OPER_EXT (i : Nat) : Nat := 0x40710034 + i * 0x100
/-- Address of `GATE_PSTATUS` (spec/08 R313). -/
def A.GATE_PSTATUS (i : Nat) : Nat := 0x40710044 + i * 0x100
/-- Address of `GATE_GUARD` (spec/08 R323). -/
def A.GATE_GUARD (i : Nat) : Nat := 0x40710048 + i * 0x100
/-- Address of `GATE_TRIM_CFG` (spec/08 R332). -/
def A.GATE_TRIM_CFG (i : Nat) : Nat := 0x4071004C + i * 0x100
/-- Address of `GATE_PRE_CFG` (spec/08 R326,R328). -/
def A.GATE_PRE_CFG (i : Nat) : Nat := 0x40710050 + i * 0x100
/-- Address of `GATE_PRE_ADV` (spec/08 R330). -/
def A.GATE_PRE_ADV (i : Nat) : Nat := 0x40710054 + i * 0x100
/-- Address of `GATE_PRE_STATUS` (spec/08 R326). -/
def A.GATE_PRE_STATUS (i : Nat) : Nat := 0x40710058 + i * 0x100
/-- Address of `GATE_EVENT` (spec/08 R345). -/
def A.GATE_EVENT (i : Nat) : Nat := 0x4071005C + i * 0x100
/-- Address of `GATE_EVENT_EN` (spec/08 R838). -/
def A.GATE_EVENT_EN (i : Nat) : Nat := 0x40710060 + i * 0x100
/-- Address of `overrun` (spec/08 R325-R849). -/
def A.overrun (i : Nat) : Nat := 0x40710080 + i * 0x100
/-- Address of `trim_windows` (spec/08 R325-R849). -/
def A.trim_windows (i : Nat) : Nat := 0x40710088 + i * 0x100
/-- Address of `trim_abort` (spec/08 R325-R849). -/
def A.trim_abort (i : Nat) : Nat := 0x40710090 + i * 0x100
/-- Address of `frag_tx` (spec/08 R325-R849). -/
def A.frag_tx (i : Nat) : Nat := 0x40710098 + i * 0x100
/-- Address of `frag_rx` (spec/08 R325-R849). -/
def A.frag_rx (i : Nat) : Nat := 0x407100A0 + i * 0x100
/-- Address of `assembly_err` (spec/08 R325-R849). -/
def A.assembly_err (i : Nat) : Nat := 0x407100A8 + i * 0x100
/-- Address of `verify_fail` (spec/08 R325-R849). -/
def A.verify_fail (i : Nat) : Nat := 0x407100B0 + i * 0x100
/-- Address of `guard_held` (spec/08 R325-R849). -/
def A.guard_held (i : Nat) : Nat := 0x407100B8 + i * 0x100
/-- Address of `GATE_ADMIN_LIST` (spec/08 R314). -/
def A.GATE_ADMIN_LIST (i j k : Nat) : Nat := 0x40720000 + i * 0x2000 + j * 0x8 + k * 0x4
/-- Address of `GATE_OPER_LIST` (spec/08 R320). -/
def A.GATE_OPER_LIST (i j k : Nat) : Nat := 0x40750000 + i * 0x2000 + j * 0x8 + k * 0x4
/-- Address of `GATE_STREAM` (spec/08 R336). -/
def A.GATE_STREAM (i : Nat) : Nat := 0x40780000 + i * 0x4
/-- Address of `GATE_GEN0` (spec/08 R340). -/
def A.GATE_GEN0 (i : Nat) : Nat := 0x40790000 + i * 0x8
/-- Address of `GATE_GEN1` (spec/08 R340). -/
def A.GATE_GEN1 (i : Nat) : Nat := 0x40790004 + i * 0x8
/-- Address of `GATE_RCVY0` (spec/08 R339). -/
def A.GATE_RCVY0 (i : Nat) : Nat := 0x407A0000 + i * 0x10
/-- Address of `GATE_RCVY1` (spec/08 R339). -/
def A.GATE_RCVY1 (i : Nat) : Nat := 0x407A0004 + i * 0x10
/-- Address of `GATE_RCVY2` (spec/08 R339). -/
def A.GATE_RCVY2 (i : Nat) : Nat := 0x407A0008 + i * 0x10
/-- Address of `GATE_RCVY3` (spec/08 R339). -/
def A.GATE_RCVY3 (i : Nat) : Nat := 0x407A000C + i * 0x10
/-- Address of `rc_passed` (spec/08 R339). -/
def A.rc_passed (i : Nat) : Nat := 0x407C0000 + i * 0x40
/-- Address of `rc_discarded` (spec/08 R339). -/
def A.rc_discarded (i : Nat) : Nat := 0x407C0008 + i * 0x40
/-- Address of `rc_out_of_order` (spec/08 R339). -/
def A.rc_out_of_order (i : Nat) : Nat := 0x407C0010 + i * 0x40
/-- Address of `rc_rogue` (spec/08 R339). -/
def A.rc_rogue (i : Nat) : Nat := 0x407C0018 + i * 0x40
/-- Address of `rc_lost` (spec/08 R339). -/
def A.rc_lost (i : Nat) : Nat := 0x407C0020 + i * 0x40
/-- Address of `rc_tagless` (spec/08 R339). -/
def A.rc_tagless (i : Nat) : Nat := 0x407C0028 + i * 0x40
/-- Address of `rc_resets` (spec/08 R339). -/
def A.rc_resets (i : Nat) : Nat := 0x407C0030 + i * 0x40
/-- Address of `TIME_IRQ_STATUS` (spec/08 R345). -/
def A.TIME_IRQ_STATUS : Nat := 0x40A00000
/-- Address of `TIME_IRQ_ENABLE` (spec/08 R345). -/
def A.TIME_IRQ_ENABLE : Nat := 0x40A00004
/-- Address of `TIME_ERR_CAPTURE` (spec/00 R836, 08 R345). -/
def A.TIME_ERR_CAPTURE : Nat := 0x40A00008
/-- Address of `TIME_ERR_CLR` (spec/00 R836). -/
def A.TIME_ERR_CLR : Nat := 0x40A0000C
/-- Address of `TIME_CFG` (spec/08 R304). -/
def A.TIME_CFG : Nat := 0x40A00010
/-- Address of `TIME_SLEW` (spec/08 R304). -/
def A.TIME_SLEW : Nat := 0x40A00014
/-- Address of `TIME_HOLD` (spec/08 R307). -/
def A.TIME_HOLD : Nat := 0x40A00018
/-- Address of `TIME_STATUS` (spec/08 R307). -/
def A.TIME_STATUS : Nat := 0x40A0001C
/-- Address of `TIME_CMD` (spec/08 R300). -/
def A.TIME_CMD : Nat := 0x40A00020
/-- Address of `TIME_WOFS_LO` (spec/08 R300-R310). -/
def A.TIME_WOFS_LO : Nat := 0x40A00028
/-- Address of `TIME_WOFS_HI` (spec/08 R300-R310). -/
def A.TIME_WOFS_HI : Nat := 0x40A0002C
/-- Address of `TIME_LT_LO` (spec/08 R300-R310). -/
def A.TIME_LT_LO : Nat := 0x40A00030
/-- Address of `TIME_LT_HI` (spec/08 R300-R310). -/
def A.TIME_LT_HI : Nat := 0x40A00034
/-- Address of `TIME_SNAP_LT_LO` (spec/08 R300-R310). -/
def A.TIME_SNAP_LT_LO : Nat := 0x40A00040
/-- Address of `TIME_SNAP_LT_HI` (spec/08 R300-R310). -/
def A.TIME_SNAP_LT_HI : Nat := 0x40A00044
/-- Address of `TIME_BCYC_COUNT_LO` (spec/08 R300-R310). -/
def A.TIME_BCYC_COUNT_LO : Nat := 0x40A00210
/-- Address of `TIME_BCYC_COUNT_HI` (spec/08 R300-R310). -/
def A.TIME_BCYC_COUNT_HI : Nat := 0x40A00214
/-- Address of `TIME_TXTS_LT_LO` (spec/08 R300-R310). -/
def A.TIME_TXTS_LT_LO : Nat := 0x40A00310
/-- Address of `TIME_TXTS_LT_HI` (spec/08 R300-R310). -/
def A.TIME_TXTS_LT_HI : Nat := 0x40A00314
/-- Address of `TIME_SNAP_NS` (spec/08 R300). -/
def A.TIME_SNAP_NS (i : Nat) : Nat := 0x40A00050 + i * 0x10
/-- Address of `TIME_SNAP_SEC_LO` (spec/08 R300). -/
def A.TIME_SNAP_SEC_LO (i : Nat) : Nat := 0x40A00054 + i * 0x10
/-- Address of `TIME_SNAP_SEC_HI` (spec/08 R300). -/
def A.TIME_SNAP_SEC_HI (i : Nat) : Nat := 0x40A00058 + i * 0x10
/-- Address of `TIME_Dd_RATE` (spec/08 R302). -/
def A.TIME_Dd_RATE (i : Nat) : Nat := 0x40A00100 + i * 0x40
/-- Address of `TIME_Dd_ADJ_LO` (spec/08 R303). -/
def A.TIME_Dd_ADJ_LO (i : Nat) : Nat := 0x40A00108 + i * 0x40
/-- Address of `TIME_Dd_ADJ_HI` (spec/08 R303). -/
def A.TIME_Dd_ADJ_HI (i : Nat) : Nat := 0x40A0010C + i * 0x40
/-- Address of `TIME_Dd_ADJ_CMD` (spec/08 R303). -/
def A.TIME_Dd_ADJ_CMD (i : Nat) : Nat := 0x40A00110 + i * 0x40
/-- Address of `TIME_BCYC_CFG` (spec/08 R310,R311). -/
def A.TIME_BCYC_CFG : Nat := 0x40A00200
/-- Address of `TIME_BCYC_BASE_NS` (spec/08 R310,R311). -/
def A.TIME_BCYC_BASE_NS : Nat := 0x40A00204
/-- Address of `TIME_BCYC_BASE_SEC_LO` (spec/08 R310,R311). -/
def A.TIME_BCYC_BASE_SEC_LO : Nat := 0x40A00208
/-- Address of `TIME_BCYC_BASE_SEC_HI` (spec/08 R310,R311). -/
def A.TIME_BCYC_BASE_SEC_HI : Nat := 0x40A0020C
/-- Address of `TIME_BCYC_SKIPPED` (spec/08 R310). -/
def A.TIME_BCYC_SKIPPED : Nat := 0x40A00218
/-- Address of `TIME_TXTS_STATUS` (spec/08 R309). -/
def A.TIME_TXTS_STATUS : Nat := 0x40A00300
/-- Address of `TIME_TXTS_INFO` (spec/08 R309). -/
def A.TIME_TXTS_INFO : Nat := 0x40A00304
/-- Address of `TIME_TXTS_DOM` (spec/08 R309). -/
def A.TIME_TXTS_DOM : Nat := 0x40A00308
/-- Address of `TIME_TXTS_POP` (spec/08 R309). -/
def A.TIME_TXTS_POP : Nat := 0x40A00318
/-- Address of `MINT_IRQ_STATUS` (spec/09 R408). -/
def A.MINT_IRQ_STATUS : Nat := 0x40B00000
/-- Address of `MINT_IRQ_ENABLE` (spec/09 R408). -/
def A.MINT_IRQ_ENABLE : Nat := 0x40B00004
/-- Address of `MINT_ERR_CAPTURE` (spec/00 R836, 09 R408). -/
def A.MINT_ERR_CAPTURE : Nat := 0x40B00008
/-- Address of `MINT_ERR_CLR` (spec/00 R836). -/
def A.MINT_ERR_CLR : Nat := 0x40B0000C
/-- Address of `MINT_TELLER_CFG` (spec/09 R351,R355,R359). -/
def A.MINT_TELLER_CFG : Nat := 0x40B00010
/-- Address of `MINT_STREAM_CFG` (spec/09 R375). -/
def A.MINT_STREAM_CFG : Nat := 0x40B00014
/-- Address of `MINT_POOL_STATUS` (spec/09 R351). -/
def A.MINT_POOL_STATUS : Nat := 0x40B00018
/-- Address of `MINT_CTX_EPOCH` (spec/09 R382). -/
def A.MINT_CTX_EPOCH : Nat := 0x40B0001C
/-- Address of `MINT_IVGEN_CFG` (spec/09 R392). -/
def A.MINT_IVGEN_CFG (i : Nat) : Nat := 0x40B00100 + i * 0x10
/-- Address of `MINT_IVGEN_FIXED` (spec/09 R394). -/
def A.MINT_IVGEN_FIXED (i : Nat) : Nat := 0x40B00104 + i * 0x10
/-- Address of `MINT_IVGEN_NEXT_LO` (spec/09 R392). -/
def A.MINT_IVGEN_NEXT_LO (i : Nat) : Nat := 0x40B00108 + i * 0x10
/-- Address of `MINT_IVGEN_NEXT_HI` (spec/09 R392). -/
def A.MINT_IVGEN_NEXT_HI (i : Nat) : Nat := 0x40B0010C + i * 0x10
/-- Address of `MINT_CORE_STATUS` (spec/09 R358). -/
def A.MINT_CORE_STATUS (i : Nat) : Nat := 0x40B00200 + i * 0x20
/-- Address of `MINT_CORE_CTRL` (spec/09 R364). -/
def A.MINT_CORE_CTRL (i : Nat) : Nat := 0x40B00204 + i * 0x20
/-- Address of `core_blocks` (spec/09 R358,R362). -/
def A.core_blocks (i : Nat) : Nat := 0x40B00208 + i * 0x20
/-- Address of `core_mismatches` (spec/09 R358,R362). -/
def A.core_mismatches (i : Nat) : Nat := 0x40B00210 + i * 0x20
/-- Address of `MINT_RING_PRI` (spec/09 R354). -/
def A.MINT_RING_PRI (i : Nat) : Nat := 0x40B00400 + i * 0x4
/-- Address of `jobs_ok` (spec/09 R408). -/
def A.jobs_ok : Nat := 0x40B01000
/-- Address of `jobs_failed` (spec/09 R408). -/
def A.jobs_failed : Nat := 0x40B01008
/-- Address of `tag_fail` (spec/09 R408). -/
def A.tag_fail : Nat := 0x40B01010
/-- Address of `retries` (spec/09 R408). -/
def A.retries : Nat := 0x40B01018
/-- Address of `mint_fault_mismatch` (spec/09 R408). -/
def A.mint_fault_mismatch : Nat := 0x40B01020
/-- Address of `ctx_save_clear` (spec/09 R408). -/
def A.ctx_save_clear : Nat := 0x40B01028
/-- Address of `ctx_save_wrapped` (spec/09 R408). -/
def A.ctx_save_wrapped : Nat := 0x40B01030
/-- Address of `ctx_auth_fail` (spec/09 R408). -/
def A.ctx_auth_fail : Nat := 0x40B01038
/-- Address of `preemptions` (spec/09 R408). -/
def A.preemptions : Nat := 0x40B01040
/-- Address of `ctx_slot_busy` (spec/09 R408). -/
def A.ctx_slot_busy : Nat := 0x40B01048
/-- Address of `VAULT_IRQ_STATUS` (spec/10 R448). -/
def A.VAULT_IRQ_STATUS : Nat := 0x40C00000
/-- Address of `VAULT_IRQ_ENABLE` (spec/10 R448). -/
def A.VAULT_IRQ_ENABLE : Nat := 0x40C00004
/-- Address of `VAULT_ERR_CAPTURE` (spec/00 R836, 10 R448). -/
def A.VAULT_ERR_CAPTURE : Nat := 0x40C00008
/-- Address of `VAULT_ERR_CLR` (spec/00 R836). -/
def A.VAULT_ERR_CLR : Nat := 0x40C0000C
/-- Address of `VAULT_STATUS` (spec/10 R421). -/
def A.VAULT_STATUS : Nat := 0x40C00010
/-- Address of `VAULT_CTRL` (spec/10 R421). -/
def A.VAULT_CTRL : Nat := 0x40C00014
/-- Address of `VAULT_DEVICE_ID` (spec/10 R414). -/
def A.VAULT_DEVICE_ID (i : Nat) : Nat := 0x40C00020 + i * 0x4
/-- Address of `VAULT_PAIR_LABEL` (spec/10 R427). -/
def A.VAULT_PAIR_LABEL (i : Nat) : Nat := 0x40C00030 + i * 0x4
/-- Address of `VAULT_XMSS_STATUS` (spec/10 R443). -/
def A.VAULT_XMSS_STATUS : Nat := 0x40C00050
/-- Address of `VAULT_MB_CMD` (spec/10 R428). -/
def A.VAULT_MB_CMD (i : Nat) : Nat := 0x40C00100 + i * 0x20
/-- Address of `VAULT_MB_POLICY` (spec/10 R428). -/
def A.VAULT_MB_POLICY (i : Nat) : Nat := 0x40C00104 + i * 0x20
/-- Address of `VAULT_MB_ADDR_LO` (spec/10 R428). -/
def A.VAULT_MB_ADDR_LO (i : Nat) : Nat := 0x40C00108 + i * 0x20
/-- Address of `VAULT_MB_ADDR_HI` (spec/10 R428). -/
def A.VAULT_MB_ADDR_HI (i : Nat) : Nat := 0x40C0010C + i * 0x20
/-- Address of `VAULT_MB_ARG` (spec/10 R428). -/
def A.VAULT_MB_ARG (i : Nat) : Nat := 0x40C00110 + i * 0x20
/-- Address of `VAULT_MB_STATUS` (spec/10 R429,R431). -/
def A.VAULT_MB_STATUS (i : Nat) : Nat := 0x40C00118 + i * 0x20
/-- Address of `VAULT_BMR` (spec/10 R419). -/
def A.VAULT_BMR (i j : Nat) : Nat := 0x40C00200 + i * 0x20 + j * 0x4
/-- Address of `VAULT_CTR_NEXT_LO` (spec/10 R432). -/
def A.VAULT_CTR_NEXT_LO (i : Nat) : Nat := 0x40C00400 + i * 0x10
/-- Address of `VAULT_CTR_NEXT_HI` (spec/10 R432). -/
def A.VAULT_CTR_NEXT_HI (i : Nat) : Nat := 0x40C00404 + i * 0x10
/-- Address of `VAULT_CTR_CFG` (spec/10 R432). -/
def A.VAULT_CTR_CFG (i : Nat) : Nat := 0x40C00408 + i * 0x10
/-- Address of `VAULT_CTR_WEAR` (spec/10 R435). -/
def A.VAULT_CTR_WEAR (i : Nat) : Nat := 0x40C0040C + i * 0x10
/-- Address of `VAULT_SLOT_POLICY` (spec/10 R410). -/
def A.VAULT_SLOT_POLICY (i : Nat) : Nat := 0x40C00800 + i * 0x4
/-- Address of `CAN_IRQ_STATUS` (spec/11 R504). -/
def A.CAN_IRQ_STATUS : Nat := 0x40D00000
/-- Address of `CAN_IRQ_ENABLE` (spec/11 R504). -/
def A.CAN_IRQ_ENABLE : Nat := 0x40D00004
/-- Address of `CAN_ERR_CAPTURE` (spec/00 R836, 11 R504). -/
def A.CAN_ERR_CAPTURE : Nat := 0x40D00008
/-- Address of `CAN_ERR_CLR` (spec/00 R836). -/
def A.CAN_ERR_CLR : Nat := 0x40D0000C
/-- Address of `CAN_TX_CANCEL` (spec/11 R464). -/
def A.CAN_TX_CANCEL : Nat := 0x40D00010
/-- Address of `CAN_CANCEL_STATUS` (spec/11 R464). -/
def A.CAN_CANCEL_STATUS : Nat := 0x40D00014
/-- Address of `CAN_RAM_PART` (spec/11 R452). -/
def A.CAN_RAM_PART (i : Nat) : Nat := 0x40D00100 + i * 0x4
/-- Address of `CAN_PN_CFG` (spec/11 R486). -/
def A.CAN_PN_CFG (i : Nat) : Nat := 0x40D00800 + i * 0x40
/-- Address of `CAN_PN_ID` (spec/11 R486). -/
def A.CAN_PN_ID (i : Nat) : Nat := 0x40D00804 + i * 0x40
/-- Address of `CAN_PN_MASK` (spec/11 R486). -/
def A.CAN_PN_MASK (i : Nat) : Nat := 0x40D00808 + i * 0x40
/-- Address of `CAN_PN_DATA_LO` (spec/11 R486). -/
def A.CAN_PN_DATA_LO (i : Nat) : Nat := 0x40D0080C + i * 0x40
/-- Address of `CAN_PN_DATA_HI` (spec/11 R486). -/
def A.CAN_PN_DATA_HI (i : Nat) : Nat := 0x40D00810 + i * 0x40
/-- Address of `CAN_PN_WAKE_LT_LO` (spec/11 R488). -/
def A.CAN_PN_WAKE_LT_LO (i : Nat) : Nat := 0x40D00818 + i * 0x40
/-- Address of `CAN_PN_WAKE_LT_HI` (spec/11 R488). -/
def A.CAN_PN_WAKE_LT_HI (i : Nat) : Nat := 0x40D0081C + i * 0x40
/-- Address of `CAN_PN_WAKE_ID` (spec/11 R488). -/
def A.CAN_PN_WAKE_ID (i : Nat) : Nat := 0x40D00820 + i * 0x40
/-- Address of `CAN_CH_CFG` (spec/11 R458-R485). -/
def A.CAN_CH_CFG (i : Nat) : Nat := 0x40D01000 + i * 0x200
/-- Address of `CAN_NBT` (spec/11 R465). -/
def A.CAN_NBT (i : Nat) : Nat := 0x40D01004 + i * 0x200
/-- Address of `CAN_DBT` (spec/11 R465). -/
def A.CAN_DBT (i : Nat) : Nat := 0x40D01008 + i * 0x200
/-- Address of `CAN_XCFG` (spec/11 R466). -/
def A.CAN_XCFG (i : Nat) : Nat := 0x40D0100C + i * 0x200
/-- Address of `CAN_LAYOUT` (spec/11 R453). -/
def A.CAN_LAYOUT (i : Nat) : Nat := 0x40D01010 + i * 0x200
/-- Address of `CAN_RX_LOCK` (spec/11 R476). -/
def A.CAN_RX_LOCK (i : Nat) : Nat := 0x40D01014 + i * 0x200
/-- Address of `CAN_STATUS` (spec/11 R477,R478). -/
def A.CAN_STATUS (i : Nat) : Nat := 0x40D01018 + i * 0x200
/-- Address of `CAN_EVENT` (spec/11 R477-R483). -/
def A.CAN_EVENT (i : Nat) : Nat := 0x40D0101C + i * 0x200
/-- Address of `CAN_EVENT_EN` (spec/11 R838). -/
def A.CAN_EVENT_EN (i : Nat) : Nat := 0x40D01020 + i * 0x200
/-- Address of `CAN_CMD` (spec/11 R478). -/
def A.CAN_CMD (i : Nat) : Nat := 0x40D01024 + i * 0x200
/-- Address of `CAN_RX_HEAD` (spec/11 R475). -/
def A.CAN_RX_HEAD (i : Nat) : Nat := 0x40D01028 + i * 0x200
/-- Address of `CAN_LAYOUT2` (spec/11 R453). -/
def A.CAN_LAYOUT2 (i : Nat) : Nat := 0x40D0102C + i * 0x200
/-- Address of `CAN_FLT_ID` (spec/11 R469). -/
def A.CAN_FLT_ID (i j : Nat) : Nat := 0x40D01080 + i * 0x200 + j * 0x8
/-- Address of `CAN_FLT_MASK` (spec/11 R470). -/
def A.CAN_FLT_MASK (i j : Nat) : Nat := 0x40D01084 + i * 0x200 + j * 0x8
/-- Address of `tx_ok` (spec/11 R504). -/
def A.tx_ok (i : Nat) : Nat := 0x40D01180 + i * 0x200
/-- Address of `rx_ok` (spec/11 R504). -/
def A.rx_ok (i : Nat) : Nat := 0x40D01188 + i * 0x200
/-- Address of `rx_overflow` (spec/11 R504). -/
def A.rx_overflow (i : Nat) : Nat := 0x40D01190 + i * 0x200
/-- Address of `rx_too_long` (spec/11 R504). -/
def A.rx_too_long (i : Nat) : Nat := 0x40D01198 + i * 0x200
/-- Address of `rx_lock_broken` (spec/11 R504). -/
def A.rx_lock_broken (i : Nat) : Nat := 0x40D011A0 + i * 0x200
/-- Address of `rx_ecc` (spec/11 R504). -/
def A.rx_ecc (i : Nat) : Nat := 0x40D011A8 + i * 0x200
/-- Address of `arb_lost` (spec/11 R504). -/
def A.arb_lost (i : Nat) : Nat := 0x40D011B0 + i * 0x200
/-- Address of `bus_off` (spec/11 R504). -/
def A.bus_off (i : Nat) : Nat := 0x40D011B8 + i * 0x200
/-- Address of `CAN_RAM_WINDOW` (spec/11 R475). -/
def A.CAN_RAM_WINDOW (i : Nat) : Nat := 0x40D80000 + i * 0x4
/-- Address of `LIN_IRQ_STATUS` (spec/11 R504). -/
def A.LIN_IRQ_STATUS : Nat := 0x40E00000
/-- Address of `LIN_IRQ_ENABLE` (spec/11 R504). -/
def A.LIN_IRQ_ENABLE : Nat := 0x40E00004
/-- Address of `LIN_ERR_CAPTURE` (spec/00 R836, 11 R504). -/
def A.LIN_ERR_CAPTURE : Nat := 0x40E00008
/-- Address of `LIN_ERR_CLR` (spec/00 R836). -/
def A.LIN_ERR_CLR : Nat := 0x40E0000C
/-- Address of `LIN_CH_CFG` (spec/11 R489-R496). -/
def A.LIN_CH_CFG (i : Nat) : Nat := 0x40E01000 + i * 0x100
/-- Address of `LIN_SCHED_CMD` (spec/11 R489,R495). -/
def A.LIN_SCHED_CMD (i : Nat) : Nat := 0x40E01004 + i * 0x100
/-- Address of `LIN_STATUS` (spec/11 R494). -/
def A.LIN_STATUS (i : Nat) : Nat := 0x40E01008 + i * 0x100
/-- Address of `LIN_EVENT` (spec/11 R493-R495). -/
def A.LIN_EVENT (i : Nat) : Nat := 0x40E0100C + i * 0x100
/-- Address of `LIN_EVENT_EN` (spec/11 R838). -/
def A.LIN_EVENT_EN (i : Nat) : Nat := 0x40E01010 + i * 0x100
/-- Address of `frames_ok` (spec/11 R493). -/
def A.frames_ok (i : Nat) : Nat := 0x40E01040 + i * 0x100
/-- Address of `lin_errors` (spec/11 R493). -/
def A.lin_errors (i : Nat) : Nat := 0x40E01048 + i * 0x100
/-- Address of `no_response` (spec/11 R493). -/
def A.no_response (i : Nat) : Nat := 0x40E01050 + i * 0x100
/-- Address of `LIN_FRAME` (spec/11 R490). -/
def A.LIN_FRAME (i j : Nat) : Nat := 0x40E02000 + i * 0x100 + j * 0x4
/-- Address of `LIN_SLOT` (spec/11 R489). -/
def A.LIN_SLOT (i j k : Nat) : Nat := 0x40E04000 + i * 0x400 + j * 0x100 + k * 0x4
/-- Address of `SGE_IRQ_STATUS` (spec/12 R549). -/
def A.SGE_IRQ_STATUS : Nat := 0x40F00000
/-- Address of `SGE_IRQ_ENABLE` (spec/12 R549). -/
def A.SGE_IRQ_ENABLE : Nat := 0x40F00004
/-- Address of `SGE_ERR_CAPTURE` (spec/00 R836, 12 R549). -/
def A.SGE_ERR_CAPTURE : Nat := 0x40F00008
/-- Address of `SGE_ERR_CLR` (spec/00 R836). -/
def A.SGE_ERR_CLR : Nat := 0x40F0000C
/-- Address of `SGE_CTRL` (spec/12 R546). -/
def A.SGE_CTRL : Nat := 0x40F00010
/-- Address of `SGE_CFG` (spec/12 R522). -/
def A.SGE_CFG : Nat := 0x40F00014
/-- Address of `SGE_LOG` (spec/12 R549). -/
def A.SGE_LOG : Nat := 0x40F00018
/-- Address of `SGE_STATUS` (spec/12 R546). -/
def A.SGE_STATUS : Nat := 0x40F0001C
/-- Address of `SGE_TBL_CMD` (spec/12 R547). -/
def A.SGE_TBL_CMD : Nat := 0x40F00020
/-- Address of `SGE_TBL_INDEX` (spec/12 R547). -/
def A.SGE_TBL_INDEX : Nat := 0x40F00024
/-- Address of `SGE_TBL_STATUS` (spec/12 R547). -/
def A.SGE_TBL_STATUS : Nat := 0x40F00028
/-- Address of `SGE_TBL_DATA` (spec/12 R547). -/
def A.SGE_TBL_DATA (i : Nat) : Nat := 0x40F00040 + i * 0x4
/-- Address of `SGE_FRESH_CMD` (spec/12 R540). -/
def A.SGE_FRESH_CMD : Nat := 0x40F000C0
/-- Address of `SGE_FRESH_VAL_LO` (spec/12 R540). -/
def A.SGE_FRESH_VAL_LO : Nat := 0x40F000C8
/-- Address of `SGE_FRESH_VAL_HI` (spec/12 R540). -/
def A.SGE_FRESH_VAL_HI : Nat := 0x40F000CC
/-- Address of `SGE_FRESH_STATUS` (spec/12 R540). -/
def A.SGE_FRESH_STATUS : Nat := 0x40F000D0
/-- Address of `src_frames` (spec/12 R549). -/
def A.src_frames : Nat := 0x40F00200
/-- Address of `rx_nomatch` (spec/12 R549). -/
def A.rx_nomatch : Nat := 0x40F00208
/-- Address of `short_src` (spec/12 R549). -/
def A.short_src : Nat := 0x40F00210
/-- Address of `saturated` (spec/12 R549). -/
def A.saturated : Nat := 0x40F00218
/-- Address of `invalid_mapped` (spec/12 R549). -/
def A.invalid_mapped : Nat := 0x40F00220
/-- Address of `timeouts` (spec/12 R549). -/
def A.timeouts : Nat := 0x40F00228
/-- Address of `emitted` (spec/12 R549). -/
def A.emitted : Nat := 0x40F00230
/-- Address of `coalesced` (spec/12 R549). -/
def A.coalesced : Nat := 0x40F00238
/-- Address of `fifo_wait` (spec/12 R549). -/
def A.fifo_wait : Nat := 0x40F00240
/-- Address of `late` (spec/12 R549). -/
def A.late : Nat := 0x40F00248
/-- Address of `fmt_drop` (spec/12 R549). -/
def A.fmt_drop : Nat := 0x40F00250
/-- Address of `sge_tx_ok` (spec/12 R549). -/
def A.sge_tx_ok : Nat := 0x40F00258
/-- Address of `sge_tx_fail` (spec/12 R549). -/
def A.sge_tx_fail : Nat := 0x40F00260
/-- Address of `auth_fail` (spec/12 R549). -/
def A.auth_fail : Nat := 0x40F00268
/-- Address of `fresh_reject` (spec/12 R549). -/
def A.fresh_reject : Nat := 0x40F00270
/-- Address of `mac_unavail` (spec/12 R549). -/
def A.mac_unavail : Nat := 0x40F00278
/-- Address of `sge_ecc` (spec/12 R549). -/
def A.sge_ecc : Nat := 0x40F00280
/-- Address of `stopped` (spec/12 R549). -/
def A.stopped : Nat := 0x40F00288
/-- Address of `sge_log_lost` (spec/12 R549). -/
def A.sge_log_lost : Nat := 0x40F00290
/-- Address of `HIF_IRQ_STATUS` (spec/13 R610). -/
def A.HIF_IRQ_STATUS : Nat := 0x40200000
/-- Address of `HIF_IRQ_ENABLE` (spec/13 R610). -/
def A.HIF_IRQ_ENABLE : Nat := 0x40200004
/-- Address of `HIF_ERR_CAPTURE` (spec/00 R836, 13 R610). -/
def A.HIF_ERR_CAPTURE : Nat := 0x40200008
/-- Address of `HIF_ERR_CLR` (spec/00 R836). -/
def A.HIF_ERR_CLR : Nat := 0x4020000C
/-- Address of `HIF_LINK_STATUS` (spec/13 R551,R589). -/
def A.HIF_LINK_STATUS : Nat := 0x40200010
/-- Address of `HIF_TX_CFG` (spec/13 R582). -/
def A.HIF_TX_CFG : Nat := 0x40200014
/-- Address of `HIF_BAR2_CFG` (spec/13 R557). -/
def A.HIF_BAR2_CFG : Nat := 0x40200018
/-- Address of `HIF_CNT_NOMAP` (spec/13 R585). -/
def A.HIF_CNT_NOMAP (i : Nat) : Nat := 0x40200040 + i * 0x8
/-- Address of `HIF_RXMAP_LO` (spec/13 R585). -/
def A.HIF_RXMAP_LO (i : Nat) : Nat := 0x40200100 + i * 0x8
/-- Address of `HIF_RXMAP_HI` (spec/13 R585). -/
def A.HIF_RXMAP_HI (i : Nat) : Nat := 0x40200104 + i * 0x8
/-- Address of `HIF_RING_CFG` (spec/13 R561,R563). -/
def A.HIF_RING_CFG (i : Nat) : Nat := 0x40210000 + i * 0x40
/-- Address of `HIF_RING_BASE_LO` (spec/13 R562). -/
def A.HIF_RING_BASE_LO (i : Nat) : Nat := 0x40210004 + i * 0x40
/-- Address of `HIF_RING_BASE_HI` (spec/13 R562). -/
def A.HIF_RING_BASE_HI (i : Nat) : Nat := 0x40210008 + i * 0x40
/-- Address of `HIF_RING_WB_LO` (spec/13 R571). -/
def A.HIF_RING_WB_LO (i : Nat) : Nat := 0x4021000C + i * 0x40
/-- Address of `HIF_RING_WB_HI` (spec/13 R571). -/
def A.HIF_RING_WB_HI (i : Nat) : Nat := 0x40210010 + i * 0x40
/-- Address of `HIF_RING_COAL` (spec/13 R572). -/
def A.HIF_RING_COAL (i : Nat) : Nat := 0x40210014 + i * 0x40
/-- Address of `HIF_RING_CTRL` (spec/13 R601-R603). -/
def A.HIF_RING_CTRL (i : Nat) : Nat := 0x40210018 + i * 0x40
/-- Address of `HIF_RING_STATUS` (spec/13 R601-R604). -/
def A.HIF_RING_STATUS (i : Nat) : Nat := 0x4021001C + i * 0x40
/-- Address of `ring_completed` (spec/13 R610). -/
def A.ring_completed (i : Nat) : Nat := 0x40220000 + i * 0x20
/-- Address of `no_desc` (spec/13 R610). -/
def A.no_desc (i : Nat) : Nat := 0x40220008 + i * 0x20
/-- Address of `no_cpl` (spec/13 R610). -/
def A.no_cpl (i : Nat) : Nat := 0x40220010 + i * 0x20
/-- Address of `partial_discard` (spec/13 R610). -/
def A.partial_discard (i : Nat) : Nat := 0x40220018 + i * 0x20
/-- Address of `HIF_MSIX_TABLE` (spec/13 R573). -/
def A.HIF_MSIX_TABLE (i j : Nat) : Nat := 0x40270000 + i * 0x10 + j * 0x4
/-- Address of `HIF_MSIX_PBA` (spec/13 R573). -/
def A.HIF_MSIX_PBA (i : Nat) : Nat := 0x40278000 + i * 0x4
/-- Address of `HIF_DB` (spec/13 R563). -/
def A.HIF_DB (i : Nat) : Nat := 0x40280000 + i * 0x1000
/-- Address of `HIF_DB_IDX` (spec/13 R563). -/
def A.HIF_DB_IDX (i : Nat) : Nat := 0x40280004 + i * 0x1000
/-- Address of `DMA_IRQ_STATUS` (spec/13 R611). -/
def A.DMA_IRQ_STATUS : Nat := 0x40300000
/-- Address of `DMA_IRQ_ENABLE` (spec/13 R611). -/
def A.DMA_IRQ_ENABLE : Nat := 0x40300004
/-- Address of `DMA_ERR_CAPTURE` (spec/00 R836, 13 R611). -/
def A.DMA_ERR_CAPTURE : Nat := 0x40300008
/-- Address of `DMA_ERR_CLR` (spec/00 R836). -/
def A.DMA_ERR_CLR : Nat := 0x4030000C
/-- Address of `DMA_CFG` (spec/13 R598). -/
def A.DMA_CFG : Nat := 0x40300010
/-- Address of `DMA_STATUS` (spec/13 R598). -/
def A.DMA_STATUS : Nat := 0x40300014
/-- Address of `read_bytes` (spec/13 R611). -/
def A.read_bytes : Nat := 0x40300100
/-- Address of `write_bytes` (spec/13 R611). -/
def A.write_bytes : Nat := 0x40300108
/-- Address of `read_err` (spec/13 R611). -/
def A.read_err : Nat := 0x40300110
/-- Address of `write_err` (spec/13 R611). -/
def A.write_err : Nat := 0x40300118
/-- Address of `transfers` (spec/13 R611). -/
def A.transfers : Nat := 0x40300120
/-- Address of `BRG_IRQ_STATUS` (spec/14 R637). -/
def A.BRG_IRQ_STATUS : Nat := 0x41300000
/-- Address of `BRG_IRQ_ENABLE` (spec/14 R637). -/
def A.BRG_IRQ_ENABLE : Nat := 0x41300004
/-- Address of `BRG_ERR_CAPTURE` (spec/00 R836, 14 R637). -/
def A.BRG_ERR_CAPTURE : Nat := 0x41300008
/-- Address of `BRG_ERR_CLR` (spec/00 R836). -/
def A.BRG_ERR_CLR : Nat := 0x4130000C
/-- Address of `BRG_CFG` (spec/14 R615,R623). -/
def A.BRG_CFG : Nat := 0x41300010
/-- Address of `BRG_SYNC_WR` (spec/14 R616). -/
def A.BRG_SYNC_WR : Nat := 0x41300014
/-- Address of `BRG_MON_STATUS` (spec/14 R622). -/
def A.BRG_MON_STATUS : Nat := 0x41300018
/-- Address of `BRG_PWE_STATUS` (spec/14 R619). -/
def A.BRG_PWE_STATUS : Nat := 0x4130001C
/-- Address of `BRG_PWE_LT_LO` (spec/14 R619). -/
def A.BRG_PWE_LT_LO : Nat := 0x41300020
/-- Address of `BRG_PWE_LT_HI` (spec/14 R619). -/
def A.BRG_PWE_LT_HI : Nat := 0x41300024
/-- Address of `BRG_PWE_ADDR` (spec/14 R619). -/
def A.BRG_PWE_ADDR : Nat := 0x41300028
/-- Address of `BRG_PWE_DATA` (spec/14 R619). -/
def A.BRG_PWE_DATA : Nat := 0x4130002C
/-- Address of `BRG_PWE_INFO` (spec/14 R619). -/
def A.BRG_PWE_INFO : Nat := 0x41300030
/-- Address of `BRG_PWE_POP` (spec/14 R619). -/
def A.BRG_PWE_POP : Nat := 0x41300034
/-- Address of `err_decode` (spec/14 R620,R624). -/
def A.err_decode : Nat := 0x41300100
/-- Address of `err_target` (spec/14 R620,R624). -/
def A.err_target : Nat := 0x41300108
/-- Address of `tgt_timeout` (spec/14 R620,R624). -/
def A.tgt_timeout : Nat := 0x41300110
/-- Address of `sc_fail` (spec/14 R620,R624). -/
def A.sc_fail : Nat := 0x41300118
/-- Address of `lost_h0` (spec/14 R620,R624). -/
def A.lost_h0 : Nat := 0x41300120
/-- Address of `lost_h1` (spec/14 R620,R624). -/
def A.lost_h1 : Nat := 0x41300128
/-- Address of `lost_cpu` (spec/14 R620,R624). -/
def A.lost_cpu : Nat := 0x41300130
/-- Address of `lost_triad` (spec/14 R620,R624). -/
def A.lost_triad : Nat := 0x41300138
/-- Address of `SAFE_IRQ_STATUS` (spec/14 R637). -/
def A.SAFE_IRQ_STATUS : Nat := 0x41200000
/-- Address of `SAFE_IRQ_ENABLE` (spec/14 R637). -/
def A.SAFE_IRQ_ENABLE : Nat := 0x41200004
/-- Address of `SAFE_ERR_CAPTURE` (spec/00 R836, 14 R637). -/
def A.SAFE_ERR_CAPTURE : Nat := 0x41200008
/-- Address of `SAFE_ERR_CLR` (spec/00 R836). -/
def A.SAFE_ERR_CLR : Nat := 0x4120000C
/-- Address of `SAFE_EC_STATUS` (spec/14 R627). -/
def A.SAFE_EC_STATUS : Nat := 0x41210000
/-- Address of `SAFE_EC_ACK` (spec/14 R628). -/
def A.SAFE_EC_ACK : Nat := 0x41210004
/-- Address of `SAFE_EC_OVF_CLR` (spec/14 R630). -/
def A.SAFE_EC_OVF_CLR : Nat := 0x41210008
/-- Address of `SAFE_EC_REACT1` (spec/14 R629). -/
def A.SAFE_EC_REACT1 : Nat := 0x41210014
/-- Address of `SAFE_EC_REACT2` (spec/14 R629). -/
def A.SAFE_EC_REACT2 : Nat := 0x41210018
/-- Address of `SAFE_EC_REACT3` (spec/14 R629). -/
def A.SAFE_EC_REACT3 : Nat := 0x4121001C
/-- Address of `SAFE_EC_IDX` (spec/14 R627). -/
def A.SAFE_EC_IDX : Nat := 0x41210020
/-- Address of `SAFE_EC_ENTRY` (spec/14 R627). -/
def A.SAFE_EC_ENTRY (i : Nat) : Nat := 0x41210024 + i * 0x4
/-- Address of `SAFE_FAULT_CTRL` (spec/14 R633,R634). -/
def A.SAFE_FAULT_CTRL : Nat := 0x41210040
/-- Address of `SAFE_FAULT_STATUS` (spec/14 R633). -/
def A.SAFE_FAULT_STATUS : Nat := 0x41210044
/-- Address of `SAFE_FAULT_CFG` (spec/14 R634). -/
def A.SAFE_FAULT_CFG : Nat := 0x41210048
/-- Address of `reports` (spec/14 R630). -/
def A.reports : Nat := 0x41210100
/-- Address of `lost` (spec/14 R630). -/
def A.lost : Nat := 0x41210108
/-- Address of `acks` (spec/14 R630). -/
def A.acks : Nat := 0x41210110
/-- Address of `TRIAD_STATUS` (spec/17 R710). -/
def A.TRIAD_STATUS : Nat := 0x41220000
/-- Address of `TRIAD_CFG` (spec/17 R714,R716). -/
def A.TRIAD_CFG : Nat := 0x41220004
/-- Address of `TRIAD_WDT_CFG` (spec/17 R717). -/
def A.TRIAD_WDT_CFG : Nat := 0x41220008
/-- Address of `TRIAD_WDT_KICK` (spec/17 R717). -/
def A.TRIAD_WDT_KICK : Nat := 0x4122000C
/-- Address of `TRIAD_CWDT_CFG` (spec/17 R718). -/
def A.TRIAD_CWDT_CFG : Nat := 0x41220010
/-- Address of `TRIAD_CWDT_KICK` (spec/17 R719). -/
def A.TRIAD_CWDT_KICK : Nat := 0x41220014
/-- Address of `TRIAD_MM_LT_LO` (spec/17 R710). -/
def A.TRIAD_MM_LT_LO : Nat := 0x41220018
/-- Address of `TRIAD_MM_LT_HI` (spec/17 R710). -/
def A.TRIAD_MM_LT_HI : Nat := 0x4122001C
/-- Address of `TRIAD_MM_INFO` (spec/17 R710). -/
def A.TRIAD_MM_INFO : Nat := 0x41220020
/-- Address of `mismatches` (spec/17 R709-R718). -/
def A.mismatches : Nat := 0x41220100
/-- Address of `resyncs` (spec/17 R709-R718). -/
def A.resyncs : Nat := 0x41220108
/-- Address of `doubles` (spec/17 R709-R718). -/
def A.doubles : Nat := 0x41220110
/-- Address of `wdt_expiries` (spec/17 R709-R718). -/
def A.wdt_expiries : Nat := 0x41220118
/-- Address of `cwdt_expiries` (spec/17 R709-R718). -/
def A.cwdt_expiries : Nat := 0x41220120
/-- Address of `triad_ecc_corr` (spec/17 R709-R718). -/
def A.triad_ecc_corr : Nat := 0x41220128
/-- Address of `TRIAD_LOAD_WINDOW` (spec/19 R776). -/
def A.TRIAD_LOAD_WINDOW (i : Nat) : Nat := 0x41240000 + i * 0x4
/-- Address of `LEDGER_IRQ_STATUS` (spec/15 R667). -/
def A.LEDGER_IRQ_STATUS : Nat := 0x41000000
/-- Address of `LEDGER_IRQ_ENABLE` (spec/15 R667). -/
def A.LEDGER_IRQ_ENABLE : Nat := 0x41000004
/-- Address of `LEDGER_ERR_CAPTURE` (spec/00 R836, 15 R667). -/
def A.LEDGER_ERR_CAPTURE : Nat := 0x41000008
/-- Address of `LEDGER_ERR_CLR` (spec/00 R836). -/
def A.LEDGER_ERR_CLR : Nat := 0x4100000C
/-- Address of `LEDGER_CFG` (spec/15 R646,R655). -/
def A.LEDGER_CFG : Nat := 0x41000010
/-- Address of `LEDGER_EXPORT_CFG` (spec/15 R654,R659). -/
def A.LEDGER_EXPORT_CFG : Nat := 0x41000014
/-- Address of `LEDGER_STATUS` (spec/15 R654). -/
def A.LEDGER_STATUS : Nat := 0x41000018
/-- Address of `LEDGER_NEXT_SEQ_LO` (spec/15 R648,R654). -/
def A.LEDGER_NEXT_SEQ_LO : Nat := 0x41000020
/-- Address of `LEDGER_NEXT_SEQ_HI` (spec/15 R648,R654). -/
def A.LEDGER_NEXT_SEQ_HI : Nat := 0x41000024
/-- Address of `LEDGER_EXP_SEQ_LO` (spec/15 R648,R654). -/
def A.LEDGER_EXP_SEQ_LO : Nat := 0x41000028
/-- Address of `LEDGER_EXP_SEQ_HI` (spec/15 R648,R654). -/
def A.LEDGER_EXP_SEQ_HI : Nat := 0x4100002C
/-- Address of `LEDGER_FRAME_RX_PORTS` (spec/15 R641). -/
def A.LEDGER_FRAME_RX_PORTS : Nat := 0x41000030
/-- Address of `LEDGER_FRAME_TX_PORTS` (spec/15 R642). -/
def A.LEDGER_FRAME_TX_PORTS : Nat := 0x41000034
/-- Address of `LEDGER_STREAM_EN` (spec/15 R641). -/
def A.LEDGER_STREAM_EN (i : Nat) : Nat := 0x41000100 + i * 0x4
/-- Address of `records` (spec/15 R643-R662). -/
def A.records : Nat := 0x41000200
/-- Address of `frame_discarded` (spec/15 R643-R662). -/
def A.frame_discarded : Nat := 0x41000208
/-- Address of `evt_lost` (spec/15 R643-R662). -/
def A.evt_lost : Nat := 0x41000210
/-- Address of `overwritten` (spec/15 R643-R662). -/
def A.overwritten : Nat := 0x41000218
/-- Address of `merged_in` (spec/15 R643-R662). -/
def A.merged_in : Nat := 0x41000220
/-- Address of `merge_lost` (spec/15 R643-R662). -/
def A.merge_lost : Nat := 0x41000228
/-- Address of `PWR_IRQ_STATUS` (spec/16 R705). -/
def A.PWR_IRQ_STATUS : Nat := 0x40100000
/-- Address of `PWR_IRQ_ENABLE` (spec/16 R705). -/
def A.PWR_IRQ_ENABLE : Nat := 0x40100004
/-- Address of `PWR_ERR_CAPTURE` (spec/00 R836, 16 R705). -/
def A.PWR_ERR_CAPTURE : Nat := 0x40100008
/-- Address of `PWR_ERR_CLR` (spec/00 R836). -/
def A.PWR_ERR_CLR : Nat := 0x4010000C
/-- Address of `PWR_STATE` (spec/16 R669). -/
def A.PWR_STATE : Nat := 0x40100010
/-- Address of `PWR_CMD` (spec/16 R673,R682). -/
def A.PWR_CMD : Nat := 0x40100014
/-- Address of `PWR_PARK_CFG` (spec/16 R704). -/
def A.PWR_PARK_CFG : Nat := 0x40100018
/-- Address of `PWR_DRAIN_TMO` (spec/16 R678). -/
def A.PWR_DRAIN_TMO : Nat := 0x4010001C
/-- Address of `PWR_PARK_STATUS` (spec/16 R673). -/
def A.PWR_PARK_STATUS : Nat := 0x40100020
/-- Address of `PWR_DOM_CTRL` (spec/16 R701). -/
def A.PWR_DOM_CTRL : Nat := 0x40100024
/-- Address of `PWR_DOM_STATUS` (spec/16 R701). -/
def A.PWR_DOM_STATUS : Nat := 0x40100028
/-- Address of `PWR_WAKE_EN` (spec/16 R685,R686). -/
def A.PWR_WAKE_EN : Nat := 0x40100030
/-- Address of `PWR_WAKEIN_CFG` (spec/16 R685). -/
def A.PWR_WAKEIN_CFG : Nat := 0x40100034
/-- Address of `PWR_WAKE_CAUSE` (spec/16 R687). -/
def A.PWR_WAKE_CAUSE : Nat := 0x40100038
/-- Address of `PWR_WAKE_SRC` (spec/16 R687). -/
def A.PWR_WAKE_SRC : Nat := 0x4010003C
/-- Address of `PWR_WAKE_LT_LO` (spec/16 R688). -/
def A.PWR_WAKE_LT_LO : Nat := 0x40100040
/-- Address of `PWR_WAKE_LT_HI` (spec/16 R688). -/
def A.PWR_WAKE_LT_HI : Nat := 0x40100044
/-- Address of `PWR_RTC_ALARM_LO` (spec/16 R686). -/
def A.PWR_RTC_ALARM_LO : Nat := 0x40100048
/-- Address of `PWR_RTC_ALARM_HI` (spec/16 R686). -/
def A.PWR_RTC_ALARM_HI : Nat := 0x4010004C
/-- Address of `PWR_WAKE_T` (spec/16 R693). -/
def A.PWR_WAKE_T (i : Nat) : Nat := 0x40100050 + i * 0x4
/-- Address of `PWR_PMIC_CFG` (spec/16 R695,R697). -/
def A.PWR_PMIC_CFG : Nat := 0x40100060
/-- Address of `PWR_PMIC_VMAP` (spec/16 R698). -/
def A.PWR_PMIC_VMAP : Nat := 0x40100064
/-- Address of `PWR_AVS_CFG` (spec/16 R698). -/
def A.PWR_AVS_CFG : Nat := 0x40100068
/-- Address of `PWR_AVS_STATUS` (spec/16 R699,R700). -/
def A.PWR_AVS_STATUS : Nat := 0x4010006C
/-- Address of `PWR_IDLE_CFG` (spec/16 R670). -/
def A.PWR_IDLE_CFG : Nat := 0x40100070
/-- Address of `parks` (spec/16 R704). -/
def A.parks : Nat := 0x40100100
/-- Address of `park_abandoned` (spec/16 R704). -/
def A.park_abandoned : Nat := 0x40100108
/-- Address of `park_refused` (spec/16 R704). -/
def A.park_refused : Nat := 0x40100110
/-- Address of `drain_aborts` (spec/16 R704). -/
def A.drain_aborts : Nat := 0x40100118
/-- Address of `pmic_faults` (spec/16 R704). -/
def A.pmic_faults : Nat := 0x40100120
/-- Address of `DBG_IRQ_STATUS` (spec/17 R736). -/
def A.DBG_IRQ_STATUS : Nat := 0x41500000
/-- Address of `DBG_IRQ_ENABLE` (spec/17 R736). -/
def A.DBG_IRQ_ENABLE : Nat := 0x41500004
/-- Address of `DBG_ERR_CAPTURE` (spec/00 R836, 17 R736). -/
def A.DBG_ERR_CAPTURE : Nat := 0x41500008
/-- Address of `DBG_ERR_CLR` (spec/00 R836). -/
def A.DBG_ERR_CLR : Nat := 0x4150000C
/-- Address of `DBG_LC_STATUS` (spec/17 R730). -/
def A.DBG_LC_STATUS : Nat := 0x41500010
/-- Address of `DBG_LC_CMD` (spec/17 R731,R734). -/
def A.DBG_LC_CMD : Nat := 0x41500014
/-- Address of `DBG_AUTH_ADDR_LO` (spec/17 R734). -/
def A.DBG_AUTH_ADDR_LO : Nat := 0x41500018
/-- Address of `DBG_AUTH_ADDR_HI` (spec/17 R734). -/
def A.DBG_AUTH_ADDR_HI : Nat := 0x4150001C
/-- Address of `DBG_AUTH_STATUS` (spec/17 R734). -/
def A.DBG_AUTH_STATUS : Nat := 0x41500020
/-- Address of `DBG_SESSION_LEFT` (spec/17 R722). -/
def A.DBG_SESSION_LEFT : Nat := 0x41500024
/-- Address of `DBG_SESSION_NUM` (spec/17 R722). -/
def A.DBG_SESSION_NUM : Nat := 0x41500028
/-- Address of `DBG_NONCE` (spec/17 R735). -/
def A.DBG_NONCE (i : Nat) : Nat := 0x41500040 + i * 0x4
/-- Address of `tokens_ok` (spec/17 R736). -/
def A.tokens_ok : Nat := 0x41500100
/-- Address of `tokens_refused` (spec/17 R736). -/
def A.tokens_refused : Nat := 0x41500108
/-- Address of `sessions` (spec/17 R736). -/
def A.sessions : Nat := 0x41500110
/-- Address of `splits` (spec/17 R736). -/
def A.splits : Nat := 0x41500118
/-- Address of `PAIR_IRQ_STATUS` (spec/18 R768). -/
def A.PAIR_IRQ_STATUS : Nat := 0x41100000
/-- Address of `PAIR_IRQ_ENABLE` (spec/18 R768). -/
def A.PAIR_IRQ_ENABLE : Nat := 0x41100004
/-- Address of `PAIR_ERR_CAPTURE` (spec/00 R836, 18 R768). -/
def A.PAIR_ERR_CAPTURE : Nat := 0x41100008
/-- Address of `PAIR_ERR_CLR` (spec/00 R836). -/
def A.PAIR_ERR_CLR : Nat := 0x4110000C
/-- Address of `PAIR_CFG` (spec/18 R745). -/
def A.PAIR_CFG : Nat := 0x41100010
/-- Address of `PAIR_PORTS` (spec/18 R762). -/
def A.PAIR_PORTS : Nat := 0x41100014
/-- Address of `PAIR_CHANNELS` (spec/18 R762). -/
def A.PAIR_CHANNELS : Nat := 0x41100018
/-- Address of `PAIR_DIGEST_PORTS` (spec/18 R755). -/
def A.PAIR_DIGEST_PORTS : Nat := 0x4110001C
/-- Address of `PAIR_PN_SKIP_LO` (spec/18 R761). -/
def A.PAIR_PN_SKIP_LO : Nat := 0x41100020
/-- Address of `PAIR_PN_SKIP_HI` (spec/18 R761). -/
def A.PAIR_PN_SKIP_HI : Nat := 0x41100024
/-- Address of `PAIR_FRESH_SKIP_LO` (spec/18 R761). -/
def A.PAIR_FRESH_SKIP_LO : Nat := 0x41100028
/-- Address of `PAIR_FRESH_SKIP_HI` (spec/18 R761). -/
def A.PAIR_FRESH_SKIP_HI : Nat := 0x4110002C
/-- Address of `PAIR_TIMING` (spec/18 R743-R765). -/
def A.PAIR_TIMING : Nat := 0x41100030
/-- Address of `PAIR_CTRL` (spec/18 R738). -/
def A.PAIR_CTRL : Nat := 0x41100034
/-- Address of `PAIR_CMD` (spec/18 R765,R766). -/
def A.PAIR_CMD : Nat := 0x41100038
/-- Address of `PAIR_STATUS` (spec/18 R738-R760). -/
def A.PAIR_STATUS : Nat := 0x4110003C
/-- Address of `PAIR_DELTA_LO` (spec/18 R754). -/
def A.PAIR_DELTA_LO : Nat := 0x41100040
/-- Address of `PAIR_DELTA_HI` (spec/18 R754). -/
def A.PAIR_DELTA_HI : Nat := 0x41100044
/-- Address of `PAIR_PARTNER_VER` (spec/18 R753). -/
def A.PAIR_PARTNER_VER : Nat := 0x41100048
/-- Address of `bundles_sent` (spec/18 R768). -/
def A.bundles_sent : Nat := 0x41100100
/-- Address of `bundles_applied` (spec/18 R768). -/
def A.bundles_applied : Nat := 0x41100108
/-- Address of `pair_mismatches` (spec/18 R768). -/
def A.pair_mismatches : Nat := 0x41100110
/-- Address of `unresolved_total` (spec/18 R768). -/
def A.unresolved_total : Nat := 0x41100118
/-- Address of `missing` (spec/18 R768). -/
def A.missing : Nat := 0x41100120
/-- Address of `takeovers` (spec/18 R768). -/
def A.takeovers : Nat := 0x41100128
/-- Address of `standby_discard` (spec/18 R768). -/
def A.standby_discard : Nat := 0x41100130
/-- Address of `link_crc_err` (spec/18 R768). -/
def A.link_crc_err : Nat := 0x41100138
/-- Address of `full_syncs` (spec/18 R768). -/
def A.full_syncs : Nat := 0x41100140
/-- Address of `CFG_IRQ_STATUS` (spec/19 R797). -/
def A.CFG_IRQ_STATUS : Nat := 0x41400000
/-- Address of `CFG_IRQ_ENABLE` (spec/19 R797). -/
def A.CFG_IRQ_ENABLE : Nat := 0x41400004
/-- Address of `CFG_ERR_CAPTURE` (spec/00 R836, 19 R797). -/
def A.CFG_ERR_CAPTURE : Nat := 0x41400008
/-- Address of `CFG_ERR_CLR` (spec/00 R836). -/
def A.CFG_ERR_CLR : Nat := 0x4140000C
/-- Address of `CFG_CMD` (spec/19 R780-R792). -/
def A.CFG_CMD : Nat := 0x41400010
/-- Address of `CFG_STATUS` (spec/19 R797). -/
def A.CFG_STATUS : Nat := 0x41400014
/-- Address of `CFG_IMG_ADDR_LO` (spec/19 R797). -/
def A.CFG_IMG_ADDR_LO : Nat := 0x41400018
/-- Address of `CFG_IMG_ADDR_HI` (spec/19 R797). -/
def A.CFG_IMG_ADDR_HI : Nat := 0x4140001C
/-- Address of `CFG_ACT_CFG` (spec/19 R788). -/
def A.CFG_ACT_CFG : Nat := 0x41400020
/-- Address of `CFG_ACT_CYCLE_LO` (spec/19 R788). -/
def A.CFG_ACT_CYCLE_LO : Nat := 0x41400024
/-- Address of `CFG_ACT_CYCLE_HI` (spec/19 R788). -/
def A.CFG_ACT_CYCLE_HI : Nat := 0x41400028
/-- Address of `CFG_CHECK` (spec/19 R784). -/
def A.CFG_CHECK : Nat := 0x4140002C
/-- Address of `CFG_VER_A` (spec/19 R789). -/
def A.CFG_VER_A : Nat := 0x41400030
/-- Address of `CFG_VER_B` (spec/19 R789). -/
def A.CFG_VER_B : Nat := 0x41400034
/-- Address of `CFG_FLOOR` (spec/19 R792). -/
def A.CFG_FLOOR : Nat := 0x41400038
/-- Address of `CFG_ACT_LT_LO` (spec/19 R789). -/
def A.CFG_ACT_LT_LO : Nat := 0x41400040
/-- Address of `CFG_ACT_LT_HI` (spec/19 R789). -/
def A.CFG_ACT_LT_HI : Nat := 0x41400044
/-- Address of `CFG_PEND_LO` (spec/19 R788). -/
def A.CFG_PEND_LO : Nat := 0x41400048
/-- Address of `CFG_PEND_HI` (spec/19 R788). -/
def A.CFG_PEND_HI : Nat := 0x4140004C
/-- Address of `CFG_FW_CMD` (spec/19 R794,R795). -/
def A.CFG_FW_CMD : Nat := 0x41400100
/-- Address of `CFG_FW_ADDR_LO` (spec/19 R794). -/
def A.CFG_FW_ADDR_LO : Nat := 0x41400104
/-- Address of `CFG_FW_ADDR_HI` (spec/19 R794). -/
def A.CFG_FW_ADDR_HI : Nat := 0x41400108
/-- Address of `CFG_FW_STATUS` (spec/19 R794). -/
def A.CFG_FW_STATUS : Nat := 0x4140010C
/-- Address of `CFG_BOOT_STATUS` (spec/19 R774). -/
def A.CFG_BOOT_STATUS : Nat := 0x41400200
/-- Address of `CFG_BOOT_CMD` (spec/19 R775). -/
def A.CFG_BOOT_CMD : Nat := 0x41400204
/-- Address of `CFG_TRIAD_GO` (spec/19 R776). -/
def A.CFG_TRIAD_GO : Nat := 0x41400208
/-- Address of `loads` (spec/19 R797). -/
def A.loads : Nat := 0x41400300
/-- Address of `load_fail` (spec/19 R797). -/
def A.load_fail : Nat := 0x41400308
/-- Address of `activations` (spec/19 R797). -/
def A.activations : Nat := 0x41400310
/-- Address of `rollbacks` (spec/19 R797). -/
def A.rollbacks : Nat := 0x41400318
/-- Address of `fw_restarts` (spec/19 R797). -/
def A.fw_restarts : Nat := 0x41400320
/-- Address of `GLB_IRQ_STATUS` (spec/20 R807). -/
def A.GLB_IRQ_STATUS : Nat := 0x40000000
/-- Address of `GLB_IRQ_ENABLE` (spec/20 R807). -/
def A.GLB_IRQ_ENABLE : Nat := 0x40000004
/-- Address of `GLB_ERR_CAPTURE` (spec/00 R836, 20 R807). -/
def A.GLB_ERR_CAPTURE : Nat := 0x40000008
/-- Address of `GLB_ERR_CLR` (spec/00 R836). -/
def A.GLB_ERR_CLR : Nat := 0x4000000C
/-- Address of `GLB_CHIP_ID` (spec/20 R803). -/
def A.GLB_CHIP_ID : Nat := 0x40000010
/-- Address of `GLB_REV` (spec/20 R803). -/
def A.GLB_REV : Nat := 0x40000014
/-- Address of `GLB_GRADE` (spec/20 R803). -/
def A.GLB_GRADE : Nat := 0x40000018
/-- Address of `GLB_STRAP` (spec/20 R803). -/
def A.GLB_STRAP : Nat := 0x4000001C
/-- Address of `GLB_PCI_VID` (spec/20 R803). -/
def A.GLB_PCI_VID : Nat := 0x40000020
/-- Address of `GLB_PCI_DID` (spec/20 R803). -/
def A.GLB_PCI_DID : Nat := 0x40000024
/-- Address of `GLB_RST_CMD` (spec/20 R805). -/
def A.GLB_RST_CMD : Nat := 0x40000030
/-- Address of `GLB_RST_CAUSE` (spec/20 R806). -/
def A.GLB_RST_CAUSE : Nat := 0x40000034
/-- Address of `GLB_CLK_STATUS` (spec/20 R807). -/
def A.GLB_CLK_STATUS : Nat := 0x40000040
/-- Address of `GLB_IRQ_SUMMARY` (spec/20 R808). -/
def A.GLB_IRQ_SUMMARY : Nat := 0x40000100
/-- Address of `GLB_IRQ_ROUTE_H0` (spec/20 R812). -/
def A.GLB_IRQ_ROUTE_H0 : Nat := 0x40000110
/-- Address of `GLB_IRQ_PEND_H0` (spec/20 R808,R810). -/
def A.GLB_IRQ_PEND_H0 : Nat := 0x40000130
/-- Address of `GLB_IRQ_ROUTE_H1` (spec/20 R812). -/
def A.GLB_IRQ_ROUTE_H1 : Nat := 0x40000114
/-- Address of `GLB_IRQ_PEND_H1` (spec/20 R808,R810). -/
def A.GLB_IRQ_PEND_H1 : Nat := 0x40000134
/-- Address of `GLB_IRQ_ROUTE_CPU` (spec/20 R812). -/
def A.GLB_IRQ_ROUTE_CPU : Nat := 0x40000118
/-- Address of `GLB_IRQ_PEND_CPU` (spec/20 R808,R810). -/
def A.GLB_IRQ_PEND_CPU : Nat := 0x40000138
/-- Address of `GLB_IRQ_ROUTE_TRIAD` (spec/20 R812). -/
def A.GLB_IRQ_ROUTE_TRIAD : Nat := 0x4000011C
/-- Address of `GLB_IRQ_PEND_TRIAD` (spec/20 R808,R810). -/
def A.GLB_IRQ_PEND_TRIAD : Nat := 0x4000013C

end Sys2Proof.Machine
end

