-- ==== Sys2Proof/Machine/State.lean ====
section
/-! DEFINITION. The state of the VXG-8640 as plain data: everything that the manual gives the device to hold. Registers are one
sparse word file keyed by address (their map is `Sys2Proof/Machine/RegMap.lean`); queues, tables, sequencers and status that
the manual describes outside the registers are the structures below. Times are LT counts of 250 ps. -/

namespace Sys2Proof.Machine

/-! ### Records, outputs and the Ledger -/

/-- A Ledger record before the Ledger accepts it (R638): type, source ID, LT of the event, payload bytes 20-31. -/
structure Rec where
  typ : Nat
  src : Nat
  lt : Nat
  pay : List Byte
deriving DecidableEq, Repr

/-- What the device shows the outside world. Outputs are kept in order, newest last; no rule reads them. -/
inductive Out where
  /-- Data returned to an initiator by a read of an address. -/
  | read (who addr : Nat) (data : Word)
  /-- An open access that ended with an error (R616): 1 ERR_DECODE, 2 ERR_TARGET. -/
  | busError (who addr err : Nat)
  /-- A frame sent on a port with its egress stamp; `stomped` as in R57. -/
  | frame (port : Nat) (bytes : List Byte) (stomped : Bool) (stamp : Nat)
  /-- A memory write by DMA: space 0 H0, 1 H1, 2 internal (R590). -/
  | memWrite (space addr : Nat) (bytes : List Byte)
  /-- A completion record posted to a completion ring (R570). -/
  | completion (ring : Nat) (bytes : List Byte)
  /-- An MSI-X message of a function (R573, R811). -/
  | msix (fn vec : Nat)
  /-- A signal, pulse or level on a pin or wire, by name, with its value. -/
  | pin (name : String) (value : Nat)
  /-- A CAN or LIN frame driven on a channel: channel; identifier, format and acceptance words as in R455, with the XL SEC bit above the format
  word; data, for LIN the response with its checksum. -/
  | bus (channel ident kind af : Nat) (data : List Byte)
  /-- The header of a LIN frame: channel, bits of the break, protected identifier (R490). -/
  | linHeader (channel brk pid : Nat)
  /-- A section of a bundle, or a notice, sent on the Clearing link (R749). -/
  | link (kind : Nat) (data : List Byte)
  /-- A write to the external PMIC (R697). -/
  | pmic (reg value : Nat)
  /-- The result of an atomic or exclusive access returned to a hart (R622-R625). -/
  | hartResult (hart : Nat) (data : Word) (ok : Bool)
deriving DecidableEq, Repr

/-- An export buffer being filled (R659). -/
structure ExportBuf where
  desc : Nat
  addr : Nat
  cap : Nat
  count : Nat
  firstLt : Nat
  partner : Bool
  firstSeq : Nat
  lastSeq : Nat
  seqs : List (Bool × Nat)
deriving DecidableEq, Repr

/-- The Ledger (15): queues, SRAM slots, numbering, export. -/
structure LedgerSt where
  /-- Event queue, 256 records (R644). -/
  evtQ : List Rec := []
  /-- Frame FIFO, 64 records (R643). -/
  frmQ : List Rec := []
  /-- Local slots: slot number to sequence number and record (R653). -/
  loc : List (Nat × Nat × Rec) := []
  /-- Partner slots (R653, R663). -/
  par : List (Nat × Nat × Rec) := []
  /-- Sequence number of the next record; `none` until LEDGER_START sets it (R649). -/
  nextSeq : Option Nat := none
  /-- LT of the latest frame record accepted (R643). -/
  lastFrame : Option Nat := none
  /-- LT of the latest acceptance: the Ledger accepts one record in a cycle (R645). -/
  taken : Option Nat := none
  /-- LT of the latest TIME_ANCHOR (R646). -/
  lastAnchor : Option Nat := none
  /-- A LEDGER_START is due, with its cause (R649, R650). -/
  startDue : Option Nat := some 0
  /-- The TIME_ANCHORs that are due (R646): of each, how many event records in the queue precede it. -/
  anchors : List Nat := []
  /-- Unexported records in the order they became so: partner flag and sequence number (R654, R659). -/
  unexp : List (Bool × Nat) := []
  /-- Counts since the latest LEDGER_LOST: frame records discarded, overwritten, event records lost (R647). -/
  lostF : Nat := 0
  lostO : Nat := 0
  lostE : Nat := 0
  /-- The 1 ms window in which the latest LEDGER_LOST was written (R647). -/
  lostWin : Option Nat := none
  /-- The export buffer in progress (R659). -/
  exp : Option ExportBuf := none
  /-- Records overwritten since the previous export completion (R660). -/
  ovrSince : Nat := 0
  /-- Event records accepted in the present pair cycle, oldest first, at most 4,096 (R662). -/
  cycleRecs : List (Nat × Rec) := []
deriving DecidableEq, Repr

/-! ### BRG and SAFE (14) -/

/-- An entry of the SAFE error collector (R627). -/
structure SafeEnt where
  lt : Nat
  src : Nat
  code : Nat
  sev : Nat
  info : Nat
  reacted : Bool
deriving DecidableEq, Repr

/-- The SAFE error collector and the FAULT pin (14). -/
structure SafeSt where
  /-- Queue of 64 entries, head first (R627). -/
  q : List SafeEnt := []
  /-- Sticky overflow (R630). -/
  overflow : Bool := false
  /-- FAULT asserted (R633). -/
  fault : Bool := true
  /-- Cause of the last assertion, as in FAULT_CHANGE (R635). -/
  cause : Nat := 0
  /-- LT at which FAULT was last asserted (R634). -/
  since : Nat := 0
deriving DecidableEq, Repr

/-- An entry of the posted-write error queue (R618-R620). -/
structure PweEnt where
  lt : Nat
  addr : Nat
  data : Word
  who : Nat
  code : Nat
  seq : Nat
deriving DecidableEq, Repr

/-- A semaphore monitor of BRG: hart, word address, LT of arming, and whether an AMO locks it (R622-R625). -/
structure Monitor where
  hart : Nat
  addr : Nat
  armed : Nat
  locked : Bool
deriving DecidableEq, Repr

/-- The peripheral bridge (14). -/
structure BrgSt where
  monitors : List Monitor := []
  pwe : List PweEnt := []
  /-- Count of all entries made since cold reset, lost ones included (R620). -/
  seq : Nat := 0
  /-- LT of the first cycle in which BRG takes its next access: it takes one in a cycle (R612). -/
  next : Nat := 0
  /-- The latest 16 posted writes, oldest first: initiator, and LT at which the target's response lets the write leave the write buffer (R617);
  and how many posted writes there were. -/
  buf : List (Nat × Nat) := []
  posted : Nat := 0
deriving DecidableEq, Repr

/-! ### Front ports (02) -/

/-- A stored coefficient set (R46): its check bits are good, speed and role of the link, the coefficients and the timing-recovery phase. -/
structure Coeffs where
  good : Bool
  speed : Nat
  role : Nat
  coeff : Nat
  phase : Nat
deriving DecidableEq, Repr

/-- What a front port holds beside its registers (02). -/
structure PortSt where
  /-- LT at which the present link-up attempt began (R64). -/
  attempt : Option Nat := none
  /-- LT at which Clause 72 training started (R39). -/
  train : Option Nat := none
  /-- Consecutive training failures (R64). -/
  fails : Nat := 0
  /-- LT at which training restarts after a failure (R39). -/
  retrain : Option Nat := none
  /-- LT at which the TC10 sleep handshake started (R43, R44). -/
  shake : Option Nat := none
  /-- Equaliser and echo-canceller coefficients and timing-recovery phase to which the present or latest link was trained (R46). -/
  trained : Nat × Nat := (0, 0)
  /-- Stored coefficient set (R46, R47). -/
  stored : Option Coeffs := none
  /-- A sleep handshake was abandoned while the link was up: its next loss relinks from the coefficients that the PHY holds (R44). -/
  keep : Bool := false
  /-- LT at which warm training started (R48). -/
  warm : Option Nat := none
  /-- The PHY is in its low-power state and its wake detector is armed (R43). -/
  asleep : Bool := false
  /-- The in-band word holds the link down (R38); the speed code that the latest word named. -/
  refused : Bool := false
  word : Nat := 0
  /-- The present link-up attempt fell back from a warm start (R48). -/
  fellBack : Bool := false
  /-- Register writes held while the PHY domain is off (R70): initiator, address, data, oldest first. -/
  held : List (Nat × Nat × Word) := []
deriving DecidableEq, Repr

/-! ### The frame path (03, 04, 06, 07) -/

/-- The fields that the parser extracts from a head (R124); a field of an absent header is 0 (R130). -/
structure Head where
  da : Nat := 0
  sa : Nat := 0
  tags : Nat := 0
  ovid : Nat := 0
  opcp : Nat := 0
  odei : Nat := 0
  ivid : Nat := 0
  ipcp : Nat := 0
  etype : Nat := 0
  /-- Bytes of the MAC header, VLAN tags included (R121). -/
  mac : Nat := 0
  v6 : Bool := false
  ipSrc : Nat := 0
  ipDst : Nat := 0
  proto : Nat := 0
  dscp : Nat := 0
  ecn : Nat := 0
  ttl : Nat := 0
  tclass : Nat := 0
  flow : Nat := 0
  /-- Declared length from the IP length field, 0 when there is none (R82). -/
  ipLen : Nat := 0
  sport : Nat := 0
  dport : Nat := 0
  tcpFlags : Nat := 0
  icmp : Nat := 0
  service : Nat := 0
  method : Nat := 0
  mtype : Nat := 0
  subtype : Nat := 0
  streamId : Nat := 0
  acfBus : Nat := 0
  acfIde : Nat := 0
  acfFd : Nat := 0
  acfId : Nat := 0
deriving DecidableEq, Repr

/-- Where a frame stands on its way to the lane decision (03, "Instants in a frame's life"). -/
inductive FPhase where
  /-- Bytes arriving, head not ready. -/
  | arriving
  /-- Head ready, lane not yet selected. -/
  | headReady
  /-- Waiting in the port's head queue for a lane (R75). -/
  | headQueue
  /-- In the lane's input FIFO or pipeline. -/
  | lane
  /-- Lane decision taken. -/
  | decided
deriving DecidableEq, Repr

/-- A copy that the lane decision asks for: egress port, class, one of several copies (R847), mirror copy (R142), ECN mark
requested (R144), R-TAG operation: 0 none, 1 insert or replace, 2 remove (R340). -/
structure Dest where
  port : Nat
  tc : Nat
  multi : Bool := false
  mirror : Bool := false
  mark : Bool := false
  tag : Nat := 0
deriving DecidableEq, Repr

/-- A frame that the device holds. -/
structure Frame where
  id : Nat
  /-- Ingress switch port. -/
  port : Nat
  /-- Ingress stamp (R60), and LT of the first byte. -/
  stamp : Nat
  t0 : Nat
  /-- Bytes from the destination address to before the FCS, MACsec removed. -/
  bytes : List Byte
  /-- Frame length, FCS included; known to the device once the tail has arrived. -/
  len : Nat
  /-- LT at which the tail's FCS check is done; `none` when the frame never ends by itself. -/
  tailAt : Option Nat
  fcsOk : Bool
  /-- The frame exceeds `max_frame` and ends truncated at its limit (R54). -/
  tooLong : Bool
  /-- MACsec removed and verified (R123). -/
  secured : Bool
  phase : FPhase := .arriving
  /-- LT at which the head entered its head queue (R75). -/
  queued : Nat := 0
  head : Head := {}
  /-- Metadata word (R131). -/
  md : Nat := 0
  /-- Flow hash (R88). -/
  hash : Nat := 0
  /-- Declared length (R82). -/
  decl : Nat := 0
  lane : Nat := 0
  /-- The tail is verified (R79). -/
  verified : Bool := false
  /-- No further copy of the frame may be made or sent: dropped, truncated or bad (R86, R115, R224). -/
  dead : Bool := false
  /-- The port has finished with the frame: its tail was checked, or it was truncated. -/
  ended : Bool := false
  /-- Copies decided that are not admitted yet: those of the present cycle, and store-and-forward ones that wait for the tail (R79). -/
  waiting : List Dest := []
  /-- Sequence number given by a generation function (R340). -/
  seqNum : Nat := 0
  /-- Frame was handed over by a host with a stamp request and cookie (R309). -/
  tsReq : Bool := false
  /-- Reason of the TRAP verdict that sent the frame to port 22 (R138, R588). -/
  trap : Option Nat := none
deriving DecidableEq, Repr

/-- The state of a copy in an egress queue. -/
inductive CopySt where
  /-- Waiting for a grant. -/
  | queued
  /-- A void entry that only holds its charge (R252). -/
  | void
  /-- In transmission. -/
  | sending
  /-- Preempted between fragments (R328). -/
  | suspended
deriving DecidableEq, Repr

/-- A copy of a frame in an egress queue, or in transmission. Copies of one queue stand in enqueue order (R96). -/
structure Copy where
  fid : Nat
  port : Nat
  tc : Nat
  /-- Ingress port and stamp of the frame. -/
  inPort : Nat
  stamp : Nat
  /-- Queued length in bytes, FCS included (R272, R341). -/
  len : Nat
  /-- Cells charged to the queue (R234, R235). -/
  charge : Nat
  /-- Leaves by cut-through (R78). -/
  cut : Bool
  /-- One of several copies of its frame (R847). -/
  multi : Bool
  /-- A mirror copy (R142). -/
  mirror : Bool
  /-- ECN mark requested (R144, R242). -/
  mark : Bool
  /-- R-TAG operation: 0 none, 1 insert or replace, 2 remove (R340). -/
  tag : Nat
  st : CopySt := .queued
  /-- LT of the grant, and LT at which the port starts to send the first byte (R848). -/
  grant : Nat := 0
  start : Nat := 0
  /-- Egress stamp of the first fragment (R61). -/
  stampTx : Nat := 0
  /-- Counted length fixed at the grant (R274). -/
  counted : Nat := 0
  /-- MACsec association number and packet number taken at the grant (R386). -/
  sec : Option (Nat × Nat) := none
  /-- Whether the present shaper and Purse state was debited for this copy (R293). -/
  owedS : Bool := false
  /-- Frame bytes sent in earlier fragments, and left while suspended (R328). -/
  sent : Nat := 0
  left : Nat := 0
  /-- What would make an overrun of this copy, as in GATE_OVERRUN; 0 nothing yet (R325). -/
  cause : Nat := 0
  owedP : Bool := false
deriving DecidableEq, Repr

/-- A bucket of the lane selector that differs from its reset state (R92, R93). -/
structure Bucket where
  lane : Nat
  stamp : Nat
  inflight : Nat
  /-- A `return_all` write marked it (R106). -/
  marked : Bool
  /-- LT of arrival on a lane during a slow episode without becoming eligible. -/
  seen : Bool
deriving DecidableEq, Repr

/-- A forwarding lane (R75, R99-R108). -/
structure LaneSt where
  /-- Heads in the input FIFO, oldest first: frame and bucket (R75). -/
  fifo : List (Nat × Nat) := []
  /-- Heads that the pipeline has accepted, oldest first: frame, bucket and LT of the acceptance. -/
  pipe : List (Nat × Nat × Nat) := []
  /-- LT from which the pipeline accepts its next head: one every two cycles, and one cycle more for each repeated read (R179). -/
  free : Nat := 0
  /-- Reads that were repeated with a corrected word in the latest 20 µs: LT and number (R179, R108). -/
  retries : List (Nat × Nat) := []
  slow : Bool := false
  /-- Start of the present run at or above `slow_thr` (R99). -/
  above : Option Nat := none
  /-- Start of the present run below `clear_thr` (R100). -/
  below : Option Nat := none
  /-- LT at which the lane was last cleared; `none` while it has been clear since reset (R105). -/
  clearAt : Option Nat := none
  /-- Buckets moved off during the episode (R108). -/
  moved : Nat := 0
  /-- `pinned_frames` when the episode began. -/
  pinned0 : Nat := 0
deriving DecidableEq, Repr

/-- The tables of one configuration bank (R172): entries by index, as the numbers their bytes spell. -/
structure Tables where
  s0 : List (Nat × Nat) := []
  s1 : List (Nat × Nat) := []
  tcam : List (Nat × Nat) := []
  filter : List (Nat × Nat) := []
  gate : List (Nat × Nat) := []
  meter : List (Nat × Nat) := []
  mcast : List (Nat × Nat) := []
  window : List (Nat × Nat) := []
  sched : List (Nat × Nat) := []
deriving DecidableEq, Repr

/-- The bucket levels of a meter and the latest ingress stamp it has seen (R166, R170). Levels are in units of
1/32,000,000 byte, in which a rate in kb/s adds itself once for each LT count. -/
structure MeterSt where
  c : Nat
  p : Nat
  last : Nat
deriving DecidableEq, Repr

/-- A connection-tracking entry (R214). -/
structure CtEnt where
  oSrc : Nat
  oDst : Nat
  oSport : Nat
  oDport : Nat
  proto : Nat
  v6 : Bool
  finByResp : Bool
  state : Nat
  oZone : Nat
  rZone : Nat
  lastSeen : Nat
  created : Nat
  fOrig : Nat
  fResp : Nat
deriving DecidableEq, Repr

/-- A head that reaches its lane decision in the present cycle: lane, frame, bucket, LT of its entry into stage 0, what its lookups met:
a table and index with a double-symbol error (R180), a way of the connection-tracking bucket with one (R210), and a hash that disagrees. -/
structure LaneDec where
  lane : Nat
  fid : Nat
  bucket : Nat
  s0 : Nat
  ecc : Option (Nat × Nat)
  ctEcc : Option Nat
  fault : Bool
deriving DecidableEq, Repr

/-- A table entry as it stood before a write: LT of the commit cycle, bank, table, index, old entry (R173). -/
structure TblPast where
  lt : Nat
  bank : Nat
  k : Nat
  i : Nat
  old : Nat
deriving DecidableEq, Repr

/-- Parser, lanes, tables, firewall (03, 04, 05). -/
structure PrsSt where
  lanes : List LaneSt := List.replicate 4 {}
  /-- Buckets not in their reset state. -/
  buckets : List (Nat × Bucket) := []
  /-- Hash seed and configuration in use; loaded at the first commit (R90). -/
  seed : Nat := 0xFFFFFFFF
  hashCfg : Nat := 0
  /-- Distribution tables: members of each group in force (R111). -/
  lag : List (List Nat) := List.replicate 8 []
  /-- The tables of banks A and B. -/
  tabA : Tables := {}
  tabB : Tables := {}
  /-- Run-time states shared by the banks (R176). -/
  blocked : List Nat := []
  latched : List Nat := []
  allRed : List Nat := []
  meters : List (Nat × MeterSt) := []
  /-- Connection tracking entries by index (R198). -/
  ct : List (Nat × CtEnt) := []
  /-- Connection-tracking and table entries that changed since the latest pair snapshot (R749): indices, and table × 2^16 + index. -/
  ctDirty : List Nat := []
  tblDirty : List Nat := []
  /-- Window and count of the records written in the present 1 ms window: window number and count (R219). -/
  logWin : Nat × Nat := (0, 0)
  /-- Lane decisions of the present cycle, which end with it (R77, R164). -/
  dec : List LaneDec := []
  /-- Table entries changed within the time a head takes through its lane, newest first (R173). -/
  past : List TblPast := []
  /-- Table entries, as table × 2^16 + index, whose memory holds a single-symbol error that a lookup corrected (R179, R181). -/
  soft : List Nat := []
deriving DecidableEq, Repr

/-- The state of a switch port in TM (R253). -/
inductive TmPort where
  | up
  /-- HOLD, with the LT at which the hold timer expires. -/
  | hold (until_ : Nat)
  | down
deriving DecidableEq, Repr

/-- A credit-based shaper that is enabled (R281, R290): configuration taken at the effect cycle and credit, in units of
1/32,000,000 byte. -/
structure Shaper where
  slope : Nat
  hi : Nat
  refill : Nat
  credit : Int
deriving DecidableEq, Repr

/-- A Purse that is enabled (R286, R290). -/
structure Purse where
  rate : Nat
  burst : Nat
  refill : Nat
  tokens : Int
deriving DecidableEq, Repr

/-- The scheduler of one port (07). -/
structure SchSt where
  deficit : List Int := List.replicate 8 0
  opens : List Bool := List.replicate 8 false
  /-- Class that the weighted pointer names (R276). -/
  ptr : Nat := 4
  lastClass : Nat := 0
  /-- LT of the latest change of the port's rate while its link is up, and the rate in kb/s before it (R283). -/
  rateWas : Option (Nat × Nat) := none
  shapers : List (Nat × Shaper) := []
  purse : Option Purse := none
  /-- LT from which the copy at the head of each class is its head (R246). -/
  headAt : List Nat := List.replicate 8 0
  /-- LT at which the gap after the latest transmission ends, and the class of that transmission (R848). -/
  gapTill : Nat := 0
  gapTc : Nat := 0
deriving DecidableEq, Repr

/-- Buffer, queues and schedulers (06, 07). -/
structure TmSt where
  frames : List Frame := []
  copies : List Copy := []
  nextId : Nat := 0
  ports : List TmPort := List.replicate 24 .down
  sch : List SchSt := List.replicate 24 {}
  /-- Retired cell pointers (R228). -/
  retired : List Nat := []
  /-- Single-symbol errors that the latest scrub pass found: cell and symbol (R228). -/
  single : List (Nat × Nat) := []
  /-- Cells that are retired when freed (R228): the cell, plus 65,536 for a repeated single-symbol error, plus 131,072 × bank, and
the owning frame. -/
  doomed : List (Nat × Nat) := []
  /-- Next cell the scrubber reads, the LT at which it is due, and LT of the latest read (R225, R334). -/
  scrub : Nat := 0
  scrubDue : Nat := 0
  scrubAt : Nat := 0
  /-- Single-symbol errors that the scrubber has found and not written back: cell, and codeword × 36 + symbol (R226). -/
  errs : List (Nat × Nat) := []
  logWin : Nat × Nat := (0, 0)
  /-- Copies that come to admission at the end of the present cycle: frame, port, and whether at its lane decision (R97, R239). -/
  adm : List (Nat × Nat × Bool) := []
  /-- The latest ingress stamp of each switch port, plus 1; 0 for a port that has stamped none (R73). -/
  stamps : List Nat := List.replicate 24 0
  /-- Ports 20-23 whose owning block accepts a frame (R265). -/
  accepts : List Bool := List.replicate 24 true
deriving DecidableEq, Repr

/-! ### Time and gates (08). Times of clocks are in units of 2^-42 ns since the PTP epoch. -/

/-- A domain clock: its mapping and the LT of the latest rate write or offset command (R301, R307). `T` is in 2^-16 ns. -/
structure DomClk where
  L : Nat := 0
  T : Int := 0
  rho : Int := 0
  steered : Option Nat := none
deriving DecidableEq, Repr

/-- An entry of `TIME_TXTS` (R309): port, stamp, and messageType, sequenceId and domainNumber of a PTP frame. -/
structure Txts where
  port : Nat
  stamp : Nat
  ptp : Option (Nat × Nat × Nat)
deriving DecidableEq, Repr

/-- The TIME block. -/
structure TimeSt where
  dom : List DomClk := [{}, {}]
  /-- Working offset at `wAt`, in 2^-42 ns (R304). -/
  w : Int := 0
  wAt : Nat := 0
  slewing : Bool := false
  /-- LT of the latest step of working time (R322). -/
  stepAt : Option Nat := none
  holdover : Bool := true
  /-- Number of the latest boundary raised (R310). -/
  bcount : Nat := 0
  /-- A boundary has been raised since `en` was last set. -/
  braised : Bool := false
  /-- Boundaries below this number are not raised any more (R310). -/
  bnext : Nat := 0
  skipped : Nat := 0
  /-- LT and the three times in ns at the last snap: working, D0, DA (R300). -/
  snapLt : Nat := 0
  snap : List Nat := [0, 0, 0]
  txts : List Txts := []
  lost : Nat := 0
deriving DecidableEq, Repr

/-- The gates, preemption and trim of one front port (08). -/
structure GateSt where
  /-- Oper list: entry number to its two words as one number (R314). -/
  oper : List (Nat × Nat) := []
  /-- Oper base in ns, cycle, length and `ext` in 2.5 ns units (R320). -/
  base : Nat := 0
  cycle : Nat := 0
  len : Nat := 0
  ext : Nat := 0
  /-- An oper list operates (R313, R321). -/
  valid : Bool := false
  /-- Working time in 2^-42 ns at which the oper list came into force (R320). -/
  since : Int := 0
  /-- Change time of a pending change, in half ns (R317). -/
  pending : Option Nat := none
  /-- Gate states last seen by the port, for overruns (R325). -/
  seen : Nat := 0xFF
  /-- MAC hold running (R330). -/
  hold : Bool := false
  /-- Egress logic gated (R332). -/
  trimmed : Bool := false
  /-- LT before which nothing is granted after a trim abort (R335). -/
  restoreAt : Nat := 0
  /-- Staging SRAM in low-leakage mode (R334). -/
  low : Bool := false
  /-- Working time in 2^-42 ns at which an event ended the trim window of the present interval early (R335). -/
  aborted : Option Int := none
  /-- Verify mPackets sent on the present link and LT of the latest (R326). -/
  tries : Nat := 0
  lastTry : Nat := 0
deriving DecidableEq, Repr

/-- A recovery function's run-time state that differs from its reset state (R339, R342). -/
structure RcvySt where
  seq : Nat
  takeAny : Bool
  /-- History bits, bit 0 the latest. -/
  hist : Nat
  /-- LT of the latest accepted frame, from which the reset timer runs. -/
  last : Nat
deriving DecidableEq, Repr

/-! ### The Mint (09) -/

/-- A cipher core, 0-7 AES and 8-9 Keccak. -/
structure CoreSt where
  strikes : Nat := 0
  /-- Rate estimate in percent (R358). -/
  rate : Nat := 100
  slow : Bool := false
  quar : Bool := false
  /-- In the reserved pool (R349). -/
  resv : Bool := false
  /-- The self-test of R364 runs. -/
  test : Bool := false
  /-- Quarantine at the end of the present job (R364). -/
  forced : Bool := false
deriving DecidableEq, Repr

/-- A ring's cipher job that has started (R401-R405). -/
structure CJob where
  ring : Nat
  idx : Nat
  desc : List Byte
  blk : List Byte
  key : List Byte
  /-- `key_ref` of its contexts (R380). -/
  ref : List Byte := []
  /-- Generated IV counter value (R392). -/
  iv : Option Nat
  /-- Core it runs on; `none` while it is suspended or waits to restart. -/
  core : Option Nat
  /-- LT of its latest start, payload bytes completed, and those at its latest start. -/
  since : Nat
  done : Nat := 0
  done0 : Nat := 0
  /-- Destination bytes written, in all attempts at most. -/
  written : Nat := 0
  reach : Nat := 0
  /-- A first mismatch restarted it (R362). -/
  retried : Bool := false
  /-- Its context is saved: in a clear slot, or wrapped to memory (R378). -/
  saved : Bool := false
  /-- Jobs that waited at its priority when it was suspended: rings, and suspended jobs by ring and index (R356). -/
  ahead : List (Nat × Option Nat) := []
deriving DecidableEq, Repr

structure MintSt where
  cores : List CoreSt := List.replicate 10 {}
  jobs : List CJob := []
  /-- Context key of the present epoch, the epoch, and the wrapping IV counter (R380, R382). -/
  ctxKey : List Byte := []
  epoch : Nat := 1
  ctxIv : Nat := 1
  /-- Ring served last at each priority (R354). -/
  rr : List Nat := [63, 63, 63, 63]
deriving DecidableEq, Repr

/-! ### The Vault (10) -/

/-- A key slot that holds a key: its usage policy (R410), the two shares whose XOR is the key (R417), and the owner tag of its blob. -/
structure KeySlot where
  policy : Nat
  share0 : List Byte
  share1 : List Byte
  tag : Nat := 0
deriving DecidableEq, Repr

/-- A monotonic counter (R432-R437): the limit or value that secure NVM holds, the next value, and NVM records used. -/
structure VCtr where
  limit : Nat := 0
  next : Nat := 0
  wear : Nat := 0
deriving DecidableEq, Repr

structure VaultSt where
  /-- Slots that hold a key (R409). -/
  slots : List (Nat × KeySlot) := []
  bmr : List (List Byte) := List.replicate 8 (List.replicate 32 0)
  isSealed : Bool := false
  /-- Values derived at seal lock (R421). -/
  cdi : List Byte := []
  sealKek : List Byte := []
  pairKek : List Byte := []
  crKey : List Byte := []
  /-- Rows of the OTP array that the owner has programmed (R415), at their scrambled addresses, as they are stored: XOR the mask of the row
  (R416). -/
  rows : List (Nat × List Byte) := []
  /-- R441 has run. -/
  keygen : Bool := false
  ctrs : List VCtr := List.replicate 16 {}
  /-- Mailboxes whose command waits or runs, in order of service (R428). -/
  queue : List Nat := []
  /-- An NVM write of a counter's new limit that is in progress: counter and limit (R432). -/
  nvm : Option (Nat × Nat) := none
  /-- A counter whose latest NVM write failed, until its requester has ended with NVM_FAIL (R434). -/
  failed : Option Nat := none
  /-- The command that mailbox 2 had accepted when the cluster restarted answers nobody (R796). -/
  muted : Bool := false
deriving DecidableEq, Repr

/-! ### CAN and LIN (11) -/

/-- A message in a CAN transmit FIFO, or a LIN TX request (R457, R497). -/
structure CMsg where
  ident : Nat
  ide : Bool := false
  rtr : Bool := false
  fmt : Nat
  brs : Bool := false
  oneShot : Bool := false
  sec : Bool := false
  irq : Bool := false
  tag : Nat
  sdt : Nat := 0
  vcid : Nat := 0
  af : Nat := 0
  data : List Byte
  /-- Ring and descriptor index that placed it; `none` where the SGE did. -/
  ring : Option (Nat × Nat)
  /-- A cancel is armed (R466). -/
  armed : Bool := false
  attempts : Nat := 0
  sof : Nat := 0
deriving DecidableEq, Repr

/-- A receive buffer of a CAN channel, or a frame that a LIN channel holds for its destinations (R455, R471, R493). -/
structure RxBuf where
  /-- LT of the lock (R475). -/
  lock : Option Nat := none
  broken : Bool := false
  gen : Nat := 0
  filter : Nat := 0
  ident : Nat := 0
  ide : Bool := false
  rtr : Bool := false
  fmt : Nat := 0
  brs : Bool := false
  esi : Bool := false
  sdt : Nat := 0
  vcid : Nat := 0
  af : Nat := 0
  data : List Byte := []
  sof : Nat := 0
  eof : Nat := 0
  /-- The host, and the SGE, have yet to consume the frame (R473): with either the element is valid. -/
  host : Bool := false
  sge : Bool := false
  /-- The destinations of a frame that becomes valid in the cycle after its EOF stamp (R471). -/
  due : Option (Bool × Bool) := none
deriving DecidableEq, Repr

/-- What a CAN channel holds beside its registers. -/
structure CanCh where
  fifos : List (List CMsg) := [[], [], [], []]
  /-- Receive buffers that have been filled, by index. -/
  bufs : List (Nat × RxBuf) := []
  /-- The buffer after the one filled last (R471). -/
  next : Nat := 0
  tec : Nat := 0
  rec_ : Nat := 0
  /-- 0 ACTIVE, 1 PASSIVE, 2 BUS_OFF, 3 RECOVERING. -/
  st : Nat := 0
  /-- FIFO whose head has begun (R460). -/
  begun : Option Nat := none
  /-- No SOF before this LT (R465, R481). -/
  holdOff : Nat := 0
  /-- 11 recessive bits have been seen since the channel was enabled or woke (R691). -/
  ready : Bool := false
deriving DecidableEq, Repr

/-- What a LIN channel holds beside its registers. -/
structure LinCh where
  /-- The schedule runs; its table, its next slot, and the LT of that slot (R489). -/
  running : Bool := false
  table : Nat := 0
  slot : Nat := 0
  nextAt : Nat := 0
  /-- Data loaded for published identifiers, with the request that loaded it until it has been sent (R492). -/
  pubs : List (Nat × CMsg) := []
  /-- The frame whose header is out: identifier, LT of the break, and whether this channel sends the response. -/
  cur : Option (Nat × Nat × Bool) := none
  /-- LT at which the wake-up signal ends, and at which the commander resumes (R495). -/
  wakeEnd : Nat := 0
  resumeAt : Option Nat := none
  /-- LT of the latest activity on the bus (R494). -/
  lastAct : Nat := 0
  /-- Frames that wait for the host or the SGE, oldest first. -/
  rx : List RxBuf := []
deriving DecidableEq, Repr

structure CanLinSt where
  can : List CanCh := List.replicate 16 {}
  lin : List LinCh := List.replicate 8 {}
  /-- A cancel that waits for its latch: LT of the write and the data (R464). -/
  cancel : Option (Nat × Nat) := none
deriving DecidableEq, Repr

/-! ### Signal gateway engine (12) -/

/-- The SGE tables of one configuration bank (R547): entries by index, as the numbers their bytes spell. -/
structure SgeTabs where
  pdu : List (Nat × Nat) := []
  route : List (Nat × Nat) := []
  froute : List (Nat × Nat) := []
  tmpl : List (Nat × Nat) := []
  prof : List (Nat × Nat) := []
  bus : List (Nat × Nat) := []
deriving DecidableEq, Repr

/-- A route's state (R515). -/
structure RtSt where
  last : Nat := 0
  value : Nat := 0
  timedOut : Bool := false
  saturated : Bool := false
  invalid : Bool := false
  never : Bool := false
  updates : Nat := 0
deriving DecidableEq, Repr

/-- A frame as the SGE sees it: kind and key of R505 (channel or ACF bus ID; identifier or UDP port; service and method), its
format and payload, and its stamp (R515). -/
structure SgeMsg where
  kind : Nat
  chan : Nat
  ident : Nat
  ide : Bool := false
  key1 : Nat := 0
  rtr : Bool := false
  fmt : Nat := 0
  brs : Bool := false
  data : List Byte
  stamp : Nat
deriving DecidableEq, Repr

/-- A source frame that was taken, judged and matched (R519): its PDU, and the destinations whose crossing was denied: transmit PDUs,
and 4,096 plus the frame route. -/
structure SgeJob where
  pdu : Nat
  msg : SgeMsg
  deny : List Nat
  /-- The tables as the frame found them: a table write takes effect between two source frames (R521). -/
  tabs : SgeTabs
deriving DecidableEq, Repr

/-- An emission that waits for room (R527): of a PDU's image, or of a frame route with its frame. -/
structure SgePend where
  pdu : Nat
  frame : Option (Nat × SgeMsg)
deriving DecidableEq, Repr

/-- A secured emission whose Mint job runs: PDU, freshness value taken, authentic part (R536). -/
structure SgeMac where
  pdu : Nat
  fresh : Nat
  auth : List Byte
deriving DecidableEq, Repr

/-- Emission state of a transmit PDU (R522-R525, R529). -/
structure SgeTx where
  last : Option Nat := none
  /-- LT to which an on-change trigger is deferred. -/
  due : Option Nat := none
  /-- Index of the latest periodic instant, and working time of the latest gate opening, that was emitted. -/
  lastK : Option Nat := none
  lastOpen : Option Int := none
  /-- SOME/IP session ID of the latest frame. -/
  session : Nat := 0
deriving DecidableEq, Repr

structure SgeSt where
  tabA : SgeTabs := {}
  tabB : SgeTabs := {}
  /-- Image RAM: bytes that are not 0, by offset. -/
  img : List Host.Cell := []
  rt : List (Nat × RtSt) := []
  /-- Freshness counters that are armed or not 0: value, armed (R540). -/
  fresh : List (Nat × Nat × Bool) := []
  /-- Frames delivered by port 23: LT at which each is available, ingress stamp, bytes (R519). -/
  q23 : List (Nat × Nat × List Byte) := []
  jobs : List SgeJob := []
  pend : List SgePend := []
  /-- PDUs with a trigger due in the present cycle, whose emission ends it (R524). -/
  dueNow : List Nat := []
  macs : List SgeMac := []
  tx : List (Nat × SgeTx) := []
  /-- PDUs that emit nothing until a route writes their image (R543). -/
  bad : List Nat := []
  /-- IPv4 identification and NTSCF sequence number of each template's next frame (R529, R530). -/
  tmpl : List (Nat × Nat × Nat) := []
  logWin : Nat × Nat := (0, 0)
  /-- Route states and freshness counters that changed since the latest pair snapshot (R749). -/
  rtDirty : List Nat := []
  frDirty : List Nat := []
deriving DecidableEq, Repr

/-! ### Host interface and DMA (13) -/

/-- A work descriptor, or the frame of several, that has started and whose completion has not been posted (R565, R597). -/
structure DmaWork where
  ring : Nat
  /-- Ring index of the first descriptor, and how many are covered. -/
  idx : Nat
  n : Nat
  /-- The last descriptor read. -/
  desc : List Byte
  /-- Frame bytes gathered (frame TX) or to be delivered (frame RX). -/
  bytes : List Byte := []
  /-- Buffers of a delivery: address and bytes (frame RX). -/
  bufs : List (Nat × Nat) := []
  /-- Bytes 0-23 of a frame RX completion. -/
  head : List Byte := []
  /-- Frame of the fabric that a delivery holds (R224). -/
  fid : Nat := 0
  /-- A frame TX frame whose `eop` descriptor has not been read (R580). -/
  gathering : Bool := false
  /-- The frame breaks a limit of R581. -/
  bad : Bool := false
  /-- Status with which the work ended; `none` while it goes on. -/
  ended : Option Nat := none
  /-- Status that its end will take (R224, R595). -/
  status : Nat := 0
  /-- Raise the vector on completion (R572). -/
  irq : Bool := false
  /-- Memory copy: destination bytes whose transfer has started, and destination bytes written. -/
  pos : Nat := 0
  done : Nat := 0
  /-- Memory copy: transfers in flight, oldest first, by the bytes they hold for the destination. -/
  xfers : List (List Byte) := []
deriving DecidableEq, Repr

/-- What a ring holds beside its registers (R563-R605). -/
structure RingSt where
  head : Nat := 0
  tail : Nat := 0
  stopping : Bool := false
  stopped : Bool := false
  /-- Tail up to which a withdrawal completes posted descriptors (R603), while it waits for completion slots. -/
  withdrawTo : Option Nat := none
  /-- `err_code`; 0 no error. -/
  err : Nat := 0
  /-- LT at which the gather timer expires (R582). -/
  gather : Option Nat := none
  /-- The next descriptor starts a new frame whatever its `sop` (R582). -/
  fresh : Bool := false
  /-- Copies discarded since the previous completion (R587). -/
  drops : Nat := 0
  /-- Completion ring: slots reserved (R569), records not yet signalled and LT of the first (R572), and the ring's interrupt line. -/
  resv : Nat := 0
  unsig : Nat := 0
  first : Nat := 0
  line : Bool := false
deriving DecidableEq, Repr

/-- HIF and DMA. -/
structure DmaSt where
  rings : List RingSt := List.replicate 64 {}
  /-- Started work of all rings, oldest first. -/
  work : List DmaWork := []
  /-- Bus Master Enable of H0 and H1. -/
  bme : List Bool := [false, false]
  /-- Ring served last at each priority (R598). -/
  rr : List Nat := [63, 63, 63, 63]
  /-- System SRAM: bytes that are not 0, by offset (R557); log entry 13. -/
  sram : List Host.Cell := []
deriving DecidableEq, Repr

/-! ### Power (16) -/

/-- What PWR has the device in: OFF, RUN (with TRIM and IDLE-LINK), a park entry, the two parks, or a wake sequence. -/
inductive PMode where
  | off | run | parking | listen | deep | waking
deriving DecidableEq, Repr

/-- A WAKE_IN pin as AON samples it: level, samples in a row at it, and whether it changed towards its active level (R685). -/
structure WakePin where
  level : Bool := false
  run : Nat := 0
  edge : Bool := false
deriving DecidableEq, Repr

/-- The power manager. -/
structure PwrSt where
  mode : PMode := .run
  /-- Phase of a park entry: 0 none, 1 drain, 2 store, 3 committed. -/
  phase : Nat := 0
  /-- LT of the latch. -/
  latch : Nat := 0
  target : Nat := 0
  /-- Domains that are on, by domain instance. -/
  on : Nat := 0xFFFF
  /-- A power-down of MINT that drains: LT of its latch (R702). -/
  mintLatch : Option Nat := none
  /-- A wake detected at or after commit: class, instance, LT (R683). -/
  wake : Option (Nat × Nat × Nat) := none
  /-- Enables driven: bit k PMIC_ENk. -/
  en : Nat := 0xF
  /-- LT of the latest enable change. -/
  enAt : Nat := 0
  /-- PMIC_PG and the LT since which it has that level. -/
  pg : Bool := true
  pgAt : Nat := 0
  pins : List WakePin := List.replicate 4 {}
  /-- Idle gating is active, and the LT since which the device has been idle (R670). -/
  idle : Bool := false
  idleSince : Option Nat := some 0
  /-- The PLLs are locked and FCLK runs. -/
  fclk : Bool := true
  /-- LT of the wake while no edge port has linked since (R693). -/
  readyWait : Option Nat := none
  /-- RESET_N holds the core in reset. -/
  held : Bool := false
  /-- LT of the latch of a cold reset that is due, and its cause (R805, R806). -/
  rstAt : Option (Nat × Nat) := none
  /-- Records that wait until the Ledger runs, with their LT. -/
  late : List Rec := []
  /-- LT floor in secure NVM (R34). -/
  floor : Nat := 0
  /-- VDDIO banks in range: bit 0 A, bit 1 B; and the detected levels in mV. -/
  vddio : Nat := 3
  vlevel : List Nat := [3300, 3300]
  /-- The park to which the device has committed, or from which it wakes, is DEEP-PARK. -/
  deep : Bool := false
  /-- Thresholds crossed since the latest report of each: bit 0 150 °C, bit 1 160 °C (R835). -/
  hot : Nat := 0
  /-- VDD_CORE in mV as AVS has set it, the LT of its latest move, and a PMIC write in progress: the register's value (R697, R698). -/
  rail : Nat := 750
  railAt : Nat := 0
  spi : Option Nat := none
  /-- LT of the latest AVS reading. -/
  avsAt : Nat := 0
  /-- Sixteenths of a count that the AON domain has accumulated beyond LT (R33). -/
  frac : Nat := 0
  /-- `PWR_STATE.last_park`: 0 none, 1 PARK-LISTEN, 2 DEEP-PARK. -/
  lastPark : Nat := 0
deriving DecidableEq, Repr

/-! ### Currant triad, debug and lifecycle (17) -/

/-- The triad, its watchdogs and its load window; debug halts, sessions and tokens. -/
structure TriadSt where
  /-- 0 LOCKSTEP, 1 RESYNC, 2 SPLIT, 3 HELD (`TRIAD_STATUS.mode`). -/
  mode : Nat := 0
  /-- Copy that is resynchronised and its source, 0 A to 2 C, and the LT of its mismatch (R711). -/
  odd : Nat := 0
  src : Nat := 0
  syncAt : Nat := 0
  /-- The interrupts asserted towards the triad as the stall of a resynchronisation began, while it lasts (R711, R713). -/
  stall : Option Nat := none
  /-- Window of 1 s and resynchronisations in it (R714). -/
  win : Nat × Nat := (0, 0)
  /-- LT at which the held copies leave reset (R716). -/
  restartAt : Option Nat := none
  /-- LT of the latest valid kick of the triad watchdog, and of the cluster watchdog, while they run (R717, R718). -/
  kick : Option Nat := none
  ckick : Option Nat := none
  /-- LT since which each of the two watchdogs pauses (R718, R726). -/
  pause : Option Nat := none
  cpause : Option Nat := none
  /-- Triad copies halted by debug, and cluster harts halted: one bit each (R724, R726). -/
  halted : Nat := 0
  harts : Nat := 0
  /-- TCM bytes written through the load window that are not 0, by offset, and the triad image (R776, R777). -/
  tcm : List Host.Cell := []
  image : List Host.Cell := []
  /-- `CFG_BOOT_STATUS.triad_go`. -/
  go : Bool := false
  /-- DEBUG_SPLIT (R728). -/
  split : Bool := false
  /-- LT at which the SERVICE session ends (R722). -/
  session : Option Nat := none
  /-- Its `session_s`. -/
  sessLen : Nat := 0
  /-- The free value that is the present nonce (R735). -/
  nonce : Nat := 0
  /-- Instruction in the TAP: 0 IDCODE, 1 BYPASS, 2 SAMPLE/PRELOAD, 3 EXTEST. -/
  tap : Nat := 0
deriving DecidableEq, Repr

/-! ### Pairing (18) -/

/-- The running digest of a pair cycle (R756): cycle, number of records, their sum and their XOR. -/
structure Digest where
  cycle : Nat
  n : Nat := 0
  sum : Nat := 0
  xor : Nat := 0
deriving DecidableEq, Repr

/-- The PAIR block and the token logic in AON. -/
structure PairSt where
  /-- The device drives PAIR_ACT low. -/
  active : Bool := false
  fit : Bool := true
  current : Bool := false
  needSync : Bool := true
  cfgMismatch : Bool := false
  /-- R760. -/
  lost : Bool := false
  /-- LT of the latest lease renewal or claim (R742). -/
  lease : Nat := 0
  /-- LT at which the hold-off ends (R743). -/
  holdoff : Option Nat := none
  /-- LT at which an armed acceptance ends (R765). -/
  accept : Option Nat := none
  /-- Flags of the partner's latest whole bundle. -/
  pFlags : Nat := 0
  /-- Δ of R754, signed LT counts. -/
  delta : Int := 0
  unresolved : Nat := 0
  missing : Nat := 0
  /-- Digests that are open (R756), closed digests of this device (cycle and digest), and the partner's. -/
  dig : List Digest := []
  own : List (Nat × List Byte) := []
  partner : List (Nat × List Byte) := []
  /-- The last 64 decision records (R758). -/
  replay : List Nat := []
  /-- A self-check in progress: cycle in question and LT of its start (R758). -/
  check : Option (Nat × Nat) := none
  /-- Results of the mismatch at hand: own and partner's, `true` pass (R759). -/
  ownRes : Option Bool := none
  parRes : Option Bool := none
  /-- Pair cycles since the last bundle whose PN section was applied (R761). -/
  since : Nat := 0
  /-- LT at which the guarded ports and channels are released after a claim (R762). -/
  release : Option Nat := none
  /-- An accepted handover (R766): 1 announced in the next bundle, 2 that bundle is being sent. -/
  handing : Nat := 0
  /-- The cycle whose snapshot was taken at the latest boundary and whose close is due; LT of that boundary (R749). -/
  snap : Option (Nat × Nat) := none
  /-- Sections of the latest snapshot, and sections deferred whole to the next bundle: type and elements (R749, R751). -/
  secs : List (Nat × List Byte) := []
  deferred : List (Nat × List Byte) := []
  /-- Counters, by address, and run-time states of table entries, by table and index, as last sent (R750). -/
  sentCnts : List (Nat × Nat) := []
  sentRun : List (Nat × Nat) := []
  /-- What a full sync has left to send; `none` while none runs (R752). -/
  fullLeft : Option (List (Nat × List Byte)) := none
  /-- Cycle in whose bundle the first chunk of the latest full sync went out (R752). -/
  syncFrom : Option Nat := none
  /-- The TIME section held from the partner (R754). -/
  heldTime : List Byte := []
deriving DecidableEq, Repr


/-! ### Configuration banks and boot (19) -/

/-- State of a configuration bank (R778); a bank with an activation pending keeps the state that it returns to. -/
inductive Bank where
  | opened | empty | loading | loaded | active | previous
deriving DecidableEq, Repr

/-- A load whose object has passed R773: the bank it goes to, the header and the payload (R781). -/
structure CfgLoad where
  bank : Nat
  hdr : List Byte
  body : List Byte
deriving DecidableEq, Repr

/-- A pending activation (R788): whether it is a rollback, whether `at_en` named its boundary, the number of that boundary (0 where
the base cycle was off), and the LT at or after which it may take effect without a base cycle. -/
structure CfgPend where
  rollback : Bool
  atEn : Bool
  cycle : Nat
  notBefore : Nat
  /-- Its boundary has been raised. -/
  due : Bool := false
deriving DecidableEq, Repr

/-- CFG: the banks, their other bank's registers, and what is pending. -/
structure CfgSt where
  /-- The active bank: 0 A, 1 B. -/
  active : Nat := 0
  /-- States of banks A and B. -/
  bank : List Bank := [.opened, .empty]
  /-- The RWL fields that the bank not active holds, where they differ from their reset values, by address. -/
  saved : List (Nat × Word) := []
  /-- The active bank's own value of the fields of R786, where the device runs with another, by address. -/
  cold : List (Nat × Word) := []
  /-- LT of the latest activation (R74). -/
  actLt : Nat := 0
  /-- Version and measurement of each bank, and the bodies of its GCL records (R778, R790). -/
  ver : List Nat := [0, 0]
  meas : List (List Byte) := [[], []]
  gcl : List (List (List Byte)) := [[], []]
  /-- A bank has been committed since reset. -/
  done : Bool := false
  /-- A load in progress, and an activation that waits. -/
  load : Option CfgLoad := none
  pend : Option CfgPend := none
  /-- `CFG_STATUS.code` and `cold_diff`. -/
  code : Nat := 0
  coldDiff : Bool := false
  /-- Dummy cycles of 8D-8D-8D xSPI reads, where the boot ROM has switched to that mode; none in 1S-1S-1S (R770). -/
  xspi : Option Nat := none
  /-- The active bank's GCL records wait to be applied (R790). -/
  gclDue : Bool := false
deriving DecidableEq, Repr

/-! ### The whole chip -/

/-- What the device does by itself at the start of a later cycle. -/
inductive Late where
  /-- An accepted write of a register whose new value is in force from the cycle after the write: initiator, address, data. -/
  | write (who addr data : Nat)
  /-- The tail of a cut-through copy's frame is verified: what was counted is corrected to the actual length (R84, R235). -/
  | correct (c : Copy) (len : Nat)
  /-- The table command accepted at an LT commits; `flt` tells that it meets a double-symbol error (R173, R174). -/
  | table (acc : Nat) (flt : Bool)
  /-- The SGE's table command accepted at an LT, or its freshness command, ends (R547, R540). -/
  | sgeTable (acc : Nat) (flt : Bool)
  | sgeFresh
  /-- A ring latches `HIF_RING_CTRL.stop`, or `withdraw` (R601, R603). -/
  | ringStop (r : Nat)
  | ringWithdraw (r : Nat)
  /-- A park, or a power-down of MINT, is latched (R673, R702). -/
  | park
  | mintDown
  /-- An activation takes effect while the base cycle is off (R788). -/
  | activation
  /-- A lane declared slow, or cleared, is so from now on (R99, R100). -/
  | lane (l : Nat) (slow : Bool)
  /-- The scrubber writes a corrected word back (R226). -/
  | writeBack (cell key : Nat)
  /-- The connection-tracking command that runs commits (R212, R213). -/
  | track (flt : Bool)
  /-- A frame that a port in loopback has sent enters again as its ingress frame (R65): its message timestamp point, its bytes without FCS, and
  whether its FCS is good. -/
  | looped (port at_ : Nat) (bytes : List Byte) (fcsOk : Bool)
  /-- The step of working time that a jump asked for (R304). -/
  | step
  /-- The gates of every port take the states of the new time after a step (R322). -/
  | gates
  /-- A port's gate control is off from now on (R321). -/
  | gateOff (n : Nat)
  /-- A frame in a CAN receive buffer becomes valid (R471). -/
  | canRx (chan buf : Nat)
  /-- A Vault slot is empty from now on (R430). -/
  | erase (s : Nat)
  /-- The stall of the resynchronisation that began at an LT (R711). -/
  | stall (since : Nat)
  /-- A port's staging SRAM leaves its low-leakage mode (R334). -/
  | staging (n : Nat)
deriving DecidableEq, Repr

/-- Everything the device holds but LT and the queue of commands. -/
structure Chip where
  /-- Words of the register file that differ from their reset value, in rising address order. -/
  regs : List (Nat × Word) := []
  /-- 64-bit counters that are not 0, by the address of their low word (R837). -/
  cnts : List (Nat × Nat) := []
  /-- High-word shadows by shadow group and initiator: group × 8 + initiator (R837). -/
  shad : List (Nat × Word) := []
  /-- How many free values the device has used: the model's own counter, not the manual's. -/
  free : Nat := 1
  /-- Status bits that the device set in the present cycle: address and mask (R13). -/
  fresh : List (Nat × Nat) := []
  /-- What is due in later cycles: LT and effect, by rising LT. -/
  late : List (Nat × Late) := []
  /-- Outputs, newest last. -/
  out : List Out := []
  ledger : LedgerSt := {}
  safe : SafeSt := {}
  brg : BrgSt := {}
  /-- Front ports 0-19. -/
  ports : List PortSt := List.replicate 20 {}
  prs : PrsSt := {}
  tm : TmSt := {}
  /-- MSI-X table words that were written: function × 1024 + vector × 4 + word (R573). -/
  msix : List (Nat × Word) := []
  /-- MSI-X vectors pending while masked: function × 128 + vector (R811). -/
  pba : List Nat := []
  time : TimeSt := {}
  /-- Gates of front ports 0-19. -/
  gates : List GateSt := List.replicate 20 {}
  /-- Recovery functions not in their reset state. -/
  rcvy : List (Nat × RcvySt) := []
  pwr : PwrSt := {}
  cfg : CfgSt := {}
  pair : PairSt := {}
  dma : DmaSt := {}
  mint : MintSt := {}
  vault : VaultSt := {}
  /-- Lifecycle state in OTP: 0 MANUFACTURE, 1 DEPLOYED, 2 SERVICE, 3 LAB, 4 SCRAPPED (17; log entry 14). -/
  life : Nat := 0
  cl : CanLinSt := {}
  sge : SgeSt := {}
  triad : TriadSt := {}
  /-- OTP lifecycle bits: bit 0 DEPLOYED, bit 1 LAB, bit 2 SCRAPPED; and the service flag in secure NVM (R730). -/
  otp : Nat := 0
  service : Bool := false
deriving DecidableEq, Repr

/-- The machine: Ledger time (R14), the chip, and the commands that wait, first in, first out. -/
structure State where
  /-- LT, a count of 250 ps that never wraps (R14). -/
  lt : Nat
  chip : Chip
  /-- Commands waiting, oldest first. -/
  pending : List Instr
deriving DecidableEq, Repr

/-- Reasons for which the machine stops. No meaning of the model raises one: the manual gives every command of the block an
effect, an error record or no effect. The type is kept so that a later repair can name one. -/
inductive Fault where
  /-- Raised by nobody; safe. -/
  | none
deriving DecidableEq, Repr

/-- Reasons for which a command is refused. -/
inductive Refusal where
  /-- Raised by the dispatcher for a command whose meaning is not written; safe. -/
  | notModelled (mnemonic : String)
deriving DecidableEq, Repr

/-- The machine right after a cold reset: every register at the value the manual gives, LT at 0 (log entry 2), queues empty,
FAULT asserted (R633), no command waiting. -/
def State.reset : State := { lt := 0, chip := {}, pending := [] }

end Sys2Proof.Machine
end

