-- ==== Sys2Proof/Machine/Ops.lean ====
section
/-! DEFINITION. The operations that every block shares: the register file and its fields, counters, free values, outputs,
interrupts and MSI-X, `<BLK>_ERR_CAPTURE`, the Ledger's event queue, and the SAFE collector with the FAULT pin. -/

namespace Sys2Proof.Machine

/-! ### Time units in LT counts of 250 ps -/

/-- One FCLK cycle (R840). -/
def cyc : Nat := 10
/-- One microsecond. -/
def us : Nat := 4000
/-- One millisecond. -/
def ms : Nat := 4000000
/-- One second. -/
def sec : Nat := 4000000000

/-! ### The register file -/

/-- The stored word at a register address. -/
def rd (m : Chip) (a : Nat) : Word := (sget m.regs a).getD (resetWord a)

/-- The stored word as a number. -/
def rdN (m : Chip) (a : Nat) : Nat := (rd m a).toNat

/-- Field `[lo+n-1 : lo]` of the stored word. -/
def fld (m : Chip) (a lo n : Nat) : Nat := bits (rdN m a) lo n

/-- Bit `i` of the stored word. -/
def flag (m : Chip) (a i : Nat) : Bool := bit (rdN m a) i

/-- Store a word: the one place that writes the register file; it lists no word that equals its reset value. -/
def wr (m : Chip) (a : Nat) (v : Word) : Chip := { m with regs := sputD m.regs (resetWord a) a v }

/-- Store a number as a word. -/
def wrN (m : Chip) (a v : Nat) : Chip := wr m a (BitVec.ofNat 32 v)

/-- Replace one field of a stored word. -/
def setF (m : Chip) (a lo n v : Nat) : Chip := wrN m a (setBits (rdN m a) lo n v)

/-- Set the bits of `mask` in a stored word. -/
def orR (m : Chip) (a mask : Nat) : Chip := wrN m a (Nat.lor (rdN m a) mask)

/-- Clear the bits of `mask` in a stored word. -/
def clrR (m : Chip) (a mask : Nat) : Chip := wrN m a (clearMask (rdN m a) mask)

/-- Return a stored word to its reset value. -/
def rstR (m : Chip) (a : Nat) : Chip := wr m a (resetWord a)

/-- A 64-bit value kept in a low word and the word above it. -/
def rd64 (m : Chip) (a : Nat) : Nat := rdN m a + rdN m (a + 4) * 2 ^ 32

/-- Store a 64-bit value in two words. -/
def wr64 (m : Chip) (a v : Nat) : Chip := wrN (wrN m a (v % 2 ^ 32)) (a + 4) (v / 2 ^ 32)

/-! ### Counters, free values, outputs -/

/-- A 64-bit counter, by the address of its low word. -/
def cnt (m : Chip) (a : Nat) : Nat := (sget m.cnts a).getD 0

/-- Set a counter; a counter of 0 is not listed. -/
def setCnt (m : Chip) (a v : Nat) : Chip := { m with cnts := sputD m.cnts 0 a v }

/-- Add `k` to a counter (R68: it never wraps). -/
def bump (m : Chip) (a k : Nat) : Chip := setCnt m a (cnt m a + k)

/-- Clear every counter whose address lies in `[lo, hi)`. -/
def clearCnts (m : Chip) (lo hi : Nat) : Chip :=
  { m with cnts := m.cnts.filter fun p => p.1 < lo || hi ≤ p.1 }

/-- The next free value: a number that nothing constrains (log entry 3). -/
def freeVal (m : Chip) : Nat := Config.freeNat m.free

/-- Count one free value as used. -/
def useFree (m : Chip) : Chip := { m with free := m.free + 1 }

/-- Emit an output. -/
def say (m : Chip) (o : Out) : Chip := { m with out := m.out ++ [o] }

/-! ### Effects of later cycles -/

/-- Note an effect that is due at LT `d`: those due earlier stand before it, and of equal LTs the one noted first. -/
def later (m : Chip) (d : Nat) (x : Late) : Chip :=
  { m with late := m.late.filter (fun p => p.1 ≤ d) ++ (d, x) :: m.late.filter fun p => d < p.1 }

/-- Note an effect that is due in the cycle after this one. -/
def nextCycle (m : Chip) (now : Nat) (x : Late) : Chip := later m (now + cyc) x

/-! ### Interrupts (R808-R811) -/

/-- Address of a block's `<BLK>_IRQ_STATUS`; `<BLK>_IRQ_ENABLE`, `_ERR_CAPTURE` and `_ERR_CLR` follow it. -/
def irqStatus (b : Blk) : Nat := b.base
def irqEnable (b : Blk) : Nat := b.base + 4
def errCapture (b : Blk) : Nat := b.base + 8
def errClr (b : Blk) : Nat := b.base + 0xC

/-- Set a status bit that software clears by writing 1: a clear in the same cycle leaves it set (R13). -/
def raise (m : Chip) (a i : Nat) : Chip := orR { m with fresh := (a, 2 ^ i) :: m.fresh } a (2 ^ i)

/-- The status bits of a register that were set in the present cycle. -/
def freshBits (m : Chip) (a : Nat) : Nat := m.fresh.foldl (fun x p => if p.1 = a then Nat.lor x p.2 else x) 0

/-- Set bit `i` of a block's `<BLK>_IRQ_STATUS`. -/
def setIrq (m : Chip) (b : Blk) (i : Nat) : Chip := raise m (irqStatus b) i

/-- Set bit `i` of an event register and, where it is enabled, the summary bit `sb` of the block (R838). -/
def setEvt (m : Chip) (ev en i : Nat) (b : Blk) (sb : Nat) : Chip :=
  let m := raise m ev i
  if flag m en i then setIrq m b sb else m

/-- The enabled bits of a block's status. -/
def irqLevel (m : Chip) (b : Blk) : Nat := Nat.land (rdN m (irqStatus b)) (rdN m (irqEnable b))

/-- `GLB_IRQ_SUMMARY` (R808). -/
def irqSummary (m : Chip) : Nat :=
  Blk.all.foldl (fun a b => if irqLevel m b = 0 then a else a + 2 ^ b.irqBit) 0

/-- The bits of a block's status that reach only their own agent (R810). -/
def Blk.ownMask : Blk → Nat
  | .brg => 0xF
  | .vault => 0xF
  | _ => 0

/-- Route register of agent 0 H0, 1 H1, 2 control cluster, 3 triad (R812). -/
def irqRoute (a : Nat) : Nat := A.GLB_IRQ_ROUTE_H0 + 4 * a

/-- Address of the reaction register of severity `s` (R629). -/
def reactReg (s : Nat) : Nat := A.SAFE_EC_REACT1 + 4 * (s - 1)

/-- The reaction bit that interrupts an agent: both hosts share `irq_host` (R810). -/
def reactBit (a : Nat) : Nat := if a = 3 then 0 else if a = 2 then 1 else 2

/-- Whether a reacted entry of the collector interrupts agent `a`: the head has always reacted (R629, R810). -/
def safeIrq (m : Chip) (a : Nat) : Bool :=
  (m.safe.q.zipIdx.any fun p => (p.2 == 0 || p.1.reacted) && flag m (reactReg p.1.sev) (reactBit a))

/-- Whether block `b` interrupts agent `a` (R808-R810). -/
def irqTo (m : Chip) (a : Nat) (b : Blk) : Bool :=
  (clearMask (irqLevel m b) b.ownMask != 0 && flag m (irqRoute a) b.irqBit)
  || (b.ownMask != 0 && bit (irqLevel m b) a)
  || (b == .safe && safeIrq m a)

/-- The low 20 bits of `GLB_IRQ_PEND` of agent `a` (R808). -/
def irqPend (m : Chip) (a : Nat) : Nat :=
  Blk.all.foldl (fun x b => if irqTo m a b then x + 2 ^ b.irqBit else x) 0

/-- Whether MSI-X vector `v` of function `f` is masked; a vector is masked at reset, as the PCIe Base Specification states. -/
def msixMasked (m : Chip) (f v : Nat) : Bool :=
  bit ((sget m.msix (f * 1024 + v * 4 + 3)).getD 1).toNat 0

/-- Send MSI-X vector `v` of function `f`, or set its pending bit while it is masked (R811). -/
def sendMsix (m : Chip) (f v : Nat) : Chip :=
  if msixMasked m f v then { m with pba := if m.pba.contains (f * 128 + v) then m.pba else m.pba ++ [f * 128 + v] }
  else say m (.msix f v)

/-- Send vector 64 + `b` of each function for the blocks whose interrupt rose between two states (R811). -/
def msixRise (m0 m : Chip) : Chip :=
  [0, 1].foldl (fun m f => Blk.all.foldl (fun m b =>
    if irqTo m f b && !irqTo m0 f b then sendMsix m f (64 + b.irqBit) else m) m) m

/-- Send a block's vector again after a write that leaves its interrupt asserted (R811). -/
def msixAgain (m0 : Chip) (b : Blk) (m : Chip) : Chip :=
  [0, 1].foldl (fun m f => if irqTo m f b && irqTo m0 f b then sendMsix m f (64 + b.irqBit) else m) m

/-! ### `<BLK>_ERR_CAPTURE` (R836) -/

/-- Record a rejected access to offset `off` with a cause: the first is kept, later ones set only `overflow` (R836).
`HIF_ERR_CAPTURE` alone holds a wider offset and its cause higher. -/
def capture (m : Chip) (b : Blk) (off cause : Nat) : Chip :=
  if flag m (errCapture b) 31 then orR m (errCapture b) (2 ^ 30)
  else
    let v := if b = .hif then off % 2 ^ 26 + cause * 2 ^ 26 else off % 2 ^ 21 + cause * 2 ^ 24
    setIrq (wrN m (errCapture b) (v + 2 ^ 31)) b b.errBit

/-- Record a rejected write to an address. -/
def refuse (m : Chip) (b : Blk) (addr cause : Nat) : Chip := capture m b (addr - b.base) cause

/-! ### The Ledger's queues (R640-R644) -/

/-- Put a record at the end of a queue; records of one instant stand in ascending source ID (R645). -/
def enqueueRec (q : List Rec) (r : Rec) : List Rec :=
  let late := (q.reverse.takeWhile fun x => x.lt == r.lt && r.src < x.src).length
  q.take (q.length - late) ++ r :: q.drop (q.length - late)

/-- Hand an event record to the Ledger; a record that finds the queue of 256 full is lost and counted (R644). -/
def emit (m : Chip) (typ src lt : Nat) (pay : List (Nat × Nat)) : Chip :=
  if m.ledger.evtQ.length < 256 then
    { m with ledger := { m.ledger with evtQ := enqueueRec m.ledger.evtQ ⟨typ, src, lt, payload pay⟩ } }
  else
    setIrq (bump { m with ledger := { m.ledger with lostE := m.ledger.lostE + 1 } } A.evt_lost 1) .ledger 1

/-- Count a discarded frame record (R643, R655). -/
def frameLost (m : Chip) : Chip :=
  setIrq (bump { m with ledger := { m.ledger with lostF := m.ledger.lostF + 1 } } A.frame_discarded 1) .ledger 0

/-- Hand a frame record to the frame FIFO of 64 (R643). -/
def emitFrame (m : Chip) (typ src lt : Nat) (pay : List (Nat × Nat)) : Chip :=
  if m.ledger.frmQ.length < 64 then
    { m with ledger := { m.ledger with frmQ := enqueueRec m.ledger.frmQ ⟨typ, src, lt, payload pay⟩ } }
  else frameLost m

/-! ### FAULT and the SAFE collector (R627-R635) -/

/-- The device releases PAIR_ACT if it drives it, with a cause as in PAIR_ROLE; the hold-off starts (R741, R743). -/
def tokenRelease (m : Chip) (now cause : Nat) : Chip :=
  if !m.pair.active then m
  else
    let m := { m with pair :=
      { m.pair with
        active := false, release := none, handing := 0, fullLeft := none, syncFrom := none, holdoff := some (now + fld m A.PAIR_TIMING 16 8 * ms) } }
    say (setIrq (emit m 0x0F01 0x0F00 now [(1, b2n (flag m A.PAIR_CFG 0)), (1, cause)]) .pair 0) (.pin "PAIR_ACT" 1)

/-- Assert FAULT with a cause as in FAULT_CHANGE; an asserted pin stays as it is (R633, R635). The token goes with it (R741). -/
def assertFault (m : Chip) (now cause : Nat) : Chip :=
  if m.safe.fault then m
  else
    let m := say (setIrq (emit { m with safe := { m.safe with fault := true, cause := cause, since := now } }
      0x0E02 0x0E01 now [(1, 1), (1, cause)]) .safe 3) (.pin "FAULT" 1)
    tokenRelease m now 2

/-- Carry out the reaction of a severity: interrupts follow from the queue, FAULT from the reaction's `fault` bit (R629). -/
def react (m : Chip) (now sev : Nat) : Chip :=
  if flag m (reactReg sev) 3 then assertFault m now 1 else m

/-- Whether entry `e` stands before `x` in the collector's order: LT, then source ID, then code (R627). -/
def SafeEnt.before (e x : SafeEnt) : Bool :=
  e.lt < x.lt || (e.lt == x.lt && (e.src < x.src || (e.src == x.src && e.code ≤ x.code)))

/-- Put an entry into the queue behind the head, in order (R627, R628). -/
def safeInsert : List SafeEnt → SafeEnt → List SafeEnt
  | [], x => [x]
  | e :: r, x => if e.before x then e :: safeInsert r x else x :: e :: r

/-- Place a report: the head of a non-empty queue is frozen. -/
def safePlace (q : List SafeEnt) (x : SafeEnt) : List SafeEnt :=
  match q with
  | [] => [x]
  | h :: r => h :: safeInsert r x

/-- The entries that stand before `x`. -/
def safeAhead (q : List SafeEnt) (x : SafeEnt) : List SafeEnt :=
  match q with
  | [] => []
  | h :: r => h :: r.filter fun e => e.before x

/-- Report an uncorrectable error to the SAFE collector (R627-R630): LT of detection, source, code, severity, information. -/
def report (m : Chip) (now src code sev info : Nat) : Chip :=
  let m := bump m A.reports 1
  if 64 ≤ m.safe.q.length then
    assertFault (setIrq (bump { m with safe := { m.safe with overflow := true } } A.lost 1) .safe 2) now 2
  else
    let x : SafeEnt := ⟨now, src, code, sev, info % 2 ^ 24, false⟩
    let isHead := m.safe.q.isEmpty
    let pre := !isHead && (safeAhead m.safe.q x).all fun e => e.sev < sev
    let x := { x with reacted := pre }
    let q := safePlace m.safe.q x
    let m := emit { m with safe := { m.safe with q := q } } 0x0E01 0x0E00 now
      [(2, src), (2, code), (1, sev), (1, b2n (isHead || pre)), (3, info % 2 ^ 24), (1, q.length)]
    let m := if isHead then setIrq m .safe 0 else m
    let m := if pre then setIrq m .safe 1 else m
    if isHead || pre then react m now sev else m

/-! ### Rate limits on records -/

/-- Whether a record may be written in the window of 4,000,000 counts that holds `now`, given the window and count so far
and a limit (R219, R259, R549). -/
def logFits (w : Nat × Nat) (now limit : Nat) : Bool := (if w.1 = now / ms then w.2 else 0) < limit

/-- The window and count after one more record. -/
def logCount (w : Nat × Nat) (now : Nat) : Nat × Nat := (now / ms, (if w.1 = now / ms then w.2 else 0) + 1)

/-! ### Initiators and agents (R612) -/

/-- The agent of an initiator: 0 H0, 1 H1, 2 control cluster, 3 triad, 4 none (the debug port). -/
def agentOf (who : Nat) : Nat :=
  if who = 0 then 0 else if who = 1 then 1 else if who ≤ 5 then 2 else if who = 6 then 3 else 4

/-- The key of a slot: its shares are combined on the private key bus only (R417). -/
def KeySlot.key (k : KeySlot) : List Byte := xorBytes k.share0 k.share1

/-! ### Mint units (R349, R350) -/

def coreOf (m : Chip) (c : Nat) : CoreSt := m.mint.cores.getD c {}

/-- A core that may take work. -/
def coreFit (m : Chip) (c : Nat) : Bool := !(coreOf m c).quar && !(coreOf m c).slow && !(coreOf m c).test

/-- The units of a class. -/
def unitsOf (kecc : Bool) : List Nat := if kecc then [8, 9] else List.range 8

/-- No healthy unit of a class is left (R365). -/
def noUnit (m : Chip) (kecc : Bool) : Bool := (unitsOf kecc).all fun c => (coreOf m c).quar

/-- No AES core is in the general pool and may take work: what needs one waits in the Teller (R32). -/
def poolEmpty (m : Chip) : Bool := (unitsOf false).all fun c => !coreFit m c || (coreOf m c).resv

end Sys2Proof.Machine
end

