-- ==== Sys2Proof/Machine/Parse.lean ====
section
/-! DEFINITION. The parser (R121-R131, R842) and the flow key and hash (R88, R89). -/

namespace Sys2Proof.Machine

/-- What the parser has found so far: the extracted fields and the flags of the metadata word (R131). -/
structure Parsed where
  h : Head := {}
  trunc : Bool := false
  malf : Bool := false
  /-- A frame counted in `PRS_CNT_MALFORMED` (R129). -/
  cutMalf : Bool := false
  l3 : Nat := 3
  l4 : Nat := 0
  frag : Bool := false
  app : Nat := 0
  sectag : Bool := false
deriving DecidableEq, Repr

/-- Whether a header of `n` bytes at offset `o` lies whole within the frame and the window of 128 bytes after the MAC header. -/
def wholeHdr (l : List Byte) (mac o n : Nat) : Bool := o + n ≤ l.length && o + n ≤ mac + 128

/-- A recognised header that is not whole: R129 when the frame ends at or before the window's end, R128 otherwise. -/
def cutHdr (l : List Byte) (p : Parsed) : Parsed :=
  if l.length ≤ p.h.mac + 128 then { p with malf := true, cutMalf := true } else { p with trunc := true }

/-- `n` bytes at `o` in network byte order. -/
def be (l : List Byte) (o n : Nat) : Nat := beNat (slice l o n)

/-- The SOME/IP header (R124, R842): `o` its offset, `pay` the transport payload that the IP length gives. -/
def parseSomeip (m : Chip) (l : List Byte) (p : Parsed) (o pay : Nat) : Parsed :=
  let a := rdN m A.PRS_SOMEIP_PORTS0
  let b := rdN m A.PRS_SOMEIP_PORTS1
  let ports := [bits a 0 16, bits a 16 16, bits b 0 16, bits b 16 16].filter (· != 0)
  if !(ports.contains p.h.sport || ports.contains p.h.dport) || pay < 16 then p
  else if wholeHdr l p.h.mac o 16 then
    { p with app := 1, h := { p.h with service := be l o 2, method := be l (o + 2) 2, mtype := byteAt l (o + 14) } }
  else cutHdr l p

/-- The transport header named by the last next-header value, at offset `o`; `left` is the IP payload from there (R124, R125). -/
def parseL4 (m : Chip) (l : List Byte) (p : Parsed) (o left : Nat) : Parsed :=
  let pr := p.h.proto
  if pr = 6 then
    if !wholeHdr l p.h.mac o 20 then cutHdr l p
    else
      let off := byteAt l (o + 12) / 16
      let p := if off < 5 then { p with malf := true } else p
      let n := max off 5 * 4
      if !wholeHdr l p.h.mac o n then cutHdr l p
      else
        let p := { p with l4 := 1, h := { p.h with sport := be l o 2, dport := be l (o + 2) 2, tcpFlags := byteAt l (o + 13) } }
        parseSomeip m l p (o + n) (left - n)
  else if pr = 17 then
    if !wholeHdr l p.h.mac o 8 then cutHdr l p
    else
      let p := { p with l4 := 2, h := { p.h with sport := be l o 2, dport := be l (o + 2) 2 } }
      parseSomeip m l p (o + 8) (left - 8)
  else if (pr = 1 && !p.h.v6) || (pr = 58 && p.h.v6) then
    if !wholeHdr l p.h.mac o 4 then cutHdr l p
    else { p with l4 := if pr = 1 then 3 else 4, h := { p.h with icmp := byteAt l o * 256 + byteAt l (o + 1) } }
  else { p with l4 := 5 }

/-- IPv4 (R124, R126, R127). -/
def parseV4 (m : Chip) (l : List Byte) (p : Parsed) : Parsed :=
  let o := p.h.mac
  let b0 := byteAt l o
  if b0 / 16 ≠ 4 then p
  else if b0 % 16 < 5 then { p with malf := true }
  else
    let n := b0 % 16 * 4
    if !wholeHdr l o o n then cutHdr l { p with l3 := 0 }
    else
      let tot := be l (o + 2) 2
      let fr := be l (o + 6) 2
      let isFrag := bit fr 13 || bits fr 0 13 != 0
      let p := { p with l3 := 1, frag := isFrag, h := { p.h with
        ipSrc := be l (o + 12) 4, ipDst := be l (o + 16) 4, proto := byteAt l (o + 9), dscp := byteAt l (o + 1) / 4,
        ecn := byteAt l (o + 1) % 4, ttl := byteAt l (o + 8), ipLen := max 64 (o + tot + 4) } }
      if bits fr 0 13 != 0 then p else parseL4 m l p (o + n) (tot - n)

/-- IPv6 extension headers: at most `k` more are accepted (R125, R127). -/
def parseExt (m : Chip) (l : List Byte) : Nat → Parsed → Nat → Nat → Parsed
  | 0, p, o, left => if p.h.proto ∈ [0, 43, 44, 60] then { p with l4 := 5 } else parseL4 m l p o left
  | k + 1, p, o, left =>
    if p.h.proto ∈ [0, 43, 44, 60] then
      let n := if p.h.proto = 44 then 8 else (byteAt l (o + 1) + 1) * 8
      if !wholeHdr l p.h.mac o n then cutHdr l p
      else
        let fr := be l (o + 2) 2
        let isF := p.h.proto = 44 && (bit fr 0 || fr / 8 != 0)
        let p' := { p with frag := p.frag || isF, h := { p.h with proto := byteAt l o } }
        if p.h.proto = 44 && fr / 8 != 0 then p' else parseExt m l k p' (o + n) (left - n)
    else parseL4 m l p o left

/-- IPv6 (R124). -/
def parseV6 (m : Chip) (l : List Byte) (p : Parsed) : Parsed :=
  let o := p.h.mac
  if byteAt l o / 16 ≠ 6 then p
  else if !wholeHdr l o o 40 then cutHdr l { p with l3 := 0 }
  else
    let tc := be l o 2 / 16 % 256
    let pl := be l (o + 4) 2
    let p := { p with l3 := 2, h := { p.h with
      v6 := true, ipSrc := be l (o + 8) 16, ipDst := be l (o + 24) 16, proto := byteAt l (o + 6), tclass := tc, ecn := tc % 4,
      flow := be l o 4 % 2 ^ 20, ipLen := max 64 (o + 40 + pl + 4) } }
    parseExt m l 2 p (o + 40) pl

/-- AVTP and the first ACF message (R124, R842); the ACF CAN layout is that of IEEE 1722 (log entry 10). -/
def parseAvtp (l : List Byte) (p : Parsed) : Parsed :=
  let o := p.h.mac
  let st := byteAt l o
  let n := if st = 0x82 then 12 else if st = 0x05 then 24 else 4
  if !wholeHdr l o o n then cutHdr l p
  else
    let sid := if byteAt l (o + 1) / 128 = 1 && wholeHdr l o o 12 then be l (o + 4) 8 else 0
    let p := { p with app := 2, h := { p.h with subtype := st, streamId := sid } }
    if n = 4 || !wholeHdr l o (o + n) 2 then p
    else
      let a := o + n
      let ty := byteAt l a / 2
      let k := if ty = 1 then 16 else 8
      if ty ≠ 1 && ty ≠ 2 then p
      else if !wholeHdr l o a k then cutHdr l p
      else
        { p with app := 3, h := { p.h with
          acfBus := byteAt l (a + 3) % 32, acfIde := bits (byteAt l (a + 2)) 3 1, acfFd := bits (byteAt l (a + 2)) 1 1,
          acfId := be l (a + k - 4) 4 % 2 ^ 29 } }

/-- The MAC header: addresses, up to two VLAN tags and the innermost EtherType (R121, R122). -/
def parseMac (m : Chip) (l : List Byte) : Head :=
  let h : Head := { da := be l 0 6, sa := be l 6 6 }
  let t := be l 12 2
  let alt := fld m A.PRS_PARSE_CFG 0 16
  if t = 0x8100 || t = 0x88A8 || (alt ≠ 0 && t = alt) then
    let v := be l 14 2
    let h := { h with tags := 1, ovid := v % 4096, opcp := v / 8192, odei := bits v 12 1 }
    if be l 16 2 = 0x8100 then
      let w := be l 18 2
      { h with tags := 2, ivid := w % 4096, ipcp := w / 8192, etype := be l 20 2, mac := 22 }
    else { h with etype := be l 16 2, mac := 18 }
  else { h with etype := t, mac := 14 }

/-- Parse the head of a frame; `sec` tells that MACsec was removed from it (R123). -/
def parse (m : Chip) (l : List Byte) (sec : Bool) : Parsed :=
  let p : Parsed := { h := parseMac m l }
  if p.h.etype = 0x0800 then parseV4 m l p
  else if p.h.etype = 0x86DD then parseV6 m l p
  else if p.h.etype = 0x22F0 then parseAvtp l p
  else if p.h.etype = 0x88E5 && !sec then { p with sectag := true }
  else p

/-- Zone of a switch port (R186). -/
def portZone (m : Chip) (n : Nat) : Nat := fld m (A.PRS_FW_PORT_ZONE (n / 8)) (n % 8 * 4) 4

/-- The metadata word at head ready (R131). -/
def firstMd (m : Chip) (port : Nat) (p : Parsed) (sec : Bool) : Nat :=
  let yellow := p.h.odei = 1 && p.h.tags ≠ 0 && flag m (A.PRS_PORT_CFG port) 15
  port + portZone m port * 2 ^ 5 + b2n p.trunc * 2 ^ 13 + p.l3 * 2 ^ 14 + p.l4 * 2 ^ 16 + b2n p.frag * 2 ^ 19
    + p.app * 2 ^ 20 + p.h.tags * 2 ^ 22 + b2n sec * 2 ^ 24 + b2n p.sectag * 2 ^ 25 + b2n yellow * 2 ^ 26
    + b2n p.malf * 2 ^ 30

/-- The flow key (R88), with `ip_no_ports` of R89. -/
def flowKey (m : Chip) (p : Parsed) : List Byte :=
  let h := p.h
  let l2 := bit m.prs.hashCfg 0
  let ports := (p.l4 = 1 || p.l4 = 2) && !p.frag && !bit m.prs.hashCfg 1
  let sp := if ports then beBytes 2 h.sport ++ beBytes 2 h.dport else List.replicate 4 0
  if !p.trunc && !l2 && p.l3 = 1 then beBytes 4 h.ipSrc ++ beBytes 4 h.ipDst ++ beBytes 1 h.proto ++ sp
  else if !p.trunc && !l2 && p.l3 = 2 then beBytes 16 h.ipSrc ++ beBytes 16 h.ipDst ++ beBytes 1 h.proto ++ sp
  else beBytes 6 h.sa ++ beBytes 6 h.da ++ beBytes 2 h.ovid ++ beBytes 2 h.etype

/-- The flow hash (R88). -/
def flowHash (m : Chip) (p : Parsed) : Nat := crc32c m.prs.seed (flowKey m p)

/-- The declared length (R82); `tail` tells that the whole frame has arrived. -/
def declared (m : Chip) (port : Nat) (p : Parsed) (len : Nat) (tail : Bool) : Nat :=
  if p.l3 = 1 || p.l3 = 2 then p.h.ipLen
  else if tail then len
  else fld m (A.MAC_PFRAME port) 0 14

end Sys2Proof.Machine
end

