-- ==== Sys2Proof/Machine/Clock.lean ====
section
/-! DEFINITION. Domain clocks, working time (R300-R306), gate states and the guard band (R312-R324): what every schedule reads.
Clock times are in units of 2^-42 ns, in which the mapping of R301 is exact. -/

namespace Sys2Proof.Machine

/-- One ns in units of 2^-42 ns. -/
def nsU : Int := 2 ^ 42

/-- 2.5 ns in the same units. -/
def slotU : Int := 5 * 2 ^ 41

/-- The domain clock of number `d`. -/
def domain (m : Chip) (d : Nat) : DomClk := m.time.dom.getD d {}

/-- R301: the time of a domain clock at an LT. -/
def DomClk.at (c : DomClk) (lt : Nat) : Int := c.T * 2 ^ 26 + ((lt : Int) - c.L) * (2 ^ 40 + c.rho)

/-- The working domain. -/
def working (m : Chip) : Nat := fld m A.TIME_CFG 0 1

/-- How far a running slew has moved the working offset between two LTs (R305): `max_ppm` parts per million of the domain
time that has passed. -/
def slewed (m : Chip) (lt : Nat) : Int :=
  let c := domain m (working m)
  (c.at lt - c.at m.time.wAt) * (fld m A.TIME_SLEW 0 10 : Nat) / 1000000

/-- The working offset at an LT (R304, R305). -/
def wOff (m : Chip) (lt : Nat) : Int :=
  if !m.time.slewing then m.time.w
  else if 0 ≤ m.time.w then max 0 (m.time.w - slewed m lt) else min 0 (m.time.w + slewed m lt)

/-- Working time at an LT (R304), in 2^-42 ns. -/
def workU (m : Chip) (lt : Nat) : Int := (domain m (working m)).at lt + wOff m lt

/-- Working time in whole ns, never below the epoch. -/
def workNs (m : Chip) (lt : Nat) : Nat := (workU m lt / nsU).toNat

/-- The LT at which working time reaches `tm`, as the mapping and a running slew stand at the LT `now` (R301, R305). -/
def ltOf (m : Chip) (now : Nat) (tm : Int) : Nat :=
  let c := domain m (working m)
  let r := 2 ^ 40 + c.rho
  let ppm : Int := (fld m A.TIME_SLEW 0 10 : Nat)
  let up := fun (a b : Int) => (a + b - 1) / b
  let slow := (now : Int) + up ((tm - workU m now) * 1000000) (r * (1000000 + (if 0 ≤ m.time.w then -ppm else ppm)))
  (if m.time.slewing && wOff m slow.toNat != 0 then slow else (now : Int) + up (tm - c.at now - (if m.time.slewing then 0 else m.time.w)) r).toNat

/-- The gate state of a front port. -/
def gateOf (m : Chip) (n : Nat) : GateSt := m.gates.getD n {}

/-- Change the gate state of a front port. -/
def updGate (m : Chip) (n : Nat) (f : GateSt → GateSt) : Chip := { m with gates := lset m.gates n f }

/-- The words of admin list entry `e` as one number (R314). -/
def adminEntry (m : Chip) (n e : Nat) : Nat := rdN m (A.GATE_ADMIN_LIST n e 0) + rdN m (A.GATE_ADMIN_LIST n e 1) * 2 ^ 32

/-- A segment of a gate cycle: start offset in 2.5 ns units, entry number, gate states, operation. -/
structure Seg where
  start : Nat
  entry : Nat
  states : Nat
  op : Nat
deriving DecidableEq, Repr

/-- The segments of one cycle (R315): entries laid end to end, cut short by the cycle's end. -/
def segs (cycle : Nat) : List Nat → Nat → Nat → List Seg
  | [], _, _ => []
  | e :: r, k, o =>
    if cycle ≤ o then []
    else ⟨o, k, bits e 32 8, bits e 40 2⟩ :: segs cycle r (k + 1) (o + bits e 0 29)

/-- The segments of a port's oper cycle. -/
def operSegs (g : GateSt) : List Seg := segs g.cycle ((List.range g.len).map fun e => (sget g.oper e).getD 0) 0 0

/-- The segments of a port's admin list. -/
def adminSegs (m : Chip) (n : Nat) : List Seg :=
  segs (fld m (A.GATE_ADMIN_CYCLE n) 0 29) ((List.range (fld m (A.GATE_ADMIN_LEN n) 0 11)).map (adminEntry m n)) 0 0

/-- The segments of the cycle that starts at a working time, with their absolute starts. -/
def cycleFrom (l : List Seg) (b : Int) : List (Int × Seg) := l.map fun s => (b + s.start * slotU, s)

/-- The start of the cycle that contains a working time, for cycles of length `cy` of which one starts at `base`. -/
def cycleOf (base cy tm : Int) : Int := tm - (tm - base) % cy

/-- Length of an oper cycle. -/
def GateSt.cy (g : GateSt) : Int := (g.cycle : Int) * slotU

/-- The change time of a pending change as a working time (R317). -/
def GateSt.ct (g : GateSt) : Option Int := g.pending.map fun k => (k : Int) * 2 ^ 41

/-- No oper cycle starts at or after this instant before a change at `ct` (R319): the one that would contain `ct` with less than `ext` before it
never starts. -/
def GateSt.lastStart (g : GateSt) (ct : Int) : Int :=
  let into := (ct - g.base * nsU) % g.cy
  if 0 < into && into < g.ext * slotU then ct - into else ct

/-- The start of the oper cycle in force at a working time: the cycle before a change may run on beyond its end (R319). -/
def GateSt.operCycle (g : GateSt) (tm : Int) : Int :=
  let b := cycleOf (g.base * nsU) g.cy tm
  match g.ct with
  | none => b
  | some c => if g.lastStart c ≤ b then b - g.cy else b

/-- Length of an admin cycle of a port. -/
def adminCy (m : Chip) (n : Nat) : Int := (fld m (A.GATE_ADMIN_CYCLE n) 0 29 : Int) * slotU

/-- The start of the gate cycle in force on a port at a working time, when a list operates: from a change time on it is a cycle of the admin
list. -/
def cycleStart (m : Chip) (n : Nat) (tm : Int) : Option Int :=
  let g := gateOf m n
  let old := if g.valid then some (g.operCycle tm) else none
  match g.ct with
  | none => old
  | some c => if c ≤ tm && flag m (A.GATE_PCTL n) 0 then some (cycleOf c (adminCy m n) tm) else old

/-- Oper segments about a working time, from the cycle before it to the cycle after it: none before the oper list came into force, none that
a pending change cuts off (R319). -/
def operLine (g : GateSt) (tm : Int) : List (Int × Seg) :=
  if !g.valid then []
  else
    let b := g.operCycle tm
    let l := operSegs g
    (cycleFrom l (b - g.cy) ++ cycleFrom l b ++ cycleFrom l (b + g.cy)).filter fun p =>
      g.since ≤ p.1 && (match g.ct with
        | none => true
        | some c => decide (p.1 < g.lastStart c))

/-- Admin segments from a change time on, about a working time. -/
def adminLine (m : Chip) (n : Nat) (ct tm : Int) : List (Int × Seg) :=
  let cy := adminCy m n
  let b := if tm < ct then ct else cycleOf ct cy tm
  let l := adminSegs m n
  (cycleFrom l (b - cy) ++ cycleFrom l b ++ cycleFrom l (b + cy)).filter fun p => ct ≤ p.1

/-- What the lists of a port give about a working time: segments with their absolute starts, in order, from the cycle before it to the cycle
after it, across cycle ends and into the admin list beyond a pending change time (R315, R319, R320, R323). Every use of a list reads it. -/
def timeline (m : Chip) (n : Nat) (tm : Int) : List (Int × Seg) :=
  if 20 ≤ n || !flag m (A.GATE_PCTL n) 0 then []
  else
    let g := gateOf m n
    operLine g tm ++ (match g.ct with
      | none => []
      | some c => adminLine m n c tm)

/-- The segment in force on a port at a working time, when a list operates: the last that starts at or before it (R316). -/
def segNow (m : Chip) (n : Nat) (tm : Int) : Option Seg := ((timeline m n tm).filter fun p => p.1 ≤ tm).getLast?.map (·.2)

/-- The gate states of a switch port at an LT: all open where no list operates (R312, R313, R316). In the cycle of a step they are still those
of before it (R322). -/
def gateStates (m : Chip) (n lt : Nat) : Nat :=
  if m.time.stepAt.any fun s => decide (lt < s + cyc) then (gateOf m n).seen
  else
    match segNow m n (workU m lt) with
    | some s => s.states
    | none => 0xFF

/-- Whether preemption is active on a port (R326): succeeded verification, or `verify_dis`. -/
def preActive (m : Chip) (n : Nat) : Bool :=
  n < 16 && flag m (A.GATE_PRE_CFG n) 0 && (fld m (A.GATE_PRE_STATUS n) 1 2 == 2 || flag m (A.GATE_PRE_CFG n) 1)

/-- Whether a class is preemptable (R327). -/
def preemptable (m : Chip) (n c : Nat) : Bool := preActive m n && flag m (A.GATE_PRE_CFG n) (16 + c)

/-- T_close of R323: the next instant after `tm` at which class `c` closes, or at which the MAC hold starts for a preemptable class. -/
def closeAt (m : Chip) (n c : Nat) (tm : Int) : Option Int :=
  let pre := preemptable m n c
  let adv := (fld m (A.GATE_PRE_ADV n) 0 16 : Int) * nsU
  let ts := (timeline m n tm).flatMap fun p =>
    (if bit p.2.states c then [] else [p.1]) ++ (if pre && p.2.op = 1 then [p.1 - adv] else [])
  (ts.filter (tm < ·)).foldl (fun a t => some (match a with | none => t | some x => min x t)) none

/-- Port rate in kb/s by the speed code of `MAC_PSTATUS` (R23 rates). -/
def rateOf : Nat → Nat
  | 1 => 10000
  | 2 => 100000
  | 3 => 1000000
  | 4 => 2500000
  | 5 => 5000000
  | 6 => 10000000
  | _ => 0

/-- Present speed code of a front port. -/
def speedOf (m : Chip) (n : Nat) : Nat := if n < 20 then fld m (A.MAC_PSTATUS n) 1 3 else 0

/-- Wire time of `k` bytes at a speed code in whole LT counts: 8 bits per byte, 4,000 counts per µs. An instant between two counts
has the LT of the earlier one (R14). -/
def wireLt (speed k : Nat) : Nat := k * 32000000 / rateOf speed

end Sys2Proof.Machine
end

