-- ==== Sys2Proof/Machine/Tm.lean ====
section
/-! DEFINITION. The packet buffer and the egress queues (06): cells and headroom, charges and admission, marking, copies of one
frame, abandoned copies, port states and flushes; the bytes a copy sends; and the scheduler state that a port's going down
resets (R296). -/

namespace Sys2Proof.Machine

/-! ### Frames and copies -/

/-- Change the buffer and scheduler state. -/
def updTm (m : Chip) (f : TmSt → TmSt) : Chip := { m with tm := f m.tm }

/-- The frame of an identifier, while the device holds it. -/
def frameOf (m : Chip) (fid : Nat) : Option Frame := m.tm.frames.find? fun f => f.id == fid

/-- Change one frame. -/
def updFrame (m : Chip) (fid : Nat) (g : Frame → Frame) : Chip :=
  updTm m fun t => { t with frames := t.frames.map fun f => if f.id = fid then g f else f }

/-- Change the copies that satisfy a condition. -/
def updCopies (m : Chip) (p : Copy → Bool) (g : Copy → Copy) : Chip :=
  updTm m fun t => { t with copies := t.copies.map fun c => if p c then g c else c }

/-- Take one copy away: its charge is released with it (R236). -/
def dropCopy (m : Chip) (fid port : Nat) : Chip :=
  updTm m fun t => { t with copies := t.copies.filter fun c => !(c.fid == fid && c.port == port) }

/-- Scheduler state of a port. -/
def schOf (m : Chip) (n : Nat) : SchSt := m.tm.sch.getD n {}

/-- Change the scheduler state of a port. -/
def updSch (m : Chip) (n : Nat) (f : SchSt → SchSt) : Chip := updTm m fun t => { t with sch := lset t.sch n f }

/-- Cells of a frame of `len` bytes (R221). -/
def cellsOf (len : Nat) : Nat := cdiv len 128

/-- A copy whose transmission has begun: sending, or suspended between fragments. -/
def Copy.begun (c : Copy) : Bool := c.st == .sending || c.st == .suspended

/-- A copy that waits in its queue, void entries included. -/
def Copy.inQueue (c : Copy) : Bool := c.st == .queued || c.st == .void

/-- The copies that wait in queue `tc` of port `n`, head first (R96). -/
def queueOf (m : Chip) (n tc : Nat) : List Copy := m.tm.copies.filter fun c => c.port == n && c.tc == tc && c.inQueue

/-- Source ID of class `cls` and instance `i` (R638). -/
def srcId (cls i : Nat) : Nat := cls * 256 + i

/-- State of a switch port in TM. -/
def tmPort (m : Chip) (n : Nat) : TmPort := m.tm.ports.getD n .down

/-- A switch port is in HOLD (R253). -/
def inHold (m : Chip) (n : Nat) : Bool :=
  match tmPort m n with
  | .hold _ => true
  | _ => false

/-- The speed code by which a switch port takes in bytes: internal and host ports hold whole frames. -/
def inSpeed (m : Chip) (n : Nat) : Nat := speedOf m n

/-- Bytes of a frame that have arrived by an LT. -/
def arrived (m : Chip) (f : Frame) (now : Nat) : Nat :=
  if f.verified || rateOf (inSpeed m f.port) = 0 then f.len
  else min f.len ((now - f.t0) * rateOf (inSpeed m f.port) / 32000000)

/-- Cells that a frame holds at an LT: one from its first byte (R232). -/
def heldCells (m : Chip) (f : Frame) (now : Nat) : Nat := max 1 (cellsOf (arrived m f now))

/-- Cells in use of the headroom (R232). -/
def hdrmUsed (m : Chip) (now : Nat) : Nat :=
  m.tm.frames.foldl (fun a f => if f.verified || f.dead then a else a + heldCells m f now) 0

/-- `TM_BUF_CFG.hdrm`. -/
def hdrm (m : Chip) : Nat := fld m A.TM_BUF_CFG 0 16

/-- Size `P` of the shared pool (R230). -/
def poolSize (m : Chip) : Nat :=
  65536 - hdrm m - (List.range 192).foldl (fun a q => a + fld m (A.TM_Q_CFG q) 0 12) 0 - m.tm.retired.length

/-- Occupancy of a queue: the charges of its copies (R234). -/
def occ (m : Chip) (q : Nat) : Nat :=
  m.tm.copies.foldl (fun a c => if c.port * 8 + c.tc = q then a + c.charge else a) 0

/-- Cells that a queue holds of the pool. -/
def poolPart (m : Chip) (q : Nat) : Nat := occ m q - fld m (A.TM_Q_CFG q) 0 12

/-- Pool cells in use, `S`: only queues that hold a copy count. -/
def poolUsed (m : Chip) : Nat :=
  (m.tm.copies.map fun c => c.port * 8 + c.tc).dedup.foldl (fun a q => a + poolPart m q) 0

/-- Cells on the free list. -/
def freeCells (m : Chip) (now : Nat) : Nat :=
  65536 - m.tm.retired.length - m.tm.frames.foldl (fun a f => if f.dead then a else a + heldCells m f now) 0

/-- Free a frame's cells once nothing of it is outstanding (R115, R236): cells of it that showed a double-symbol error are
retired, up to 64 (R228, R229). -/
def retireCell (m : Chip) (now cell cause bank : Nat) : Chip :=
  if m.tm.retired.contains cell then m
  else if 64 ≤ m.tm.retired.length then setIrq m .tm 6
  else
    let m := updTm m fun t => { t with retired := t.retired ++ [cell] }
    setIrq (emit m 0x0305 (srcId 3 0x18) now [(2, cell), (1, bank), (1, cause), (4, m.tm.retired.length)]) .tm 5

/-- Take a frame away when it has taken its lane decision, or takes none, and no copy of it is outstanding. -/
def gcFrame (m : Chip) (now fid : Nat) : Chip :=
  match frameOf m fid with
  | none => m
  | some f =>
    let outstanding := m.tm.copies.any fun c => c.fid == fid && c.st != .void
    let ended := f.ended && f.waiting.isEmpty
    let decided := f.phase == .decided || (f.dead && f.phase == .arriving)
    if ended && decided && !outstanding then
      let doomed := (m.tm.doomed.filter fun p => p.2 == fid).map (·.1)
      let m := updTm m fun t =>
        { t with frames := t.frames.filter (fun f => f.id != fid), doomed := t.doomed.filter fun p => p.2 != fid }
      doomed.foldl (fun m c => retireCell m now (c % 65536) (c / 65536 % 2) (c / 131072)) m
    else m

/-! ### Records of TM (R259) -/

/-- Write a record that `TM_LOG.max_per_ms` limits, or count it as withheld. -/
def tmLog (m : Chip) (now typ src : Nat) (pay : List (Nat × Nat)) : Chip :=
  if logFits m.tm.logWin now (fld m A.TM_LOG 0 16) then
    emit (updTm m fun t => { t with logWin := logCount t.logWin now }) typ src now pay
  else setIrq (bump m A.TM_CNT_LOG_LOST 1) .tm 7

/-- Abandon a copy of a frame with several copies (R250): count it and write MC_ABANDON. -/
def abandon (m : Chip) (now reason : Nat) (c : Copy) : Chip :=
  tmLog (setIrq (bump m (A.mc_abandoned c.port) 1) .tm 4) now 0x0302 (srcId 3 c.port)
    [(1, reason), (1, c.tc), (1, c.inPort), (1, c.charge), (8, c.stamp)]

/-- The rate in kb/s that the shapers of a port use at LT `now`: in the cycle of a change still the rate before it (R283). -/
def shaperRate (m : Chip) (n now : Nat) : Nat :=
  match (schOf m n).rateWas with
  | some (l, r) => if now < l + cyc then r else rateOf (speedOf m n)
  | none => rateOf (speedOf m n)

/-! ### What a copy sends -/

/-- Offset of the EtherType that follows the VLAN tags of a frame. -/
def tagOffset (h : Head) : Nat := h.mac - 2

/-- Whether a frame carries an R-TAG directly after its VLAN tags (R337). -/
def hasRtag (f : Frame) : Bool := beNat (slice f.bytes (12 + 4 * f.head.tags) 2) == 0xF1C1

/-- The R-TAG of a sequence number: EtherType 0xF1C1, two reserved bytes, the sequence number. -/
def rtag (seq : Nat) : List Byte := beBytes 2 0xF1C1 ++ [0, 0] ++ beBytes 2 seq

/-- Queued length of a copy with R-TAG operation `tag` (R341): a frame that loses its R-TAG is sent with at least 64 bytes (R52). -/
def tagLen (f : Frame) (tag len : Nat) : Nat :=
  if tag = 1 && !hasRtag f then len + 6 else if tag = 2 && hasRtag f then max 64 (len - 6) else len

/-- Apply an R-TAG operation to a frame's bytes (R340). -/
def tagBytes (f : Frame) (tag : Nat) : List Byte :=
  let o := 12 + 4 * f.head.tags
  let tail := f.bytes.drop (if hasRtag f then o + 6 else o)
  if tag = 1 then f.bytes.take o ++ rtag f.seqNum ++ tail
  else if tag = 2 then
    let b := f.bytes.take o ++ tail
    b ++ List.replicate (60 - b.length) 0
  else f.bytes

/-- One's complement addition of 16-bit words. -/
def add1c (a b : Nat) : Nat := if a + b < 65536 then a + b else a + b - 65535

/-- Set the ECN field of a frame to CE (R242): the IPv4 checksum follows by the incremental update of RFC 1624. -/
def setCe (f : Frame) : List Byte :=
  let o := f.head.mac
  if bits f.md 14 2 = 1 then
    let old := beNat (slice f.bytes o 2)
    let new := old - old % 4 + 3
    let sum := beNat (slice f.bytes (o + 10) 2)
    let sum' := 65535 - add1c (add1c (65535 - sum) (65535 - old)) new
    f.bytes.take o ++ beBytes 2 new ++ slice f.bytes (o + 2) 8 ++ beBytes 2 sum' ++ f.bytes.drop (o + 12)
  else
    let old := beNat (slice f.bytes o 2)
    f.bytes.take o ++ beBytes 2 (Nat.lor old 0x30) ++ f.bytes.drop (o + 2)

/-- A copy that R242 or R144 may mark (R241). -/
def ecnCapable (f : Frame) : Bool := (bits f.md 14 2 == 1 || bits f.md 14 2 == 2) && f.head.ecn != 0

/-- The bytes that a copy sends before any MACsec protection: CE where it is marked, and its R-TAG operation. A mirror copy
leaves as it was received (R142). -/
def copyBytes (f : Frame) (c : Copy) : List Byte :=
  let f := if c.mark && ecnCapable f && f.head.ecn != 3 then { f with bytes := setCe f } else f
  tagBytes f c.tag

/-- The key of the Vault slot that an association names. -/
def sakOf (m : Chip) (sa : Nat) : List Byte := ((sget m.vault.slots (fld m sa 8 8)).map (·.key)).getD []

/-- Bytes that MACsec adds to a frame: the SecTAG, with or without an SCI, and the ICV. -/
def macsecAdds (m : Chip) (n : Nat) : Nat := if flag m (A.MACSEC_TXSC_CFG n) 8 then 32 else 24

/-- The bytes of a copy on the wire, MACsec applied (log entry 4). -/
def wireBytes (m : Chip) (f : Frame) (c : Copy) : List Byte :=
  match c.sec with
  | none => copyBytes f c
  | some (an, pn) =>
    let b := copyBytes f c
    Config.crypto "MACSEC_PROTECT" (sakOf m (A.MACSEC_TXSC_SA c.port an)) [b, beBytes 8 pn] (b.length + macsecAdds m c.port)

/-- Wire LT of what is left of a copy from its first preamble byte to its last byte. -/
def txLt (m : Chip) (c : Copy) : Nat :=
  wireLt (speedOf m c.port) (8 + (c.len - c.sent) + (if c.sec.isSome then macsecAdds m c.port else 0))

/-- Bytes that a copy in transmission has sent by an LT: 8 bits a byte, after 8 bytes of preamble. -/
def sentBytes (m : Chip) (c : Copy) (now : Nat) : Nat :=
  (now - c.start) * rateOf (speedOf m c.port) / 32000000 - 8

/-- Stream handle of a metadata word, and whether it is valid (R131). -/
def mdStream (md : Nat) : Nat := bits md 48 11
def mdStreamValid (md : Nat) : Bool := bit md 59

/-- Whether `LEDGER_STREAM_EN` selects a metadata word's stream (R641). -/
def streamSel (m : Chip) (md : Nat) : Bool :=
  mdStreamValid md && flag m (A.LEDGER_STREAM_EN (mdStream md / 32)) (mdStream md % 32)

/-- The FRAME_TX record of a copy whose transmission ends (R639, R642). -/
def frameTx (m : Chip) (f : Frame) (c : Copy) (stomped : Bool) : Chip :=
  if c.port < 20 && (flag m A.LEDGER_FRAME_TX_PORTS c.port || streamSel m f.md) then
    emitFrame m 0x0101 (srcId 1 c.port) c.stampTx
      [(8, c.stamp), (2, mdStream f.md + b2n (mdStreamValid f.md) * 2048 + c.tc * 4096 + b2n stomped * 32768), (1, c.inPort)]
  else m

/-- Frame bytes that a copy has sent by an LT, those of earlier fragments included: a suspended copy sends none. -/
def copySent (m : Chip) (c : Copy) (now : Nat) : Nat := c.sent + (if c.st == .sending then sentBytes m c now else 0)

/-- The first byte of a granted copy is still ahead: the device has sent nothing of it. -/
def Copy.unsent (c : Copy) (now : Nat) : Bool := c.st == .sending && now ≤ c.start && c.sent == 0

/-- A signed 16-bit correction in LT counts added to a stamp (R60, R61). -/
def corrected (lt corr : Nat) : Nat := ((lt : Int) + sgn corr 16).toNat

/-- `MAC_PCFG.loopback` of a front port: 0 none, 1 MAC, 2 NEAR, 3 FAR (R65). -/
def loopMode (m : Chip) (n : Nat) : Nat := if n < 20 then fld m (A.MAC_PCFG n) 8 2 else 0

/-- The bytes that a front port has sent of a copy, with a good or a stomped FCS: they go to the line, or in MAC or NEAR loopback back to the
port, where they enter in the next cycle (R65). -/
def putWire (m : Chip) (now : Nat) (c : Copy) (bytes : List Byte) (stomped : Bool) : Chip :=
  if loopMode m c.port = 1 || loopMode m c.port = 2 then
    nextCycle m now (.looped c.port (corrected c.stampTx (2 ^ 16 - fld m (A.MAC_PTS_CORR c.port) 16 16)) bytes (!stomped))
  else say m (.frame c.port bytes stomped c.stampTx)

/-- End a copy already partly sent with a stomped FCS (R57): it is counted, recorded and its charge released. Of one whose first byte is
still ahead nothing was sent, and it is only taken away. -/
def stomp (m : Chip) (now : Nat) (c : Copy) : Chip :=
  if c.unsent now then dropCopy m c.fid c.port
  else
    let m := match frameOf m c.fid with
      | some f => frameTx (putWire m now c ((wireBytes m f c).take (if c.cut then min c.len (copySent m c now) else copySent m c now)) true) f c true
      | none => m
    let m := bump (dropCopy m c.fid c.port) (A.tx_stomped c.port) 1
    updSch m c.port fun s => { s with gapTill := max now c.start + wireLt (speedOf m c.port) 16, gapTc := c.tc }

/-- The copies of a frame in transmission, or suspended. -/
def begunOf (m : Chip) (fid : Nat) : List Copy := m.tm.copies.filter fun c => c.fid == fid && c.begun

/-- How many copies of a frame end with a stomped FCS when it ends now. -/
def stompedOf (m : Chip) (now fid : Nat) : Nat := ((begunOf m fid).filter fun c => c.port < 20 && !c.unsent now).length

/-- Stomp every copy of a frame that has begun on a front port, and discard every other copy of it (R86, R115, R224, R233). A void entry
holds its charge until it reaches the head of its queue (R252). -/
def killFrame (m : Chip) (now fid : Nat) : Chip :=
  let m := (begunOf m fid).foldl (fun m c => if c.port < 20 then stomp m now c else dropCopy m fid c.port) m
  let m := updTm m fun t => { t with copies := t.copies.filter fun c => c.fid != fid || c.st == .void }
  gcFrame (updFrame m fid fun f => { f with dead := true, waiting := [] }) now fid

/-- Drop a frame that finds the headroom fully used (R233). -/
def hdrmDrop (m : Chip) (now : Nat) (f : Frame) (bytes : Nat) : Chip :=
  let k := stompedOf m now f.id
  let m := killFrame m now f.id
  tmLog (setIrq (bump m (A.hdrm_drop f.port) 1) .tm 2) now 0x0304 (srcId 3 f.port)
    [(2, bytes), (1, k), (1, 0), (8, f.stamp)]

/-- The instants in `(a, b]` at which an arriving frame needs its next cell, for the first byte of it: instant, frame and bytes so far. -/
def cellNeeds (m : Chip) (a b : Nat) (f : Frame) : List (Nat × Nat × Nat) :=
  if f.verified || f.dead || rateOf (inSpeed m f.port) = 0 then []
  else ((List.range (cellsOf f.len)).drop 1).filterMap fun k =>
    let t := f.t0 + wireLt (inSpeed m f.port) (k * 128 + 1)
    if a < t && t ≤ b then some (t, f.id, k * 128 + 1) else none

/-- A frame needs its next cell at the LT `e.1`: it is dropped while the headroom is fully used, by the cells held before and by those
that other frames took at the same LT, `k.2` of them where `k.1` is that LT. -/
def fillCell (x : Chip × Nat × Nat) (e : Nat × Nat × Nat) : Chip × Nat × Nat :=
  let (m, k) := x
  let here := if k.1 = e.1 then k.2 else 0
  match frameOf m e.2.1 with
  | none => x
  | some f =>
    if f.dead then x
    else if hdrm m ≤ hdrmUsed m (e.1 - 1) + here then (hdrmDrop m e.1 f e.2.2, e.1, here)
    else (m, e.1, here + 1)

/-- Let cells fill between two LTs: a frame that needs a cell while the headroom is fully used is dropped (R233). -/
def fillCells (m : Chip) (a b : Nat) : Chip :=
  let most := m.tm.frames.foldl (fun x f => if f.verified || f.dead then x else x + cellsOf f.len) 0
  if most ≤ hdrm m then m
  else (((m.tm.frames.flatMap (cellNeeds m a b)).mergeSort fun x y => x.1 ≤ y.1).foldl fillCell (m, 0, 0)).1

/-! ### Admission (R234-R244) -/

/-- The verdict of R237. -/
inductive Admit where
  | down | thr | noRoom | admitted (mark : Bool)
deriving DecidableEq, Repr

/-- ⌊`f` × 2^`alpha_k`⌋ for the signed 4-bit `k`. -/
def alphaLimit (f k : Nat) : Nat := if k < 8 then f * 2 ^ k else f / 2 ^ (16 - k)

/-- Judge a copy of `c` cells to queue `q` (R237); `ect` tells that it is ECN-capable. -/
def judge (m : Chip) (port q c : Nat) (ect : Bool) : Admit :=
  let o := occ m q
  let mn := fld m (A.TM_Q_CFG q) 0 12
  let r := c - min c (mn - o)
  let f := poolSize m - poolUsed m
  if tmPort m port = .down then .down
  else if !ect && fld m (A.TM_Q_THR q) 16 16 < o + c then .thr
  else if 0 < r && (alphaLimit f (fld m (A.TM_Q_CFG q) 12 4) < (o - mn) + r || f < r) then .noRoom
  else .admitted (fld m (A.TM_Q_THR q) 0 16 < o + c)

/-- Put an admitted copy at the end of its queue (R96), counted as marked or as one that would have been (R242-R244). -/
def enqueue (m : Chip) (c : Copy) (ect mark : Bool) : Chip :=
  let q := c.port * 8 + c.tc
  let m := bump m (A.enq q) 1
  let want := mark || c.mark
  let m := if want then bump m (if ect then A.ecn_marked q else A.would_mark q) 1 else m
  updTm m fun t => { t with copies := t.copies ++ [{ c with mark := want && ect }] }

/-- Count a refused copy (R237, R250). -/
def refuseCopy (m : Chip) (now : Nat) (c : Copy) (a : Admit) : Chip :=
  let q := c.port * 8 + c.tc
  match a with
  | .down =>
    let m := bump m (A.drop_down q) 1
    if c.multi then abandon m now 1 c else m
  | .thr =>
    let m := bump m (A.drop_thr q) 1
    if c.multi then abandon m now 2 c else m
  | .noRoom =>
    let m := bump m (A.drop_noroom q) 1
    if c.multi then abandon m now 3 c else m
  | .admitted _ => m

/-- The copy that a destination of a frame asks for, with `len` bytes queued. -/
def copyFor (f : Frame) (d : Dest) (len : Nat) (cut : Bool) : Copy :=
  { fid := f.id, port := d.port, tc := d.tc, inPort := f.port, stamp := f.stamp, len := tagLen f d.tag len,
    charge := cellsOf (tagLen f d.tag len), cut := cut, multi := d.multi, mirror := d.mirror, mark := d.mark, tag := d.tag }

/-- Whether an R-TAG takes a copy above its port's `max_frame` (R341). -/
def tagOver (m : Chip) (f : Frame) (d : Dest) (len : Nat) : Bool :=
  d.tag == 1 && d.port < 20 && fld m (A.MAC_PFRAME d.port) 0 14 < tagLen f d.tag len && !(fld m (A.MAC_PFRAME d.port) 0 14 < len)

/-- Bring a copy to admission (R237). A cut-through copy without room at its declared length waits for its tail as a
store-and-forward copy (R238). -/
def admitCopy (m : Chip) (now : Nat) (f : Frame) (d : Dest) (len : Nat) (cut : Bool) : Chip :=
  let c := copyFor f d len cut
  if tagOver m f d len then bump m (A.tx_oversize d.port) 1
  else
    match judge m d.port (d.port * 8 + d.tc) c.charge (ecnCapable f) with
    | .admitted mk => enqueue m c (ecnCapable f) mk
    | .noRoom =>
      if cut && !f.verified then updFrame m f.id fun f => { f with waiting := f.waiting ++ [d] }
      else refuseCopy m now c .noRoom
    | a => refuseCopy m now c a

/-! ### Port states and flushes (R253-R258, R296) -/

/-- Set the state of a switch port. -/
def setTmPort (m : Chip) (n : Nat) (p : TmPort) : Chip := updTm m fun t => { t with ports := lset t.ports n fun _ => p }

/-- Highest weighted class of a port (R275). -/
def topWeighted (m : Chip) (n : Nat) : Nat := 7 - fld m (A.TM_SCH_PORT_CFG n) 0 3

/-- Scale of shaper credit and Purse tokens: 1/32,000,000 byte. -/
def byteU : Nat := 32000000

/-- The 1/1,024 byte to which credit and tokens are kept (R285), on that scale: what a grant or a correction takes is a whole number of
these, rounded up; what accrues below one is carried on. -/
def creditU : Nat := 31250

/-- A Purse as its `refill` starts it (R292). -/
def Purse.restart (p : Purse) : Purse := { p with tokens := if p.refill = 0 then p.burst * byteU else 0 }

/-- A shaper as its `refill` starts it (R292). -/
def Shaper.restart (p : Shaper) : Shaper := { p with credit := if p.refill = 0 then p.hi * byteU else 0 }

/-- What entering DOWN does to a port's scheduler (R296). -/
def schDown (m : Chip) (n : Nat) : Chip :=
  let p := topWeighted m n
  updSch m n fun s => { s with
    deficit := List.replicate 8 0, opens := List.replicate 8 false, ptr := p,
    shapers := s.shapers.map fun x => (x.1, { x.2 with credit := 0 }), purse := s.purse.map Purse.restart }

/-- Flush a port's queues (R255) and enter DOWN. -/
def flushPort (m : Chip) (now n : Nat) : Chip :=
  let all := m.tm.copies.filter fun c => c.port == n && c.inQueue
  let live := all.filter fun c => c.st == .queued
  let cells := all.foldl (fun a c => a + c.charge) 0
  let multi := live.filter (·.multi)
  let m := updTm m fun t => { t with copies := t.copies.filter fun c => !(c.port == n && c.inQueue) }
  let m := live.foldl (fun m c => bump m (A.flushed (n * 8 + c.tc)) 1) m
  let m := multi.foldl (fun m c => abandon m now 6 c) m
  let m := setIrq (emit m 0x0303 (srcId 3 n) now [(4, live.length), (4, cells), (2, multi.length)]) .tm 3
  let m := live.foldl (fun m c => gcFrame m now c.fid) m
  schDown (setTmPort m n .down) n

/-- A switch port goes down (R253): a copy in transmission is not transmitted again (R257). -/
def tmPortDown (m : Chip) (now n : Nat) : Chip :=
  let sent := m.tm.copies.filter fun c => c.port == n && c.begun
  let m := updTm m fun t => { t with copies := t.copies.filter fun c => !(c.port == n && c.begun) }
  let m := sent.foldl (fun m c => gcFrame m now c.fid) m
  match tmPort m n with
  | .up =>
    if fld m (A.TM_PORT_HOLD n) 0 17 = 0 then flushPort m now n
    else setTmPort m n (.hold (now + fld m (A.TM_PORT_HOLD n) 0 17 * us))
  | _ => m

/-- The link of a switch port comes up (R253). -/
def tmPortUp (m : Chip) (n : Nat) : Chip := setTmPort m n .up

end Sys2Proof.Machine
end

