-- ==== Sys2Proof/Machine/Advance.lean ====
section
/-! DEFINITION. What happens by itself between two commands: shaper credit and Purse tokens grow, cells fill, void heads leave; and
which power domains run. -/

namespace Sys2Proof.Machine

/-! ### Fragments (R324, R328) -/

/-- Counted overhead of a port (R272): `macsec` tells that MACsec transmit is enabled on it. -/
def overhead (m : Chip) (n : Nat) (macsec : Bool) : Int :=
  sgn (fld m (A.TM_SCH_PORT_CFG n) (if macsec then 11 else 4) 7) 7

/-- MACsec transmit is enabled on a front port: its transmit SC has `en` 1 (09). -/
def macsecTx (m : Chip) (n : Nat) : Bool := n < 16 && flag m (A.MACSEC_TXSC_CFG n) 0

/-- Counted length of a copy with `len` frame bytes (R272). -/
def countedLen (m : Chip) (n len : Nat) : Nat := ((len : Int) + overhead m n (macsecTx m n)).toNat

/-- Frame bytes of the present fragment that a copy has sent by an LT. -/
def fragSent (m : Chip) (c : Copy) (now : Nat) : Nat := min (c.len - c.sent) (sentBytes m c now)

/-- Least frame bytes of a non-final fragment on a port (R328). -/
def minFrag (m : Chip) (n : Nat) : Nat := 64 * (1 + fld m (A.GATE_PRE_CFG n) 2 2) - 4

/-- LT at which the fragment of a copy in transmission with `k` frame bytes ends with its mCRC. -/
def fragEnd (m : Chip) (c : Copy) (k : Nat) : Nat := c.start + wireLt (speedOf m c.port) (8 + k + 4)

/-- Suspend a preemptable copy with `k` frame bytes of its present fragment: the fragment runs on to its end, and its gap follows. -/
def suspend (m : Chip) (now : Nat) (c : Copy) (k : Nat) : Chip :=
  let m := updCopies m (fun x => x.fid == c.fid && x.port == c.port)
    fun x => { x with st := .suspended, sent := x.sent + k, left := x.len - (x.sent + k) }
  updSch m c.port fun s => { s with gapTill := max now (fragEnd m c k) + wireLt (speedOf m c.port) 12, gapTc := c.tc }

/-- The earliest preemption point of a copy in transmission (R328): frame bytes of its present fragment, if it has one. -/
def earliestCut (m : Chip) (c : Copy) (now : Nat) : Option Nat :=
  let k := max (minFrag m c.port) (fragSent m c now)
  if c.sent + k + 64 ≤ c.len then some k else none

/-- The latest preemption point of a copy before a closing (R328): the fragment with its gap ends by T_close - `guard_extra`. -/
def latestCut (m : Chip) (c : Copy) (close startTm : Int) : Option Nat :=
  let r := rateOf (speedOf m c.port)
  let room := close - (fld m (A.GATE_GUARD c.port) 0 16 : Int) * nsU - startTm
  let wire := (room / nsU).toNat * r / 8000000
  let k := min (wire - 24) (c.len - c.sent - 64)
  if minFrag m c.port ≤ k && c.sent + 64 + k ≤ c.len then some k else none

/-- Where the device cuts a preemptable copy in transmission before a closing or a hold (R328): frame bytes of its present fragment, where what is
left of it does not fit before the next T_close with `guard_extra`. -/
def plannedCut (m : Chip) (c : Copy) (now : Nat) : Option Nat :=
  if c.port < 20 && c.st == .sending && now ≤ c.start + txLt m c && preemptable m c.port c.tc then
    match closeAt m c.port c.tc (workU m (max now c.start)) with
    | none => none
    | some t =>
      let stop := workU m (c.start + txLt m c + wireLt (speedOf m c.port) 12) + (fld m (A.GATE_GUARD c.port) 0 16 : Int) * nsU
      if stop ≤ t then none
      else
        match latestCut m c t (workU m c.start) with
        | some k => if fragSent m c now ≤ k then some k else none
        | none => none
  else none

/-- The cut that is planned for a copy at LT `a` is made, if its fragment ends by LT `b`. -/
def cutCopy (a b : Nat) (m : Chip) (c : Copy) : Chip :=
  match plannedCut m c a with
  | some k => if fragEnd m c k ≤ b then suspend m (min b (fragEnd m c k)) c k else m
  | none => m

/-- The copies that a front port sends. -/
def sendingOn (m : Chip) (n : Nat) : List Copy := m.tm.copies.filter fun c => c.port == n && c.st == .sending

/-- The cuts that were planned with fragments that end by LT `b` are made. -/
def cutAll (m : Chip) (a b : Nat) : Chip := (m.tm.copies.filter fun c => c.port < 20 && c.st == .sending).foldl (cutCopy a b) m

/-! ### Credit and tokens -/

/-- How long in `[a, b)` no copy of class `c` is in transmission on port `n`, in whole cycles (R281): a copy is in transmission from the
cycle in which its first byte starts to the cycle in which the gap after its last byte ends (R848). -/
def offWire (m : Chip) (n c a b : Nat) : Nat :=
  let s := schOf m n
  let lo := if s.gapTc = c && a < s.gapTill then a + cdiv (s.gapTill - a) cyc * cyc else a
  match m.tm.copies.find? fun x => x.port == n && x.tc == c && x.st == .sending with
  | some x => min b (a + (x.start - a) / cyc * cyc) - lo
  | none => b - lo

/-- The credit of an enabled shaper after the span from `a` to `b` (R281, R295): held in HOLD, while the gate is closed and
while a copy of the class is in transmission; it rises at `idle_slope` with a head or below 0; it falls to 0 without one. -/
def Shaper.after (m : Chip) (n c a b : Nat) (s : Shaper) : Shaper :=
  if inHold m n || !bit (gateStates m n a) c then s
  else
    let d := offWire m n c a b
    if d = 0 then s
    else if !(queueOf m n c).isEmpty then
      { s with credit := max s.credit (min (s.hi * byteU : Nat) (s.credit + (s.slope * d : Nat))) }
    else { s with credit := min 0 (s.credit + (s.slope * d : Nat)) }

/-- The tokens of an enabled Purse after a span (R286). -/
def Purse.after (d : Nat) (p : Purse) : Purse :=
  { p with tokens := min (p.burst * byteU : Nat) (p.tokens + (p.rate * d : Nat)) }

/-- Shapers and Purse of every port after the span from `a` to `b`. -/
def accrue (m : Chip) (a b : Nat) : Chip :=
  if m.tm.sch.all fun s => s.shapers.isEmpty && s.purse.isNone then m
  else
    let sch := m.tm.sch.zipIdx.map fun p =>
      { p.1 with shapers := p.1.shapers.map (fun x => (x.1, x.2.after m p.2 x.1 a b)), purse := p.1.purse.map (Purse.after (b - a)) }
    updTm m fun t => { t with sch := sch }

/-- Whether an enabled shaper's slope has reached its port's rate (R284). -/
def slopeOver (m : Chip) : Bool :=
  m.tm.sch.zipIdx.any fun p =>
    0 < rateOf (speedOf m p.2) && p.1.shapers.any fun x => rateOf (speedOf m p.2) ≤ x.2.slope

/-- The void entries of a queue that reach its head before LT `b`, where LT `a` has come: each is removed in the cycle in which it is the
head, and the next copy is the head one cycle later (R246, R252). -/
def stripQueue (m : Chip) (n tc a b : Nat) : Chip :=
  let lead := (queueOf m n tc).takeWhile fun c => c.st == .void
  if lead.isEmpty then m
  else
    let h := max a ((schOf m n).headAt.getD tc 0)
    let k := min lead.length (cdiv (b - h) cyc)
    if k = 0 then m
    else updSch ((lead.take k).foldl (fun m c => dropCopy m c.fid c.port) m) n fun s =>
      { s with headAt := lset s.headAt tc fun _ => h + k * cyc }

/-- Void entries leave from the heads of their queues. -/
def stripHeads (m : Chip) (a b : Nat) : Chip :=
  ((m.tm.copies.filter fun c => c.st == .void).map fun c => (c.port, c.tc)).dedup.foldl (fun m q => stripQueue m q.1 q.2 a b) m

/-- What happens by itself from LT `a` to LT `b`. -/
def advance (m : Chip) (a b : Nat) : Chip :=
  if b ≤ a then m
  else
    let m := cutAll (accrue (fillCells (stripHeads m a b) a b) a b) a b
    if slopeOver m then setIrq m .tm 16 else m

/-- What R670 asks of an idle device: no queued copy, no head in a lane, no transfer, no Mint job that runs or waits, no emission. -/
def quiet (m : Chip) : Bool :=
  !(m.tm.copies.any (·.inQueue)) && (m.prs.lanes.all fun l => l.fifo.isEmpty && l.pipe.isEmpty) && m.prs.dec.isEmpty && m.tm.adm.isEmpty && (m.dma.work.all (·.ended.isSome))
    && m.mint.jobs.isEmpty && m.sge.pend.isEmpty && m.sge.macs.isEmpty && m.sge.dueNow.isEmpty
    && !(m.dma.rings.zipIdx.any fun p => p.1.head != p.1.tail && fld m (A.HIF_RING_CFG p.2) 0 4 == 9)

/-- Keep the LT since which the device has been idle (R670). -/
def idleTrack (now : Nat) (m : Chip) : Chip :=
  { m with pwr := { m.pwr with idleSince := if quiet m then some (m.pwr.idleSince.getD now) else none } }

/-- The CORE domain runs: RUN or PARKING, and not held in reset (R671, R818). -/
def coreOn (m : Chip) : Bool := (m.pwr.mode == .run || m.pwr.mode == .parking) && !m.pwr.held

/-- A power domain is on (R701): domain instances as in `PWR_DOM_STATUS`. -/
def domOn (m : Chip) (d : Nat) : Bool := coreOn m && bit m.pwr.on d

end Sys2Proof.Machine
end

