-- ==== Sys2Proof/Machine/Gates.lean ====
section
/-! DEFINITION. Effects of TIME and GATE (08): rate writes and offset commands, working time and its steps, holdover, the base
cycle, schedule changes, overruns, the MAC hold, preemption, trim windows and recovery functions. -/

namespace Sys2Proof.Machine

/-! ### Working time (R300-R307) -/

/-- Change the TIME block. -/
def updTime (m : Chip) (f : TimeSt → TimeSt) : Chip := { m with time := f m.time }

/-- Change a domain clock. -/
def updDom (m : Chip) (d : Nat) (f : DomClk → DomClk) : Chip := updTime m fun t => { t with dom := lset t.dom d f }

/-- Fix the working offset at its present value, so that a change of rate or mapping starts from it. -/
def syncW (m : Chip) (now : Nat) : Chip := let w := wOff m now; updTime m fun t => { t with w := w, wAt := now }

/-- A TIME_ANCHOR is due in the cycle after this one (R646): after the records that are queued by now. -/
def anchorDue (m : Chip) : Chip :=
  { m with ledger := { m.ledger with anchors := m.ledger.anchors ++ [m.ledger.evtQ.length] } }

/-- Set or clear holdover, with its record and event (R307): the record names the working domain, and its ρ, after the change. -/
def setHoldover (m : Chip) (now : Nat) (h : Bool) : Chip :=
  if m.time.holdover = h then m
  else
    let m := updTime m fun t => { t with holdover := h }
    let m := emit m 0x1102 (srcId 0x11 (working m)) now [(1, b2n h), (3, 0), (4, enc (domain m (working m)).rho 32)]
    anchorDue (setIrq m .time (if h then 0 else 1))

/-- The holdover condition of the working domain (R307). -/
def unsteered (m : Chip) (now : Nat) : Bool :=
  match (domain m (working m)).steered with
  | none => true
  | some l => fld m A.TIME_HOLD 0 16 * ms ≤ now - l

/-- Seconds and ns of three registers as ns: NS, SEC_LO, SEC_HI at `a`. -/
def rdTime (m : Chip) (a : Nat) : Nat := bits (rdN m a) 0 30 + (rdN m (a + 4) + fld m (a + 8) 0 16 * 2 ^ 32) * 1000000000

/-! ### Trim windows (R332-R335) -/

/-- The interval about a working time in which every class of `mask` is closed (R332): its start and its end, each absent where the lists
hold the mask closed that far. -/
def closedRun (m : Chip) (n : Nat) (tm : Int) (mask : Nat) : Option (Option Int × Option Int) :=
  let l := timeline m n tm
  let isOpen := fun (p : Int × Seg) => Nat.land p.2.states mask != 0
  let past := (l.filter fun p => p.1 ≤ tm).reverse
  match past.head? with
  | none => none
  | some cur =>
    if isOpen cur then none
    else
      let run := past.takeWhile fun p => !isOpen p
      let begin_ := if run.length < past.length || (gateOf m n).since = (run.getLast?.map (·.1)).getD tm then run.getLast?.map (·.1) else none
      some (begin_, (l.find? fun p => tm < p.1 && isOpen p).map (·.1))

/-- The trim window that a port is in at an LT, when trimming is on: its start and end in working time. The rest of an interval in which an
event ended the window is none (R335). -/
def trimWindow (m : Chip) (n now : Nat) : Option (Option Int × Option Int) :=
  let cfg := A.GATE_TRIM_CFG n
  if !flag m cfg 0 then none
  else
    match closedRun m n (workU m now) (fld m cfg 24 8) with
    | none => none
    | some (a, b) =>
      let long := match a, b with
        | some a, some b => decide ((fld m cfg 8 16 : Int) * nsU ≤ b - a)
        | _, _ => true
      let kept := match (gateOf m n).aborted, a with
        | none, _ => true
        | some x, some a => decide (x < a)
        | some _, none => false
      if long && kept then some (a, b) else none

/-- A trim window of at least `trim_long` µs, in which the staging SRAM is put into its low-leakage mode (R334). -/
def longWindow (m : Chip) (n : Nat) (w : Option Int × Option Int) : Bool :=
  let us := fld m (A.GATE_TRIM_CFG n) 1 7
  us != 0 && (match w with
    | (some a, some b) => decide ((us * 1000 : Nat) * nsU ≤ b - a)
    | _ => true)

/-- The egress logic of a port is gated (R332), and in a long window its staging SRAM is in low-leakage mode until 1 µs before the window
ends (R334). -/
def trimGate (m : Chip) (now n : Nat) (w : Option Int × Option Int) : Chip :=
  let low := longWindow m n w && (match w.2 with
    | some b => decide (workU m now < b - 1000 * nsU)
    | none => true)
  let m := bump (updGate m n fun g => { g with trimmed := true, low := low }) (A.trim_windows n) 1
  match low, w.2 with
  | true, some b => later m (ltOf m now (b - 1000 * nsU)) (.staging n)
  | _, _ => m

/-- The staging SRAM leaves its low-leakage mode when 1 µs of the window is left (R334). -/
def stagingBack (m : Chip) (now n : Nat) : Chip :=
  match trimWindow m n now with
  | some (_, some b) =>
    if now < ltOf m now (b - 1000 * nsU) && (gateOf m n).low then later m (ltOf m now (b - 1000 * nsU)) (.staging n)
    else updGate m n fun g => { g with low := false }
  | some (_, none) => m
  | none => updGate m n fun g => { g with low := false }

/-- The read path of the packet-buffer banks is in low-leakage mode (R334): every port that trims has its staging SRAM in it, ports 20-23 have
no copy, and the scrubber does not read in this cycle. -/
def readPathLow (m : Chip) (now : Nat) : Bool :=
  let trims := (List.range 20).filter fun n => flag m (A.GATE_TRIM_CFG n) 0
  !trims.isEmpty && (trims.all fun n => (gateOf m n).low) && !(m.tm.copies.any fun c => 20 ≤ c.port) && m.tm.scrubAt != now

/-- An event ends a trim window at once (R335): the logic is back within 1 µs. -/
def trimAbort (m : Chip) (n now : Nat) : Chip :=
  if 20 ≤ n then m
  else
    match trimWindow m n now with
    | none => updGate m n fun g => { g with trimmed := false, low := false }
    | some _ =>
      let m := updGate m n fun g =>
        { g with restoreAt := if g.trimmed then now + us else g.restoreAt, trimmed := false, low := false, aborted := some (workU m now) }
      setEvt (bump m (A.trim_abort n) 1) (A.GATE_EVENT n) (A.GATE_EVENT_EN n) 3 .gate n

/-! ### Overruns (R325) -/

/-- A copy in transmission overruns a closing or a hold (R325): it is counted and recorded; a preemptable copy is preempted. -/
def overrun (m : Chip) (now : Nat) (c : Copy) (cause : Nat) : Chip :=
  let n := c.port
  let cut := if preemptable m n c.tc then earliestCut m c now else none
  let wire := match cut with
    | some k => 8 + k + 4
    | none => 8 + (c.len - c.sent) + (if c.sec.isSome then macsecAdds m n else 0)
  let after := wire - (now - c.start) * rateOf (speedOf m n) / 32000000
  let m := emit (bump m (A.overrun n) 1) 0x0402 (srcId 4 n) now
    [(1, c.tc), (1, if c.cause = 0 then cause else c.cause), (2, sat 16 after), (8, c.stamp)]
  let m := setEvt m (A.GATE_EVENT n) (A.GATE_EVENT_EN n) 2 .gate n
  match cut with
  | some k => suspend m now c k
  | none => m

/-- The copies in transmission of the classes of `mask` on a port meet a closing: those for which a cut was planned are suspended by
then (R328), so that every other is an overrun. -/
def closeOn (m : Chip) (n now mask cause : Nat) : Chip :=
  (m.tm.copies.filter fun c => c.port == n && c.st == .sending && bit mask c.tc).foldl (fun m c =>
    if now ≤ c.start then m else overrun m now c cause) m

/-- The gate states that a port shows change to those of the present instant (R316): classes that close meet their copies. -/
def gateMove (m : Chip) (n now cause : Nat) : Chip :=
  let old := (gateOf m n).seen
  let new := gateStates m n now
  let m := updGate m n fun g =>
    { g with seen := new, aborted := if Nat.land new (fld m (A.GATE_TRIM_CFG n) 24 8) = 0 then g.aborted else none }
  closeOn m n now (clearMask old new) cause

/-! ### Changing the schedule (R317-R322) -/

/-- The admin list entries of a port as they stand in the registers (R314). -/
def adminList (m : Chip) (n : Nat) : List (Nat × Nat) :=
  (List.range 1024).filterMap fun e => let v := adminEntry m n e; if v = 0 then none else some (e, v)

/-- A pending change takes effect (R320): the admin list and registers become the oper ones. -/
def changeTime (m : Chip) (n now cause : Nat) : Chip :=
  let g := gateOf m n
  match g.ct with
  | none => m
  | some ct =>
    let outcome := if !g.valid then 2 else if g.lastStart ct < ct then 1 else 0
    let len := fld m (A.GATE_ADMIN_LEN n) 0 11
    let at_ := ltOf m now ct
    let m := trimAbort m n now
    let m := updGate m n fun g => { g with
      oper := adminList m n, base := rdTime m (A.GATE_ADMIN_BASE_NS n), cycle := fld m (A.GATE_ADMIN_CYCLE n) 0 29, since := ct,
      len := len, ext := fld m (A.GATE_ADMIN_EXT n) 0 29, valid := flag m (A.GATE_PCTL n) 0, pending := none }
    let m := setEvt m (A.GATE_EVENT n) (A.GATE_EVENT_EN n) 0 .gate n
    let m := emit m 0x0401 (srcId 4 n) now [(1, outcome), (1, 0), (2, len), (8, if cause = 1 then now else at_)]
    gateMove m n now cause

/-- Whether the admin list and registers of a port are valid (R317). -/
def adminValid (m : Chip) (n : Nat) : Bool :=
  let len := fld m (A.GATE_ADMIN_LEN n) 0 11
  let cy := fld m (A.GATE_ADMIN_CYCLE n) 0 29
  1 ≤ len && len ≤ 1024 && 400 ≤ cy && cy ≤ 400000000 &&
  (List.range len).all fun e =>
    let v := adminEntry m n e
    1 ≤ bits v 0 29 && bits v 0 29 ≤ 400000000 && bits v 40 2 != 3

/-- The change time that a request at working time `tm` gives (R317), in half ns. -/
def changeHalf (m : Chip) (n : Nat) (tm : Int) : Nat :=
  let base := rdTime m (A.GATE_ADMIN_BASE_NS n) * nsU
  let floorU := tm + 10000 * nsU
  if floorU ≤ base then (base / 2 ^ 41).toNat
  else
    let cy := adminCy m n
    ((base + (floorU - base + cy - 1) / cy * cy) / 2 ^ 41).toNat

/-- `GATE_PCTL.swap_req` with a valid admin list (R317). -/
def swapRequest (m : Chip) (n now : Nat) : Chip :=
  let ct := changeHalf m n (workU m now)
  updGate m n fun g => { g with pending := some ct }

/-- `GATE_PCTL.swap_cancel` (R318). -/
def swapCancel (m : Chip) (n now : Nat) : Chip :=
  match (gateOf m n).ct with
  | none => m
  | some ct =>
    let at_ := ltOf m now ct
    emit (updGate m n fun g => { g with pending := none }) 0x0401 (srcId 4 n) now
      [(1, 3), (1, 0), (2, fld m (A.GATE_ADMIN_LEN n) 0 11), (8, at_)]

/-- `GATE_PCTL.en` is 0 from now on (R321). -/
def gateDisable (m : Chip) (n now : Nat) : Chip :=
  let m := clrR (trimAbort m n now) (A.GATE_PCTL n) 1
  updGate m n fun g => { g with valid := false, pending := none, seen := 0xFF, hold := false }

/-! ### Steps of working time (R304, R310, R322) -/

/-- Length of the base cycle in ns, and its base time. -/
def bcycLen (m : Chip) : Nat := fld m A.TIME_BCYC_CFG 0 24
def bcycBase (m : Chip) : Nat := rdTime m A.TIME_BCYC_BASE_NS

/-- The first boundary at or after a working time in 2^-42 ns. -/
def bcycFrom (m : Chip) (tm : Int) : Nat :=
  let d := tm - bcycBase m * nsU
  let l := (bcycLen m : Int) * nsU
  if d ≤ 0 then 0 else ((d + l - 1) / l).toNat

/-- Boundaries that a forward step passed are skipped and counted (R310). -/
def skipBoundaries (m : Chip) (now : Nat) : Chip :=
  if !flag m A.TIME_BCYC_CFG 31 then m
  else
    let k := bcycFrom m (workU m now)
    if k ≤ m.time.bnext then m
    else
      let d := k - m.time.bnext
      setIrq (updTime m fun t => { t with bnext := k, skipped := sat 32 (t.skipped + d) }) .time 7

/-- What a step of working time does to one port's gates in the cycle after it (R322, R325). -/
def stepPort (now : Nat) (m : Chip) (n : Nat) : Chip :=
  match (gateOf m n).ct with
  | some ct => if ct ≤ workU m now then changeTime m n now 1 else gateMove m n now 1
  | none => gateMove m n now 1

/-- The gates of every port take the states of the new time (R322). -/
def stepGates (m : Chip) (now : Nat) : Chip := (List.range 20).foldl (stepPort now) m

/-- A copy in transmission at a step of working time: what it overruns from now on, it overruns because of the step (R325). -/
def stepCopies (m : Chip) : Chip := updCopies m (fun c => c.port < 20 && c.st == .sending) fun c => { c with cause := 1 }

/-- Step working time: the working offset becomes 0 (R304), every trim window ends (R335), and the gates follow in the next cycle (R322). -/
def stepWork (m : Chip) (now : Nat) : Chip :=
  let w := m.time.w
  let m := (List.range 20).foldl (fun m n => let s := gateStates m n now; updGate (trimAbort m n now) n fun g => { g with seen := s }) m
  let m := updTime m fun t => { t with w := 0, wAt := now, slewing := false, stepAt := some now }
  let m := emit m 0x1101 (srcId 0x11 2) now [(8, enc (-w / nsU) 64), (1, if w < 0 then 0 else 1)]
  let m := anchorDue (setIrq m .time 2)
  -- After a step back the instants of periodic and gate emission come again (R525).
  let again := fun (p : Nat × SgeTx) => (p.1, { p.2 with lastK := none, lastOpen := none })
  let m := if 0 < w then { m with sge := { m.sge with tx := m.sge.tx.map again } } else m
  nextCycle (skipBoundaries (stepCopies m) now) now .gates

/-- Resolve the working offset after a jump of the working domain's time (R304): a step takes place in the next cycle. -/
def resolveW (m : Chip) (now : Nat) : Chip :=
  let w := m.time.w
  let thr := (fld m A.TIME_SLEW 16 16 : Int) * 1000 * nsU
  let mode := flag m A.TIME_CFG 2
  let quiet := ((List.range 20).all fun n => !flag m (A.GATE_PCTL n) 0) && !flag m A.TIME_BCYC_CFG 31
  if (w.natAbs : Int) ≤ thr || !mode then updTime m fun t => { t with slewing := w != 0 }
  else if w < -thr || quiet then nextCycle (updTime m fun t => { t with slewing := false }) now .step
  else setIrq (updTime m fun t => { t with slewing := true }) .time 3

/-- A rate write takes effect (R302, R307). -/
def rateWrite (m : Chip) (now d : Nat) : Chip :=
  let c := domain m d
  let m := syncW m now
  let rho := sgn (rdN m (A.TIME_Dd_RATE d)) 32
  let m := updDom m d fun k => { k with L := now, T := (c.at now + 2 ^ 26 - 1) / 2 ^ 26, rho := rho, steered := some now }
  if d = working m then setHoldover m now false else m

/-- An offset command takes effect (R303, R304, R307). -/
def offsetCommand (m : Chip) (now d : Nat) : Chip :=
  let delta := sgn (rd64 m (A.TIME_Dd_ADJ_LO d)) 64
  let m := syncW m now
  let m := updDom m d fun k => { k with T := k.T + delta * 2 ^ 16, steered := some now }
  if d = working m then
    let m := updTime m fun t => { t with w := t.w - delta * nsU }
    resolveW (setHoldover m now false) now
  else m

/-- The working domain changes from `old` to the one now in `TIME_CFG` (R304, R307); the working offset stands at its present value. -/
def workingChange (m : Chip) (now old : Nat) : Chip :=
  let new := working m
  if new = old then m
  else
    let jump := (domain m new).at now - (domain m old).at now
    let m := updTime m fun t => { t with w := t.w - jump, wAt := now }
    let m := setHoldover m now (unsteered m now)
    resolveW (anchorDue m) now

/-! ### Preemption state and recovery functions -/

/-- Verification starts again on a port whose link has changed (R326); a hold ends with preemption, which `verify_dis` keeps active (R330). -/
def preReset (m : Chip) (n : Nat) : Chip :=
  if 20 ≤ n then m
  else
    let m := setF m (A.GATE_PRE_STATUS n) 1 2 0
    updGate m n fun g => { g with hold := g.hold && preActive m n, tries := 0, lastTry := 0 }

/-- Reset a recovery function so that its next frame is accepted (R342): nothing is listed for it. -/
def rcvyReset (m : Chip) (r : Nat) : Chip := { m with rcvy := sdel m.rcvy r }

end Sys2Proof.Machine
end

