-- ==== Sys2Proof/Machine/Ports.lean ====
section
/-! DEFINITION. Effects of the MAC and the integrated PHYs (02): link state, training, enable and disable, TC10 sleep and wake,
warm relink, PLCA and PRBS, and the checks and effects of writes to the MAC registers. -/

namespace Sys2Proof.Machine

/-- Backbone, edge and multidrop front ports (R23). -/
def isB (n : Nat) : Bool := n < 8

def isE (n : Nat) : Bool := 8 ≤ n && n < 16

def isM (n : Nat) : Bool := 16 ≤ n && n < 20

/-- Power-domain instance of a front port's PHY. -/
def phyDom (n : Nat) : Nat := if n < 8 then 2 else if n < 16 then n - 5 else 11

/-- What a front port holds beside its registers. -/
def portOf (m : Chip) (n : Nat) : PortSt := m.ports.getD n {}

/-- Change what a front port holds. -/
def updPort (m : Chip) (n : Nat) (f : PortSt → PortSt) : Chip := { m with ports := lset m.ports n f }

/-- The port is enabled; its link is up. -/
def portEn (m : Chip) (n : Nat) : Bool := n < 20 && flag m (A.MAC_PCFG n) 0

def linkOn (m : Chip) (n : Nat) : Bool := n < 20 && flag m (A.MAC_PSTATUS n) 0

/-- Lane mode of a backbone port. -/
def laneMode (m : Chip) (n : Nat) : Nat := fld m (A.MAC_PCFG n) 4 4

/-- SQI that an edge port shows; 0 on other ports. -/
def sqiOf (m : Chip) (n : Nat) : Nat := if isE n then fld m (A.MAC_PT1_STATUS n) 0 3 else 0

/-- Set a bit of `MAC_PEVENT` (R838). -/
def portEvt (m : Chip) (n i : Nat) : Chip := setEvt m (A.MAC_PEVENT n) (A.MAC_PEVENT_EN n) i .mac n

/-- A frame that ends early (R115, R116): its copies end and it is counted; it is recorded unless its head was not yet ready. -/
def truncate (m : Chip) (now : Nat) (f : Frame) (cause bytes : Nat) : Chip :=
  let k := stompedOf m now f.id
  let m := bump (killFrame (updFrame m f.id fun x => { x with ended := true }) now f.id) (A.rx_truncated f.port) 1
  if f.phase == .arriving then m
  else emit m 0x0110 (srcId 1 f.port) now [(2, bytes), (1, cause), (1, k), (8, f.stamp)]

/-- The frames that a port is receiving, with the bytes of each that have arrived by the LT `stop`. -/
def receiving (m : Chip) (n stop : Nat) : List (Frame × Nat) :=
  (m.tm.frames.filter fun f => f.port == n && !f.ended).map fun f => (f, arrived m f stop)

/-- Truncate frames that a port was receiving. -/
def truncateAll (m : Chip) (now cause : Nat) (l : List (Frame × Nat)) : Chip :=
  l.foldl (fun m x => truncate m now x.1 cause x.2) m

/-- A port's link goes down with a cause as in LINK_DOWN (R63, R64): `loss` is the LT at which the loss began. -/
def linkLost (m : Chip) (now n cause loss : Nat) (lf rf : Bool) : Chip :=
  if !linkOn m n then m
  else
    let cut := receiving m n (min now loss)
    let m := trimAbort m n now
    let m := wrN m (A.MAC_PSTATUS n) (b2n lf * 32 + b2n rf * 64)
    let m := if cause ≤ 2 then portEvt m n 1 else m
    let m := emit (bump m (A.link_down n) 1) 0x0131 (srcId 1 n) now
      [(1, cause), (1, b2n lf + 2 * b2n rf), (2, fld m (A.MAC_PLINK n) 0 16), (8, loss)]
    let m := truncateAll m now (if cause = 3 then 2 else 1) cut
    let m := updPort m n fun p =>
      { p with attempt := if portEn m n then some now else none, train := none, retrain := none,
               warm := if p.keep && portEn m n then some now else none, keep := false, fellBack := false }
    let m := setF m (A.MAC_PPLCA_STATUS n) 0 1 0
    preReset (tmPortDown m now n) n

/-- Speed code that a port's link runs at, given the PHY's in-band word for the modes that have one (R37, R38, R41). -/
def linkSpeed (m : Chip) (n word : Nat) : Nat :=
  if isE n then (if flag m (A.MAC_PT1_CFG n) 0 then 3 else 2)
  else if isM n then 1
  else
    match laneMode m n with
    | 1 => 6 | 2 => 6
    | 3 => if 3 ≤ word && word ≤ 6 then word else 0
    | 4 => 5 | 5 => 4
    | 6 => if 1 ≤ word && word ≤ 3 then word else 0
    | 7 => 3
    | _ => 0

/-- `last_link` of an edge port whose link comes up: 1 cold, 2 warm, 3 warm fell back to cold. -/
def lastLink (m : Chip) (n : Nat) : Nat :=
  if !isE n then 0 else if (portOf m n).warm.isSome then 2 else if (portOf m n).fellBack then 3 else 1

/-- A front port's link comes up (R64, R253); an edge port is then trained, to coefficients and a phase that are free values (R46). -/
def linkUpFront (m : Chip) (now n word sqi : Nat) : Chip :=
  let p := portOf m n
  let sp := linkSpeed m n (if laneMode m n = 3 && isB n && p.word ≠ 0 then p.word else word)
  if !portEn m n || linkOn m n || p.refused || p.asleep || sp = 0 || !domOn m (phyDom n) then m
  else if isB n && laneMode m n = 2 && p.train.isNone then m
  else
    let ll := lastLink m n
    let m := wrN m (A.MAC_PSTATUS n) (1 + sp * 2 + (if isB n && laneMode m n = 2 then 16 else 0))
    let m := if isE n then setF (setF m (A.MAC_PT1_STATUS n) 0 3 sqi) (A.MAC_PT1_STATUS n) 4 2 ll else m
    let m := if ll = 2 then bump m (A.warm_ok n) 1 else m
    let m := if isM n && flag m (A.MAC_PPLCA_CFG n) 0 then setF m (A.MAC_PPLCA_STATUS n) 0 1 1 else m
    let took := match p.attempt with
      | some a => sat 32 ((now - a) / us)
      | none => 0
    let m := emit (portEvt m n 0) 0x0130 (srcId 1 n) now [(1, sp), (1, ll), (1, if isE n then sqi % 8 else 0), (1, 0), (4, took)]
    let m := updPort m n fun p =>
      { p with attempt := none, train := none, retrain := none, fails := 0, warm := none, keep := false, fellBack := false }
    let m := if isE n then useFree (useFree (updPort m n fun p => { p with trained := (freeVal m, freeVal (useFree m)) })) else m
    let m := match m.pwr.readyWait with
      | some w =>
        if isE n then
          let m := { m with pwr := { m.pwr with readyWait := none } }
          wrN m (A.PWR_WAKE_T 3) (if now - w ≤ 100 * ms then sat 16 ((now - w) / us) else 0xFFFF)
        else m
      | none => m
    tmPortUp (preReset (trimAbort m n now) n) n

/-- An in-band USXGMII word names a speed (R38): 100 and 10 Mb/s hold the link down. -/
def usxgmiiWord (m : Chip) (now n code : Nat) : Chip :=
  if !isB n || laneMode m n ≠ 3 || !portEn m n then m
  else if code = 1 || code = 2 then
    let m := linkLost m now n 1 now false false
    portEvt (updPort m n fun p => { p with refused := true, word := code }) n 3
  else if 3 ≤ code && code ≤ 6 then
    let m := updPort m n fun p => { p with refused := false, word := code }
    if linkOn m n && speedOf m n ≠ code then
      let m := updSch m n fun s => { s with rateWas := some (now, rateOf (speedOf m n)) }
      updCopies (setF m (A.MAC_PSTATUS n) 1 3 code) (fun c => c.port == n && c.st == .sending) fun c => { c with cause := 3 }
    else m
  else m

/-- A port is enabled: its link-up attempt begins (R64). -/
def portEnable (m : Chip) (now n : Nat) : Chip :=
  updPort m n fun p => { p with attempt := some now, refused := false, word := 0 }

/-- Stomp every copy in transmission on a port (R57, R59). -/
def stompPort (m : Chip) (now n : Nat) : Chip :=
  (m.tm.copies.filter fun c => c.port == n && c.begun).foldl (fun m c => gcFrame (stomp m now c) now c.fid) m

/-- `MAC_PCFG.enable` goes to 0 (R59). -/
def portDisable (m : Chip) (now n : Nat) : Chip :=
  let m := stompPort m now n
  let m := truncateAll m now 2 (receiving m n now)
  let m := linkLost m now n 3 now false false
  updPort m n fun p => { p with attempt := none, train := none, retrain := none, warm := none }

/-! ### TC10 and warm relink (R43-R48) -/

/-- At sleep entry the trained coefficients are stored, or the stored set is marked invalid (R46). -/
def storeCoeff (m : Chip) (n : Nat) : Chip :=
  let cfg := A.MAC_PT1_CFG n
  let ok := linkOn m n && flag m cfg 4 && fld m cfg 6 3 ≤ sqiOf m n
  let m := updPort m n fun p => { p with stored := if ok then some ⟨true, fld m cfg 0 1, fld m cfg 1 1, p.trained.1, p.trained.2⟩ else none }
  setF m (A.MAC_PT1_STATUS n) 3 1 (b2n ok)

/-- A TC10 sleep handshake starts on an edge port whose link is up (R43). -/
def sleepStart (m : Chip) (now n : Nat) : Chip :=
  if isE n && linkOn m n && (portOf m n).shake.isNone && !(portOf m n).asleep then
    say (setF (updPort m n fun p => { p with shake := some now }) (A.MAC_PT1_STATUS n) 6 2 1) (.pin "TC10_SLEEP" n)
  else clrR m (A.MAC_PT1_CTRL n) 1

/-- A sleep handshake completes (R43): coefficients stored, link down with cause 4, PHY asleep and its domain off (R701). -/
def sleepDone (m : Chip) (now n : Nat) : Chip :=
  match (portOf m n).shake with
  | none => m
  | some _ =>
    let m := storeCoeff m n
    let m := linkLost m now n 4 now false false
    let m := updPort m n fun p => { p with shake := none, asleep := true, attempt := none }
    let m := clrR (setF m (A.MAC_PT1_STATUS n) 6 2 2) (A.MAC_PT1_CTRL n) 1
    setIrq { m with pwr := { m.pwr with on := clearMask m.pwr.on (2 ^ phyDom n) } } .pwr 3

/-- A sleep handshake is abandoned (R44): `why` 0 for a wake on the port, 1 for another device wake. The PHY keeps its coefficients: a port
whose link is still up relinks from them when its link next goes down. -/
def sleepAbandon (m : Chip) (now n why : Nat) : Chip :=
  match (portOf m n).shake with
  | none => m
  | some t =>
    let m := updPort m n fun p =>
      { p with shake := none, keep := linkOn m n, attempt := if linkOn m n then none else some now,
               warm := if linkOn m n then none else some now }
    let m := clrR (setF m (A.MAC_PT1_STATUS n) 6 2 0) (A.MAC_PT1_CTRL n) 1
    emit (portEvt m n 6) 0x0134 (srcId 1 n) now [(1, why), (3, 0), (8, t)]

/-- A TC10 wake received on an edge port (R43, R44): while the PHY domain is off, only an armed detector sees it. -/
def tc10Wake (m : Chip) (now n : Nat) : Chip :=
  if !domOn m (phyDom n) && !flag m (A.MAC_PT1_CFG n) 2 then m
  else sleepAbandon (portEvt m n 5) now n 0

/-- Send a TC10 wake (R45). -/
def tc10Send (m : Chip) (n : Nat) : Chip := clrR (say m (.pin "TC10_WAKE" n)) (A.MAC_PT1_CTRL n) 2

/-- On a device wake, forward it on every edge port that asks for it but the one it arrived on (R45). -/
def wakeForward (m : Chip) (except : Option Nat) : Chip :=
  (List.range 8).foldl (fun m k =>
    if flag m (A.MAC_PT1_CFG (8 + k)) 3 && except ≠ some (8 + k) then tc10Send m (8 + k) else m) m

/-- An edge port starts towards a link at a wake (R47): from its stored set when that is valid, good and matches. -/
def warmStart (m : Chip) (now n : Nat) : Chip :=
  let cfg := A.MAC_PT1_CFG n
  let m := setF (updPort m n fun p => { p with asleep := false, shake := none, attempt := some now, fellBack := false })
    (A.MAC_PT1_STATUS n) 6 2 0
  match (portOf m n).stored with
  | none => updPort m n fun p => { p with warm := none }
  | some c =>
    let use := c.good && flag m cfg 4 && c.speed == fld m cfg 0 1 && c.role == fld m cfg 1 1
    updPort m n fun p => { p with warm := if use then some now else none }

/-! ### Writes to the MAC registers (R40, R52, R66, R69) -/

/-- Page offset and port of a register of the front-port pages. -/
def macPage (a : Nat) : Option (Nat × Nat) :=
  if 0x40801000 ≤ a && a < 0x40806000 then some ((a - 0x40801000) / 0x400, (a - 0x40801000) % 0x400) else none

/-- A front-port register is written with a field other than 0 that does not apply to the port's kind (R69). -/
def macForeign (a data : Nat) : Bool :=
  match macPage a with
  | none => false
  | some (n, off) =>
    if off = 0x000 then (bits data 4 4 ≠ 0 && !isB n) || (isM n && 2 ≤ bits data 8 2)
    else if off = 0x020 then !isB n && Nat.land data 0xFF01 ≠ 0
    else if off = 0x024 then !isB n && Nat.land data 0x1F ≠ 0
    else if off = 0x030 || off = 0x038 then !isE n && data ≠ 0
    else if off = 0x040 then !isM n && data ≠ 0
    else false

/-- Why a write to a front-port register is refused, as in `MAC_ERR_CAPTURE`; 0 when it is not. -/
def macCheck (m : Chip) (a old new data : Nat) : Nat :=
  match macPage a with
  | none => 0
  | some (n, off) =>
    if off = 0x000 then
      if bits data 4 4 ≠ bits old 4 4 && 8 ≤ bits data 4 4 then 2
      else if bits new 4 4 ≠ bits old 4 4 && bit old 0 then 3
      else 0
    else if off = 0x004 then
      let v := bits new 0 14
      if v ≠ bits old 0 14 && (v < 64 || (if isM n then 1522 else 9216) < v) then 5 else 0
    else if off = 0x024 then
      if clearMask (bits new 3 2) (bits old 3 2) ≠ 0 && portEn m n then 6
      else 0
    else 0

/-- What a write to a front-port register does beside storing its fields: `old` and `new` are the words before and after. -/
def macEffect (m : Chip) (now a old new data : Nat) : Chip :=
  match macPage a with
  | none => m
  | some (n, off) =>
    if off = 0x000 then
      if bit old 0 && !bit new 0 then portDisable m now n
      else if !bit old 0 && bit new 0 then portEnable m now n
      else m
    else if off = 0x038 then
      let m := if bit data 0 then sleepStart m now n else m
      if bit data 1 then tc10Send m n else m
    else if off = 0x0FC then
      if bit data 0 then
        let m := clearCnts m (A.rx_frames n) (A.rx_frames n + 0x80)
        if n < 16 then clearCnts m (A.out_protected n) (A.out_protected n + 0x80) else m
      else m
    else m

/-! ### Commands -/

/-- Whether a multidrop port is a PLCA follower (R49). -/
def plcaFollower (m : Chip) (n : Nat) : Bool := flag m (A.MAC_PPLCA_CFG n) 0 && fld m (A.MAC_PPLCA_CFG n) 1 5 != 0

end Sys2Proof.Machine
end

