-- ==== Sys2Proof/Machine/Lanes.lean ====
section
/-! DEFINITION. Head ready, lane selection, slow lanes and link aggregation (03). -/

namespace Sys2Proof.Machine

/-- Change the parser, lane and match state. -/
def updPrs (m : Chip) (f : PrsSt → PrsSt) : Chip := { m with prs := f m.prs }

/-- A forwarding lane. -/
def laneOf (m : Chip) (l : Nat) : LaneSt := m.prs.lanes.getD l {}

/-- Change a lane. -/
def updLane (m : Chip) (l : Nat) (f : LaneSt → LaneSt) : Chip := updPrs m fun p => { p with lanes := lset p.lanes l f }

/-- Occupancy of a lane's input FIFO. -/
def laneOcc (m : Chip) (l : Nat) : Nat := (laneOf m l).fifo.length

/-- Set a bit of `PRS_LANE_EVENT`. -/
def laneEvt (m : Chip) (i : Nat) : Chip := setEvt m A.PRS_LANE_EVENT A.PRS_LANE_EVENT_EN i .prs 0

/-- A threshold of `PRS_LANE_CFG` in heads: a percentage of 64, rounded up. -/
def laneThr (m : Chip) (lo : Nat) : Nat := cdiv (fld m A.PRS_LANE_CFG lo 7 * 64) 100

/-- Bring the runs that R99 and R100 count up to date after a lane's occupancy changed. -/
def laneTrack (m : Chip) (now l : Nat) : Chip :=
  let o := laneOcc m l
  let hi := laneThr m 0
  let lo := laneThr m 8
  updLane m l fun s => { s with
    above := if hi ≤ o then some (s.above.getD now) else none,
    below := if o < lo then some (s.below.getD now) else none }

/-- A bucket of the lane selector (R92). -/
def bucketOf (m : Chip) (k : Nat) : Bucket :=
  (sget m.prs.buckets k).getD { lane := k % 4, stamp := 0, inflight := 0, marked := false, seen := false }

/-- Store a bucket; one in its reset state is not listed. -/
def setBucket (m : Chip) (k : Nat) (b : Bucket) : Chip :=
  updPrs m fun p =>
    { p with buckets := sputD p.buckets { lane := k % 4, stamp := 0, inflight := 0, marked := false, seen := false } k b }

/-- R94: a new frame of the bucket may take it to another lane. -/
def mayMove (m : Chip) (b : Bucket) (stamp : Nat) : Bool :=
  b.stamp + fld m A.PRS_FLOWLET_GAP 0 14 * us ≤ stamp && b.inflight == 0

/-- The lane that is not slow and has the lowest occupancy, the lower number on equal ones (R102). -/
def leastLane (m : Chip) : Option Nat :=
  ((List.range 4).filter fun l => !(laneOf m l).slow).foldl
    (fun a l => match a with
      | none => some l
      | some x => if laneOcc m l < laneOcc m x then some l else some x) none

/-- R102 moves buckets: `rebal_en` is 1 and some lane is not slow (R103). -/
def rebalancing (m : Chip) : Bool := flag m A.PRS_LANE_CFG 16 && (leastLane m).isSome

/-- A displaced bucket may return to its home lane (R105, R106). -/
def mayReturn (m : Chip) (now home : Nat) (marked : Bool) : Bool :=
  let hold := fld m A.PRS_LANE_RETURN 0 16
  let clear := match (laneOf m home).clearAt with
    | none => true
    | some c => c + hold * ms ≤ now
  !(laneOf m home).slow && (marked || (hold != 0 && clear))

/-- The lane that lane selection gives a frame of a bucket (R92, R102, R105). -/
def chooseLane (m : Chip) (now k stamp : Nat) : Nat :=
  let b := bucketOf m k
  if !mayMove m b stamp then b.lane
  else if (laneOf m b.lane).slow && rebalancing m then (leastLane m).getD b.lane
  else if b.lane ≠ k % 4 && mayReturn m now (k % 4) b.marked then k % 4
  else b.lane

/-- Heads of a port that wait for a lane (R75). -/
def headQueue (m : Chip) (port l : Nat) : List Frame :=
  m.tm.frames.filter fun f => f.phase == .headQueue && f.lane == l && f.port == port

/-- Some head waits for a lane. -/
def laneWaits (m : Chip) (l : Nat) : Bool := m.tm.frames.any fun f => f.phase == .headQueue && f.lane == l

/-- A head bound for a lane finds its input FIFO and its port's head queue full (R76). -/
def laneFull (m : Chip) (port l : Nat) : Bool :=
  (64 ≤ laneOcc m l || laneWaits m l) && 8 ≤ (headQueue m port l).length

/-- A frame is pinned (R104): its lane is slow and R102 moves buckets, but R94 does not let its bucket move. -/
def pinned (m : Chip) (b : Bucket) (f : Frame) : Bool := (laneOf m b.lane).slow && rebalancing m && !mayMove m b f.stamp

/-- Drop a frame whose head finds no room (R76): its bucket keeps its lane, stamp and heads in flight, and its cells are free. What
its port still receives of it is counted as for any frame (R115). A pinned one is counted (R104). -/
def headDrop (m : Chip) (now : Nat) (f : Frame) (k l : Nat) : Chip :=
  let b := bucketOf m k
  let m := if pinned m b f then setBucket (bump m (A.pinned_frames b.lane) 1) k { b with seen := true } else m
  let m := updFrame m f.id fun x => { x with dead := true, phase := .decided }
  gcFrame (laneEvt (bump m (A.head_drop l) 1) 8) now f.id

/-- Head ready: parse, metadata, hash and declared length (R82, R131, R88). -/
def headReady (m : Chip) (now : Nat) (f : Frame) : Chip :=
  let p := parse m f.bytes f.secured
  let tail := f.verified || f.bytes.length + 4 ≤ p.h.mac + 128
  let h := flowHash m p
  let m := if p.cutMalf then bump m A.PRS_CNT_MALFORMED 1 else m
  let m := if p.trunc then bump m A.PRS_CNT_TRUNC_PARSE 1 else m
  let l := chooseLane m now (h % 4096) f.stamp
  if laneFull m f.port l then headDrop m now f (h % 4096) l
  else
    updFrame m f.id fun x => { x with
      phase := .headReady, head := p.h, md := firstMd m f.port p f.secured, hash := h,
      decl := declared m f.port p f.len tail }

/-- Move heads that wait into a lane's FIFO while it has room, oldest first and in port order (R75). -/
def laneFill (m : Chip) (now l : Nat) : Nat → Chip
  | 0 => laneTrack m now l
  | k + 1 =>
    if 64 ≤ laneOcc m l then laneTrack m now l
    else
      let w := m.tm.frames.filter fun f => f.phase == .headQueue && f.lane == l
      let best := w.foldl (fun (a : Option Frame) f =>
        match a with
        | none => some f
        | some x => if f.queued < x.queued || (f.queued == x.queued && f.port < x.port) then some f else some x) none
      match best with
      | none => laneTrack m now l
      | some f =>
        laneFill (updLane (updFrame m f.id fun x => { x with phase := .lane }) l fun s =>
          { s with fifo := s.fifo ++ [(f.id, f.hash % 4096)] }) now l k

/-- Lane selection (R92-R94, R102-R107): the bucket moves where it may, the frame counts as in flight and enters the lane. -/
def laneSelect (m : Chip) (now : Nat) (f : Frame) : Chip :=
  let k := f.hash % 4096
  let b := bucketOf m k
  let l := chooseLane m now k f.stamp
  if laneFull m f.port l then headDrop m now f k l
  else
    let stuck := pinned m b f
    let m := if stuck then bump m (A.pinned_frames b.lane) 1 else m
    let m := if l ≠ b.lane then
        updLane (bump m (A.moved_out b.lane) 1) b.lane fun s => { s with moved := s.moved + 1 }
      else m
    let m := setBucket m k { b with
      lane := l, stamp := f.stamp, inflight := b.inflight + 1,
      marked := b.marked && l ≠ k % 4, seen := if l ≠ b.lane then false else b.seen || stuck }
    let direct := laneOcc m l < 64 && !laneWaits m l
    let m := updFrame m f.id fun x => { x with phase := if direct then .lane else .headQueue, lane := l, queued := now }
    if direct then laneTrack (updLane m l fun s => { s with fifo := s.fifo ++ [(f.id, k)] }) now l else m

/-- The pipeline of a lane accepts the head at the front of the input FIFO at LT `at_`: the next one follows two cycles later, and
waiting heads move up (R75). -/
def laneAccept (m : Chip) (at_ l : Nat) (x : Nat × Nat) : Chip :=
  laneFill (updLane (bump m (A.heads l) 1) l fun s =>
    { s with fifo := s.fifo.drop 1, pipe := s.pipe ++ [(x.1, x.2, at_)], free := at_ + 2 * cyc }) at_ l 64

/-- The heads that a lane's pipeline accepts in `[a, b)`, at most `k` of them. -/
def laneRun (a b l : Nat) : Nat → Chip → Chip
  | 0, m => m
  | k + 1, m =>
    match (laneOf m l).fifo.head? with
    | none => m
    | some x =>
      let at_ := max a (laneOf m l).free
      if at_ < b then laneRun a b l k (laneAccept m at_ l x) else m

/-- Heads that wait for a lane or stand in its FIFO. -/
def laneHeads (m : Chip) (l : Nat) : Nat :=
  laneOcc m l + (m.tm.frames.filter fun f => f.phase == .headQueue && f.lane == l).length

/-- Every lane accepts heads in `[a, b)`. -/
def lanesRun (m : Chip) (a b : Nat) : Chip := (List.range 4).foldl (fun m l => laneRun a b l (laneHeads m l) m) m

/-- A head leaves its lane at its lane decision: its bucket has one fewer in flight (R93). -/
def laneLeave (m : Chip) (k : Nat) : Chip :=
  let b := bucketOf m k
  setBucket m k { b with inflight := b.inflight - 1 }

/-- Lookups repeated with a corrected word (R179): each costs the lane one cycle; the latest 20 µs of them are kept (R108). -/
def laneRetry (m : Chip) (now l n : Nat) : Chip :=
  if n = 0 then m
  else updLane m l fun s => { s with
    free := s.free + n * cyc, retries := (s.retries ++ [(now, n)]).filter fun x => now < x.1 + 20 * us }

/-! ### Link aggregation (R109-R113) -/

/-- Members of a group (R109). -/
def lagMembers (m : Chip) (g : Nat) : Nat := fld m (A.PRS_LAG_CFG g) 0 16

/-- The group that a port is a member of. -/
def lagOf (m : Chip) (port : Nat) : Option Nat :=
  if port < 16 then (List.range 8).find? fun g => bit (lagMembers m g) port else none

/-- The distributing members of a group now (R112): a member keeps its place while TM holds its port. -/
def distributing (m : Chip) (g : Nat) : List Nat :=
  let old := m.prs.lag.getD g []
  (bitList (lagMembers m g) 16).filter fun p =>
    flag m (A.PRS_LAG_ACTIVE g) p && (linkOn m p || (old.contains p && tmPort m p != .down))

/-- The member that the distribution table gives for a hash (R110, R111). -/
def lagPick (m : Chip) (g hash : Nat) : Option Nat :=
  let t := m.prs.lag.getD g []
  if t.isEmpty then none else t[hash / 2 ^ 26 % t.length]?

/-! ### Writes to lane registers -/

/-- `PRS_LANE_CTRL.return_all` (R106). -/
def returnAll (m : Chip) : Chip :=
  updPrs m fun p => { p with buckets := p.buckets.map fun x =>
    if x.2.lane ≠ x.1 % 4 && !((p.lanes.getD (x.1 % 4) {}).slow) then (x.1, { x.2 with marked := true }) else x }

/-- A write that changes a lane threshold restarts every run (R841). -/
def laneCfgChanged (m : Chip) (now : Nat) : Chip :=
  (List.range 4).foldl (fun m l => laneTrack (updLane m l fun s => { s with above := none, below := none }) now l) m

end Sys2Proof.Machine
end

