-- ==== Sys2Proof/Machine/Match.lean ====
section
/-! DEFINITION. The match stages (04): stage 0 and stage 1 lookups, the TCAM, actions and their merge, counters and meters, the
stream filters and gates of stage 3, and the destinations that the merged verdict names. Lookups read a view of the device (`v`),
which holds the configuration bank that matches the frame (R74); effects go to the device itself. -/

namespace Sys2Proof.Machine

/-- The tables of a configuration bank (R172). -/
def tablesOf (m : Chip) (bank : Nat) : Tables := if bank = 0 then m.prs.tabA else m.prs.tabB

/-- The tables of the active bank. -/
def activeTables (m : Chip) : Tables := tablesOf m m.cfg.active

/-- A table of a bank, by the number `PRS_TBL_CMD.table` gives it. -/
def Tables.get (t : Tables) : Nat → List (Nat × Nat)
  | 0 => t.s0 | 1 => t.s1 | 2 => t.tcam | 3 => t.filter | 4 => t.gate | 5 => t.meter | 6 => t.mcast | 7 => t.window
  | 8 => t.sched | _ => []

/-- Replace a table of a bank. -/
def Tables.set (t : Tables) (k : Nat) (l : List (Nat × Nat)) : Tables :=
  match k with
  | 0 => { t with s0 := l } | 1 => { t with s1 := l } | 2 => { t with tcam := l } | 3 => { t with filter := l }
  | 4 => { t with gate := l } | 5 => { t with meter := l } | 6 => { t with mcast := l } | 7 => { t with window := l }
  | 8 => { t with sched := l } | _ => t

/-- Change the tables of a bank. -/
def updTables (m : Chip) (bank : Nat) (f : Tables → Tables) : Chip :=
  updPrs m fun p => if bank = 0 then { p with tabA := f p.tabA } else { p with tabB := f p.tabB }

/-- Table entry `i`; an entry that is not listed is all zero (R182). -/
def entryAt (t : List (Nat × Nat)) (i : Nat) : Nat := (sget t i).getD 0

/-- CRC-32C of R149: initial value 0. -/
def crcKey (l : List Byte) : Nat := crc32c 0 l

/-- Bucket of a stage 0 key (R149) and of a stage 1 key (R151). -/
def s0Bucket (port vid : Nat) : Nat := crcKey (beBytes 1 port ++ beBytes 2 vid) % 1024
def s1Bucket (fid da : Nat) : Nat := crcKey (beBytes 2 fid ++ beBytes 6 da) % 16384

/-- The key of a stage 0 entry, its valid bit included (R148), and of a stage 1 entry (R152). -/
def s0Key (e : Nat) : Nat := bits e 0 17
def s1Key (e : Nat) : Nat := bits e 0 60

/-- The way of a bucket whose entry is valid and satisfies `p`. -/
def findWay (t : List (Nat × Nat)) (bucket : Nat) (p : Nat → Bool) : Option Nat :=
  ((List.range 4).map fun w => bucket * 4 + w).find? fun i => p (entryAt t i)

/-- Stage 0 lookup: the index of the valid entry of a port and VID. -/
def s0Find (t : List (Nat × Nat)) (port vid : Nat) : Option Nat :=
  findWay t (s0Bucket port vid) fun e => bit e 31 && s0Key e == port + vid * 32

/-- Stage 1 lookup: the index of the valid entry of an FID and a destination address. -/
def s1Find (t : List (Nat × Nat)) (fid da : Nat) : Option Nat :=
  findWay t (s1Bucket fid da) fun e => bit e 63 && s1Key e == da + fid * 2 ^ 48

/-- What the stages have decided so far (R135, R136). -/
structure Verdict where
  verdict : Nat := 0
  dest : Nat := 0
  trap : Nat := 0
  mirror : Option Nat := none
  ecn : Bool := false
  drop : Bool := false
deriving DecidableEq, Repr

/-- A frame under match: the device, the metadata word and the merged verdict. -/
structure Work where
  m : Chip
  md : Nat
  v : Verdict := {}

/-- Replace `user` of the metadata word (R132). -/
def mdUser (md value mask : Nat) : Nat :=
  setBits md 32 16 (Nat.lor (clearMask (bits md 32 16) mask) (Nat.land value mask))

/-- Set the stream handle (R131). -/
def mdSetStream (md h : Nat) : Nat := setBits (setBits md 48 11 h) 59 1 1

/-- The run-time state of a meter; a meter that is not listed has empty buckets (R182). -/
def meterOf (m : Chip) (i : Nat) : MeterSt := (sget m.prs.meters i).getD { c := 0, p := 0, last := 0 }

/-- Fields of a meter entry (R171). -/
def meterCir (e : Nat) : Nat := bits e 0 24
def meterPir (e : Nat) : Nat := bits e 32 24
def meterCbs (e : Nat) : Nat := bits e 64 24
def meterPbs (e : Nat) : Nat := bits e 96 24

/-- The colour of a decision and the buckets after it (R167): 0 green, 1 yellow, 2 red; `b` in bucket units. -/
def meterColour (aware : Bool) (input b : Nat) (s : MeterSt) : Nat × MeterSt :=
  if aware && input == 2 then (2, s)
  else if s.p < b then (2, s)
  else if aware && input == 1 then (1, { s with p := s.p - b })
  else if s.c < b then (1, { s with p := s.p - b })
  else (0, { s with c := s.c - b, p := s.p - b })

/-- Meter a frame (R166-R169); the answer is whether the meter drops it. -/
def meterFrame (v : Chip) (w : Work) (i len stamp : Nat) : Work × Bool :=
  let e := entryAt (activeTables v).meter i
  if !bit e 29 then (w, false)
  else
    let red := w.m.prs.allRed.contains i
    let s := meterOf w.m i
    let dt := stamp - s.last
    let c := min (meterCbs e * byteU) (s.c + meterCir e * dt)
    let q := min (meterPbs e * byteU) (s.p + meterPir e * dt)
    let s : MeterSt := { c := c - c % creditU, p := q - q % creditU, last := max s.last stamp }
    let (col, s) := if red then (2, s) else meterColour (bit e 24) (bits w.md 26 2) (len * byteU) s
    let m := updPrs w.m fun p => { p with meters := sput p.meters i s }
    let m := if col = 2 && !red && bit e 27 then
        setIrq (updPrs m fun p => { p with allRed := p.allRed ++ [i] }) .prs 5
      else m
    ({ w with m := m, md := setBits w.md 26 2 col }, (col = 2 && bit e 26) || (col = 1 && bit e 25))

/-- Count a frame of declared length `len` (R165, R178). -/
def countFrame (m : Chip) (i len : Nat) (bytes : Bool) : Chip :=
  let m := bump m (A.PRS_COUNTER i) 1
  if bytes && i < 16383 then bump m (A.PRS_COUNTER (i + 1)) len else m

/-- Apply an action set of a stage (R133, R135, R137, R140). -/
def applyAction (v : Chip) (f : Frame) (a : Nat) (w : Work) : Work :=
  let m := if bit a 29 then countFrame w.m (bits a 31 14) f.decl (bit a 30) else w.m
  let w := { w with m := m }
  let (w, mdrop) := if bit a 45 then meterFrame v w (bits a 46 12) f.decl f.stamp else (w, false)
  let vd := bits a 0 3
  let ver := w.v
  let ver := if vd = 0 then ver else { ver with verdict := vd, dest := bits a 3 12, trap := bits a 60 4 }
  let ver := { ver with drop := ver.drop || vd = 2 || mdrop }
  let ver := if bit a 24 then { ver with mirror := some (bits a 25 3) } else ver
  let ver := if bit a 28 then { ver with ecn := true } else ver
  let md := if bit a 15 then setBits (setBits w.md 9 3 (bits a 16 3)) 12 1 1 else w.md
  let refused := bit a 19 && bits a 20 4 = 0 && !(20 ≤ f.port && f.port ≤ 22)
  let m := if refused then bump w.m A.PRS_CNT_ZONE_REFUSED 1 else w.m
  let md := if bit a 19 && !refused then setBits md 5 4 (bits a 20 4) else md
  { m := m, md := md, v := ver }

/-! ### TCAM key (R153-R155, R843) -/

/-- Ports, or ICMP type and code in the source port's place (R843). -/
def keySport (f : Frame) : Nat := if bits f.md 16 3 = 3 || bits f.md 16 3 = 4 then f.head.icmp else f.head.sport

/-- The field area of a profile (R155). -/
def fieldArea (f : Frame) (profile : Nat) : Nat :=
  let h := f.head
  let v4 := bits f.md 14 2 = 1
  let v6 := bits f.md 14 2 = 2
  let g := fun (b : Bool) (x : Nat) => if b then x else 0
  match profile with
  | 0 => h.da + h.sa * 2 ^ 48 + h.ovid * 2 ^ 96 + h.opcp * 2 ^ 108 + h.odei * 2 ^ 111 + h.ivid * 2 ^ 112 + h.ipcp * 2 ^ 124
      + h.etype * 2 ^ 128
  | 1 => g v4 h.ipSrc + g v4 h.ipDst * 2 ^ 32 + h.proto * 2 ^ 64 + g v4 h.dscp * 2 ^ 72 + g v4 h.ecn * 2 ^ 78
      + keySport f * 2 ^ 80 + h.dport * 2 ^ 96 + h.tcpFlags * 2 ^ 112 + g v4 h.ttl * 2 ^ 120 + h.ovid * 2 ^ 128
      + h.service * 2 ^ 144 + h.method * 2 ^ 160 + h.mtype * 2 ^ 176 + h.sa * 2 ^ 184
  | 2 => g v6 h.ipSrc + g v6 h.ipDst * 2 ^ 128
  | 3 => g v6 h.ipDst + h.proto * 2 ^ 128 + g v6 h.tclass * 2 ^ 136 + keySport f * 2 ^ 144 + h.dport * 2 ^ 160
      + h.tcpFlags * 2 ^ 176 + g v6 h.flow * 2 ^ 184 + h.ovid * 2 ^ 204 + h.service * 2 ^ 216 + h.method * 2 ^ 232
      + h.mtype * 2 ^ 248
  | 4 => h.subtype + h.streamId * 2 ^ 8 + h.acfBus * 2 ^ 72 + h.acfIde * 2 ^ 77 + h.acfFd * 2 ^ 78 + h.acfId * 2 ^ 80
      + h.ovid * 2 ^ 112 + h.opcp * 2 ^ 124 + h.da * 2 ^ 128
  | _ => 0

/-- The TCAM entry that wins: the lowest index among those that match (R154). -/
def tcamFind (t : List (Nat × Nat)) (key : Nat) : Option Nat :=
  (t.find? fun p =>
    let mask := bits p.2 320 320
    mask != 0 && Nat.land key mask == Nat.land (bits p.2 0 320) mask).map (·.2)

/-! ### Stage 3 (R157-R163) -/

/-- PCP of a frame: the outer PCP, or the ingress port's default for an untagged frame (R141, R158). -/
def framePcp (v : Chip) (f : Frame) : Nat := if f.head.tags = 0 then fld v (A.PRS_PORT_CFG f.port) 12 3 else f.head.opcp

/-- Whether a scheduled stream gate is open at an ingress stamp (R160, R161). -/
def schedOpen (v m : Chip) (gate stamp : Nat) : Bool :=
  let sc := bits gate 1 6
  let h := entryAt (activeTables v).sched sc
  let tm := workU m stamp
  match cycleStart m (bits h 0 5) tm with
  | none => false
  | some b =>
    let o := ((tm - b) / nsU).toNat
    bit h 5 && bits h 0 5 < 20 && (List.range (bits h 6 7)).any fun i =>
      let w := entryAt (activeTables v).window (sc * 64 + i)
      bit gate (32 + i) && bits w 0 32 ≤ o && o < bits w 0 32 + bits w 32 32

/-- Whether a stream gate is open (R159-R161). -/
def gateOpen (v m : Chip) (gi gate stamp : Nat) : Bool :=
  bit gate 0 && !m.prs.latched.contains gi && (if bit gate 7 then schedOpen v m gate stamp else bit gate 8)

/-- Count at a stream filter's counter `k` (R162). -/
def filterCount (fe k : Nat) (m : Chip) : Chip := if bit fe 78 then bump m (A.PRS_COUNTER (bits fe 64 14 + k)) 1 else m

/-- Drop the frame. -/
def Work.dropped (w : Work) (m : Chip) : Work := { w with m := m, v := { w.v with drop := true } }

/-- Steps 5 and 6 of R158. -/
def filterMeter (v : Chip) (f : Frame) (fe : Nat) (w : Work) : Work :=
  if bit fe 28 then
    let (w, d) := meterFrame v w (bits fe 16 12) f.decl f.stamp
    if d then w.dropped (filterCount fe 4 w.m) else { w with m := filterCount fe 1 w.m }
  else { w with m := filterCount fe 1 w.m }

/-- Steps 1 to 4 of R158. -/
def applyFilter (v : Chip) (f : Frame) (h fe : Nat) (w : Work) : Work :=
  let w := { w with m := filterCount fe 0 w.m }
  let maxSdu := bits fe 32 14
  if w.m.prs.blocked.contains h then w.dropped (filterCount fe 3 w.m)
  else if maxSdu ≠ 0 && maxSdu < f.decl then
    let m := if bit fe 29 then setIrq (updPrs w.m fun p => { p with blocked := p.blocked ++ [h] }) .prs 3 else w.m
    w.dropped (filterCount fe 3 m)
  else if bit fe 15 then
    let gi := bits fe 5 10
    let g := entryAt (activeTables v).gate gi
    if gateOpen v w.m gi g f.stamp then
      let md := if bit g 12 then setBits (setBits w.md 9 3 (bits g 9 3)) 12 1 1 else w.md
      filterMeter v f fe { w with md := md }
    else
      let latch := bit g 0 && bit g 13 && !w.m.prs.latched.contains gi
      let m := if latch then setIrq (updPrs w.m fun p => { p with latched := p.latched ++ [gi] }) .prs 4 else w.m
      w.dropped (filterCount fe 2 m)
  else filterMeter v f fe w

/-- Stage 3 (R157, R158). -/
def stage3 (v : Chip) (f : Frame) (w : Work) : Work :=
  if !mdStreamValid w.md then w
  else
    let h := mdStream w.md
    let fe := entryAt (activeTables v).filter h
    if bit fe 0 && (bit fe 4 || bits fe 1 3 = framePcp v f) then applyFilter v f h fe w else w

/-! ### All stages -/

/-- Result of the stages that the destinations are resolved from (R138, R147). -/
structure Stages where
  w : Work
  /-- Stage 1 destination on a hit. -/
  s1 : Option Nat
  flood : Nat
  uu : Bool

/-- VID that stage 0 looks up (R146). -/
def s0Vid (v : Chip) (f : Frame) : Nat :=
  if f.head.tags = 0 || f.head.ovid = 0 then fld v (A.PRS_PORT_CFG f.port) 0 12 else f.head.ovid

/-- Stages 0 to 3 for a frame (R135-R158). -/
def runStages (v m : Chip) (f : Frame) : Stages :=
  let tb := activeTables v
  let vid := s0Vid v f
  let w : Work := { m := m, md := f.md }
  -- stage 0
  let i0 := s0Find tb.s0 f.port vid
  let e0 := (i0.map (entryAt tb.s0)).getD 0
  let w := if i0.isSome then
      let w := applyAction v f (bits e0 128 64) w
      { w with md := mdUser w.md (bits e0 96 16) (bits e0 112 16) }
    else
      { w with m := bump w.m A.PRS_CNT_S0_MISS 1, md := setBits w.md 29 1 1,
               v := { w.v with drop := flag v (A.PRS_PORT_CFG f.port) 16 } }
  let fid := if i0.isSome then bits e0 32 12 else vid
  let profile := if i0.isSome then bits e0 44 3 else fld v (A.PRS_PORT_CFG f.port) 17 3
  -- stage 1
  let i1 := s1Find tb.s1 fid f.head.da
  let e1 := (i1.map (entryAt tb.s1)).getD 0
  let w := if i1.isSome then
      let w := applyAction v f (bits e1 128 64) w
      let md := mdUser w.md (bits e1 96 16) (bits e1 112 16)
      { w with md := if bit e1 76 then mdSetStream md (bits e1 77 11) else md }
    else { w with md := setBits w.md 28 1 1 }
  -- stage 2
  let w := match tcamFind tb.tcam (w.md + fieldArea f profile * 2 ^ 64) with
    | some e =>
      let w := applyAction v f (bits e 704 64) w
      let md := mdUser w.md (bits e 640 16) (bits e 656 16)
      { w with md := if bit e 672 then mdSetStream md (bits e 673 11) else md }
    | none => w
  { w := stage3 v f w, s1 := i1.map fun i => bits (entryAt tb.s1 i) 64 12,
    flood := if i0.isSome then bits e0 64 24 else 0, uu := i0.isSome && bit e0 47 }

/-! ### Destinations (R134, R138, R139, R113) -/

/-- Expand a port mask and named groups: one copy for each aggregation group it reaches (R113). -/
def expandMask (v m : Chip) (hash ports lags : Nat) : List Nat :=
  let groups := (List.range 8).filter fun g =>
    bit lags g || (bitList ports 16).any fun p => lagOf v p == some g
  (bitList ports 24).filter (fun p => (lagOf v p).isNone) ++ groups.filterMap fun g => lagPick m g hash

/-- A 12-bit destination (R134): its ports, and whether it came from a multicast group or a flood mask (R195). -/
def resolveDest (v m : Chip) (hash flood d : Nat) : List Nat × Bool :=
  if d < 24 then ([d], false)
  else if d < 32 then ((lagPick m (d - 24) hash).toList, false)
  else if 0x400 ≤ d && d < 0x800 then
    let e := entryAt (activeTables v).mcast (d - 0x400)
    (expandMask v m hash (bits e 0 24) (bits e 24 8), true)
  else if d = 0xFFF then (expandMask v m hash flood 0, true)
  else ([], false)

/-- Destinations of the merged verdict, the ingress port and its group removed (R138, R139), in rising port order. -/
def destinations (v m : Chip) (f : Frame) (st : Stages) : List Nat × Bool :=
  let vd := st.w.v.verdict
  let (l, multi) :=
    if vd = 4 then ([22], false)
    else if vd = 3 then resolveDest v m f.hash st.flood st.w.v.dest
    else match st.s1 with
      | some d => resolveDest v m f.hash st.flood d
      | none => if st.uu then resolveDest v m f.hash st.flood 0xFFF else ([], true)
  let own := lagOf v f.port
  ((List.range 24).filter fun p => l.contains p && p != f.port && !(own.isSome && lagOf v p == own), multi)

/-- Traffic class of a frame (R141). -/
def frameTc (v : Chip) (f : Frame) (md : Nat) : Nat :=
  if bit md 12 then bits md 9 3 else fld v (A.PRS_PORT_PCP2TC f.port) (3 * framePcp v f) 3

end Sys2Proof.Machine
end

