-- ==== Sys2Proof/Machine/Firewall.lean ====
section
/-! DEFINITION. The zone firewall and connection tracking (05): the matrix, lookups, the state machines, eviction, denial
records, and the judgement of CAN and LIN crossings. -/

namespace Sys2Proof.Machine

/-- Set a bit of `PRS_FW_EVENT`. -/
def fwEvt (m : Chip) (i : Nat) : Chip := setEvt m A.PRS_FW_EVENT A.PRS_FW_EVENT_EN i .prs 1

/-- Matrix entry of a zone pair: verdict (0 DENY, 1 PERMIT, 2 INSPECT) and `log`. -/
def matrix (v : Chip) (sz dz : Nat) : Nat × Bool :=
  let a := if dz < 8 then A.PRS_FW_MATRIX_LO sz else A.PRS_FW_MATRIX_HI sz
  (fld v a (4 * (dz % 8)) 2, flag v a (4 * (dz % 8) + 2))

/-- Write a firewall record that `PRS_FW_LOG.max_per_ms` limits, or count it as withheld (R219). -/
def fwLog (m : Chip) (now typ src : Nat) (pay : List (Nat × Nat)) : Chip :=
  if logFits m.prs.logWin now (fld m A.PRS_FW_LOG 0 16) then
    emit (updPrs m fun p => { p with logWin := logCount p.logWin now }) typ src now pay
  else fwEvt (bump m A.PRS_CNT_LOG_LOST 1) 4

/-! ### Connection-tracking entries -/

/-- The endpoints of a trackable frame (R193, R197). -/
structure CtKey where
  v6 : Bool
  src : Nat
  dst : Nat
  sport : Nat
  dport : Nat
  proto : Nat
deriving DecidableEq, Repr

/-- Key of a frame: ports only for TCP and UDP (R193). -/
def ctKey (f : Frame) : CtKey :=
  let l4 := bits f.md 16 3
  let ports := l4 = 1 || l4 = 2
  { v6 := f.head.v6, src := f.head.ipSrc, dst := f.head.ipDst, sport := if ports then f.head.sport else 0,
    dport := if ports then f.head.dport else 0, proto := f.head.proto }

/-- CRC-32C over the canonical key (R198): the endpoint with the lower (address, port) first. -/
def ctCrc (k : CtKey) : Nat :=
  let n := if k.v6 then 16 else 4
  let a := beBytes n k.src ++ beBytes 2 k.sport
  let b := beBytes n k.dst ++ beBytes 2 k.dport
  let lower := k.src < k.dst || (k.src = k.dst && k.sport ≤ k.dport)
  crcKey ((if lower then a ++ b else b ++ a) ++ beBytes 1 k.proto)

/-- Whether an entry matches a key in the original direction (R197). -/
def ctOrig (e : CtEnt) (k : CtKey) (sz dz : Nat) : Bool :=
  e.v6 == k.v6 && e.oSrc == k.src && e.oDst == k.dst && e.oSport == k.sport && e.oDport == k.dport && e.proto == k.proto
    && e.oZone == sz && e.rZone == dz

/-- The same key with source and destination exchanged. -/
def CtKey.swap (k : CtKey) : CtKey := { k with src := k.dst, dst := k.src, sport := k.dport, dport := k.sport }

/-- Whether an entry matches a key in the reply direction (R197). -/
def ctReply (e : CtEnt) (k : CtKey) (sz dz : Nat) : Bool := ctOrig e k.swap dz sz

/-- Timeout of an entry's state in LT counts (R204). -/
def ctTimeout (m : Chip) (state : Nat) : Nat :=
  sec * (match state with
    | 1 => fld m A.PRS_CT_TMO_TCP0 0 16
    | 2 => fld m A.PRS_CT_TMO_TCP0 0 16
    | 3 => fld m A.PRS_CT_TMO_TCP0 16 16
    | 4 => fld m A.PRS_CT_TMO_TCP1 0 16
    | 5 => fld m A.PRS_CT_TMO_TCP1 0 16
    | 6 => fld m A.PRS_CT_TMO_TCP1 16 16
    | 8 => fld m A.PRS_CT_TMO_UDP 0 16
    | 9 => fld m A.PRS_CT_TMO_UDP 16 16
    | _ => fld m A.PRS_CT_TMO_GEN 0 16)

/-- Whether an entry is live at an LT (R199). -/
def ctLive (m : Chip) (e : CtEnt) (lt : Nat) : Bool := lt - e.lastSeen ≤ ctTimeout m e.state

/-- Store a connection-tracking entry, or free its way, and note the change for the pair logic. -/
def ctSet (m : Chip) (i : Nat) (e : Option CtEnt) : Chip :=
  updPrs m fun p => { p with
    ct := (match e with | some x => sput p.ct i x | none => sdel p.ct i),
    ctDirty := if p.ctDirty.contains i then p.ctDirty else p.ctDirty ++ [i] }

/-- Free a lapsed entry and count it (R199). -/
def ctExpire (m : Chip) (i : Nat) : Chip := bump (ctSet m i none) A.PRS_CNT_CT_EXPIRED 1

/-- Free the lapsed entries of a bucket (R199): a lookup meets them. -/
def ctSweep (m : Chip) (bucket stamp : Nat) : Chip :=
  ((List.range 4).map fun w => bucket * 4 + w).foldl (fun m i =>
    match sget m.prs.ct i with
    | some e => if ctLive m e stamp then m else ctExpire m i
    | none => m) m

/-- The way of a bucket whose entry satisfies `p`. -/
def ctFind (m : Chip) (bucket : Nat) (p : CtEnt → Bool) : Option (Nat × CtEnt) :=
  ((List.range 4).filterMap fun w => (sget m.prs.ct (bucket * 4 + w)).map fun e => (bucket * 4 + w, e)).find? fun x => p x.2

/-! ### State machines (R202-R204) -/

/-- TCP flags of a segment. -/
def tcpFin (f : Nat) : Bool := bit f 0

def tcpSyn (f : Nat) : Bool := bit f 1

def tcpRst (f : Nat) : Bool := bit f 2

def tcpAck (f : Nat) : Bool := bit f 4

/-- What the TCP state machine makes of a segment of a matched entry: free the entry, go to a state, or deny (R202, R203).
`reply` is a segment from the responder. -/
inductive TcpMove where
  | free | go (state : Nat) | deny
deriving DecidableEq, Repr

/-- R202 and R203. -/
def tcpMove (state fl : Nat) (reply finByResp : Bool) : TcpMove :=
  let synNoAck := tcpSyn fl && !tcpAck fl
  let synAck := tcpSyn fl && tcpAck fl
  if tcpRst fl then .free
  else match state with
    | 1 => if synNoAck && !reply then .go 1 else if synAck && reply then .go 2 else .deny
    | 2 => if synAck && reply then .go 2 else if tcpAck fl && !tcpSyn fl && !reply then .go 3 else .deny
    | 3 => if tcpFin fl then .go 4 else .go 3
    | 4 => if tcpFin fl && reply != finByResp then .go 5 else .go 4
    | 5 => if tcpAck fl && !tcpFin fl then .go 6 else .go 5
    | 6 => if synNoAck && !reply then .go 1 else .go 6
    | s => .go s

/-- R204: the state after a frame of a UDP or generic entry. -/
def pseudoMove (state : Nat) (reply : Bool) : Nat :=
  if state = 8 && reply then 9 else if state = 10 && reply then 11 else state

/-- An opening frame (R845). -/
def opening (v : Chip) (l4 fl : Nat) : Bool :=
  if l4 = 1 then !tcpRst fl && ((tcpSyn fl && !tcpAck fl) || flag v A.PRS_FW_CFG 1) else true

/-- State that an opening frame's entry starts in (R202, R204). -/
def openState (l4 fl : Nat) : Nat :=
  if l4 = 1 then (if tcpSyn fl && !tcpAck fl then 1 else 3) else if l4 = 2 then 8 else 10

/-- Class of a state in the order of eviction (R207); `none` is never evicted (R208). -/
def evictClass (state : Nat) : Option Nat :=
  match state with
  | 6 => some 0 | 8 => some 1 | 10 => some 1 | 1 => some 2 | 2 => some 2 | 4 => some 3 | 5 => some 3
  | _ => none

/-- The way that an opening frame evicts (R207). -/
def evictWay (m : Chip) (bucket : Nat) : Option Nat :=
  ((List.range 4).foldl (fun (a : Option (Nat × Nat × Nat)) w =>
    match sget m.prs.ct (bucket * 4 + w) with
    | none => a
    | some e =>
      match evictClass e.state with
      | none => a
      | some c =>
        match a with
        | none => some (c, e.lastSeen, bucket * 4 + w)
        | some (c', l', _) => if c < c' || (c == c' && e.lastSeen < l') then some (c, e.lastSeen, bucket * 4 + w) else a) none).map
    fun x => x.2.2

/-- The answer for one copy: permitted, or denied with a reason of R219. -/
abbrev Judged := Chip × Option Nat

/-- Create an entry for an opening frame (R201, R207, R208). -/
def ctCreate (v m : Chip) (now lane : Nat) (f : Frame) (k : CtKey) (bucket sz dz : Nat) : Judged :=
  let l4 := bits f.md 16 3
  let e : CtEnt := {
    oSrc := k.src, oDst := k.dst, oSport := k.sport, oDport := k.dport, proto := k.proto, v6 := k.v6, finByResp := false,
    state := openState l4 f.head.tcpFlags, oZone := sz, rZone := dz, lastSeen := f.stamp, created := now, fOrig := 1, fResp := 0 }
  match (List.range 4).find? fun w => (sget m.prs.ct (bucket * 4 + w)).isNone with
  | some w => (ctSet m (bucket * 4 + w) (some e), none)
  | none =>
    match (if flag v A.PRS_FW_CFG 2 then evictWay m bucket else none) with
    | some i => (fwEvt (bump (ctSet m i (some e)) A.PRS_CNT_CT_EVICT 1) 2, none)
    | none =>
      (fwLog (fwEvt (bump m A.PRS_CNT_CT_FULL 1) 1) now 0x0121 (srcId 2 lane)
        [(2, bucket), (1, k.proto), (1, 0), (4, ctCrc k)], some 6)

/-- A copy that matches an entry (R201, R202, R203, R205). -/
def ctHit (m : Chip) (f : Frame) (i : Nat) (e : CtEnt) (reply : Bool) : Judged :=
  let upd := fun (st : Nat) (fin : Bool) =>
    { e with
      state := st, finByResp := fin, lastSeen := max e.lastSeen f.stamp,
      fOrig := if reply then e.fOrig else sat 32 (e.fOrig + 1), fResp := if reply then sat 32 (e.fResp + 1) else e.fResp }
  if bits f.md 16 3 = 1 then
    match tcpMove e.state f.head.tcpFlags reply e.finByResp with
    | .free => (ctSet m i none, none)
    | .deny => (m, some 5)
    | .go st => (ctSet m i (some (upd st (if e.state = 3 && st = 4 then reply else e.finByResp && st != 1))), none)
  else (ctSet m i (some (upd (pseudoMove e.state reply) e.finByResp)), none)

/-- Look a trackable copy up and decide it (R197-R201, R210). `ecc` is a way whose word shows a double-symbol error. -/
def ctDecide (v m : Chip) (now lane : Nat) (f : Frame) (sz dz : Nat) (ecc : Option Nat) : Judged :=
  let k := ctKey f
  let bucket := ctCrc k % 16384
  match ecc with
  | some w => (report (fwEvt (ctSet m (bucket * 4 + w) none) 5) now (srcId 2 lane) 0x02F2 1 bucket, some 8)
  | none =>
    let m := ctSweep m bucket f.stamp
    let miss := fun (m : Chip) =>
      let vd := (matrix v sz dz).1
      if vd = 2 then
        if opening v (bits f.md 16 3) f.head.tcpFlags then ctCreate v m now lane f k bucket sz dz else (m, some 4)
      else if vd = 1 then (m, none)
      else (m, some 1)
    match ctFind m bucket fun e => ctOrig e k sz dz || ctReply e k sz dz with
    | none => miss m
    | some (i, e) =>
      if (matrix v e.oZone e.rZone).1 ≠ 2 then miss (bump (ctSet m i none) A.PRS_CNT_CT_REVOKED 1)
      else ctHit m f i e (!ctOrig e k sz dz)

/-- A trackable frame (R193). -/
def trackable (f : Frame) : Bool :=
  (bits f.md 14 2 == 1 || bits f.md 14 2 == 2) && !bit f.md 13 && !bit f.md 30 && !(bit f.md 19 && bits f.md 16 3 == 0)

/-- Judge one destination copy (R190, R194-R196, R201). -/
def judgeCopy (v m : Chip) (now lane : Nat) (f : Frame) (md port : Nat) (multi : Bool) (ecc : Option Nat) : Judged :=
  let sz := bits md 5 4
  let dz := portZone v port
  let vd := (matrix v sz dz).1
  let rev := (matrix v dz sz).1
  if vd = 2 && multi then (m, if flag v A.PRS_FW_CFG 0 then none else some 7)
  else if vd = 2 && !trackable f then
    (m, some (if bit f.md 13 || bit f.md 30 || (bit f.md 19 && bits f.md 16 3 == 0) then 3 else 2))
  else if !multi && trackable f && (vd = 2 || rev = 2) then ctDecide v m now lane f sz dz ecc
  else (m, if vd = 1 then none else some 1)

/-- Record a denied copy (R218). -/
def denyCopy (v m : Chip) (now : Nat) (f : Frame) (md port reason : Nat) : Chip :=
  let sz := bits md 5 4
  let dz := portZone v port
  let ip := bits f.md 14 2 = 1 || bits f.md 14 2 = 2
  let m := fwEvt m 0
  if (matrix v sz dz).2 then
    fwLog m now 0x0120 (srcId 1 f.port)
      [(1, sz + dz * 16), (1, reason), (1, port), (1, if ip then f.head.proto else 0), (4, if ip then leNat (beBytes 4 f.head.ipSrc) else 0),
       (4, f.hash)]
  else m

/-- Judge every destination copy in rising port order (R190, R192, R206): the copies kept, and the reason for which the last
copy was removed. -/
def judgeAll (v : Chip) (now lane : Nat) (f : Frame) (md : Nat) (multi trap : Bool) (ecc : Option Nat) :
    List Nat → Chip → Option Nat → Chip × List Nat × Option Nat
  | [], m, last => (m, [], last)
  | p :: r, m, last =>
    if trap && p == 22 then
      let (m, kept, last) := judgeAll v now lane f md multi trap ecc r m last
      (m, p :: kept, last)
    else
      match judgeCopy v m now lane f md p multi ecc with
      | (m, none) =>
        let (m, kept, last) := judgeAll v now lane f md multi trap none r m last
        (m, p :: kept, last)
      | (m, some reason) => judgeAll v now lane f md multi trap none r (denyCopy v m now f md p reason) (some reason)

/-- Count a frame whose every copy was removed, by the reason of its last one (R192). -/
def countDenied (m : Chip) (last : Option Nat) : Chip :=
  match last with
  | some 1 => bump m A.PRS_CNT_FW_DENY 1
  | some 6 => m
  | some _ => bump m A.PRS_CNT_CT_DENY 1
  | none => m

/-! ### CAN and LIN crossings (R215-R217) -/

/-- Zone of a CAN channel and of a LIN channel (R186). -/
def canZone (m : Chip) (c : Nat) : Nat := fld m (A.PRS_FW_CAN_ZONE (c / 8)) (c % 8 * 4) 4

def linZone (m : Chip) (c : Nat) : Nat := fld m A.PRS_FW_LIN_ZONE (c % 8 * 4) 4

/-- A CAN or LIN crossing: zones, identifier, extended, format 0 Classical, 1 FD, 2 XL, 3 LIN; channel; 0 leaving the channel,
1 going to it. -/
structure Crossing where
  sz : Nat
  dz : Nat
  ident : Nat
  ide : Bool
  fmt : Nat
  chan : Nat
  going : Nat
deriving DecidableEq, Repr

/-- Whether CAN rule `r` matches a crossing (R216). -/
def ruleMatches (m : Chip) (x : Crossing) (r : Nat) : Bool :=
  let w := rdN m (A.PRS_FW_CANRULE r)
  bit w 0 && bit w 3 == (x.fmt == 3) && (bit w 12 || bits w 4 4 == x.sz) && (bit w 13 || bits w 8 4 == x.dz)
    && fld m (A.PRS_FW_CANRULE_IDLO r) 0 29 ≤ x.ident && x.ident ≤ fld m (A.PRS_FW_CANRULE_IDHI r) 0 29
    && (x.fmt == 3 || bit w (14 + x.fmt)) && (x.fmt == 3 || x.fmt == 2 || bits w 17 2 == 2 || bits w 17 2 == b2n x.ide)

/-- Rules that are valid, lowest index first: only words listed in the register file can be. -/
def validRules (m : Chip) : List Nat :=
  m.regs.filterMap fun p =>
    if 0x40431000 ≤ p.1 && p.1 < 0x40432000 && p.1 % 16 = 0 && p.2.toNat % 2 = 1 then some ((p.1 - 0x40431000) / 16) else none

/-- Judge a CAN or LIN crossing (R216, R217); the answer is whether it is permitted. -/
def judgeCrossing (m : Chip) (now : Nat) (x : Crossing) : Chip × Bool :=
  let rule := (validRules m).find? (ruleMatches m x)
  let (ok, log) := match rule with
    | some r => (flag m (A.PRS_FW_CANRULE r) 1, flag m (A.PRS_FW_CANRULE r) 2)
    | none => ((matrix m x.sz x.dz).1 == 1, (matrix m x.sz x.dz).2)
  if ok then (m, true)
  else
    let m := fwEvt (bump m A.PRS_CNT_CAN_DENY 1) 3
    let m := if log then
        fwLog m now 0x0122 (srcId (if x.fmt = 3 then 8 else 7) x.chan)
          [(1, x.sz + x.dz * 16), (1, 9), (1, x.going), (1, x.fmt), (4, x.ident), (4, rule.getD 0xFFFFFFFF)]
      else m
    (m, false)

end Sys2Proof.Machine
end

