-- ==== Sys2Proof/Machine/Banks.lean ====
section
/-! DEFINITION. The two configuration banks as the registers show them: the RWL fields of the bank that is not active are kept
aside, and a swap of banks exchanges them (R74, R785). -/

namespace Sys2Proof.Machine

/-- Mask of the RWL fields of a register. -/
def rwlMask (a : Nat) : Nat :=
  match regRow a with
  | some (_, r, _) => r.rwl
  | none => 0

/-- Change CFG's own state. -/
def updCfg (m : Chip) (f : CfgSt → CfgSt) : Chip := { m with cfg := f m.cfg }

/-- Registers, by block and offset of their row, whose RWL fields take a bank's value only at the first commit (R786). -/
def coldRows : List (Blk × Nat) := [
  (.prs, 0x20004), (.prs, 0x20008), (.hif, 0x10000), (.tm, 0x10), (.tm, 0x4000), (.can, 0x100), (.can, 0x1010), (.can, 0x102C),
  (.mac, 0x1000), (.mac, 0x1004), (.mac, 0x1030), (.ledger, 0x10), (.ledger, 0x14), (.pair, 0x10), (.vault, 0x30), (.vault, 0x408)]

/-- A register of R786. -/
def coldReg (a : Nat) : Bool :=
  match regRow a with
  | some (b, r, _) => coldRows.contains (b, r.off)
  | none => false

/-- Addresses at which either bank holds an RWL field that is not at its reset value. -/
def rwlAddrs (m : Chip) : List Nat :=
  ((m.regs.map (·.1)).filter (fun a => rwlMask a != 0) ++ m.cfg.saved.map (·.1)).dedup

/-- The RWL fields that the bank not active holds of a register. -/
def savedRwl (m : Chip) (a : Nat) : Nat :=
  ((sget m.cfg.saved a).map (·.toNat)).getD (Nat.land (resetWord a).toNat (rwlMask a))

/-- Keep RWL fields of a register for the bank that is not active. -/
def saveRwl (m : Chip) (a v : Nat) : Chip :=
  updCfg m fun c => { c with
    saved := sputD c.saved (BitVec.ofNat 32 (Nat.land (resetWord a).toNat (rwlMask a))) a (BitVec.ofNat 32 (Nat.land v (rwlMask a))) }

/-- Exchange the RWL fields of one register with those kept aside. -/
def swapWord (m : Chip) (a : Nat) : Chip :=
  let cur := rdN m a
  let other := savedRwl m a
  saveRwl (wrN m a (clearMask cur (rwlMask a) + other)) a cur

/-- The device with the other bank active; fields of R786 keep their running value. -/
def swapBanks (m : Chip) : Chip :=
  updCfg (((rwlAddrs m).filter fun a => !coldReg a).foldl swapWord m) fun c => { c with active := 1 - c.active }

/-- The other bank with all of its fields, as the checks of a commit judge it (R784). -/
def wholeBank (m : Chip) : Chip := updCfg ((rwlAddrs m).foldl swapWord m) fun c => { c with active := 1 - c.active }

/-- The view of the device with which a frame whose head entered stage 0 at LT `s0` is matched (R74). -/
def bankView (m : Chip) (s0 : Nat) : Chip := if s0 < m.cfg.actLt then swapBanks m else m

/-- A configuration is committed: the active bank is no longer open (R12). -/
def committed (m : Chip) : Bool := m.cfg.bank.getD m.cfg.active .opened != .opened

end Sys2Proof.Machine
end

