-- ==== Sys2Proof/Machine/Decide.lean ====
section
/-! DEFINITION. From the first byte to the queue: reception with MACsec (02, 09), the lane decision (R77-R81), sequence recovery and
generation (R336-R341), the pair digest (R755), tail verification and its corrections (R79, R84, R86), and the two ends of a
cut-through copy that runs out of bytes (R85, R87). -/

namespace Sys2Proof.Machine

/-! ### Reception -/

/-- MACsec receive is enabled on a front port: one of its receive SCs is valid. -/
def macsecRx (m : Chip) (n : Nat) : Bool := n < 16 && (List.range 4).any fun s => flag m (A.MACSEC_RXSC_CFG n s) 0

/-- Change the PAIR block. -/
def updPair (m : Chip) (f : PairSt → PairSt) : Chip := { m with pair := f m.pair }

/-- The fields of a SecTAG: AN, PN, SCI and the offset at which the secured data starts. -/
structure SecTag where
  an : Nat
  pn : Nat
  sci : Nat
  data : Nat
deriving DecidableEq, Repr

/-- Read the SecTAG of a frame; the SCI of a frame without one is its source address with port identifier 1 (R396). -/
def secTag (l : List Byte) : Option SecTag :=
  if be l 12 2 ≠ 0x88E5 then none
  else
    let tci := byteAt l 14
    let sc := bit tci 5
    some { an := tci % 4, pn := be l 16 4, sci := if sc then be l 20 8 else be l 6 6 * 65536 + 1, data := if sc then 28 else 20 }

/-- The SCI that a receive or transmit SC holds, in network byte order. -/
def sciOf (m : Chip) (a : Nat) : Nat := beNat (leBytes 8 (rd64 m a))

/-- The full packet number that the low 32 bits of an XPN frame stand for, given the lowest acceptable one (IEEE 802.1AE). -/
def xpnOf (low pn : Nat) : Nat :=
  let hi := low / 2 ^ 32 * 2 ^ 32
  if low % 2 ^ 32 ≤ pn || low % 2 ^ 32 < 2 ^ 31 then hi + pn else hi + 2 ^ 32 + pn

/-- The plain bytes of a frame that MACsec protected (log entry 4). -/
def secPlain (key : List Byte) (l : List Byte) (d : Nat) : List Byte :=
  let n := l.length - d - 16
  l.take 12 ++ Config.crypto "MACSEC_DECRYPT" key [l] n

/-- The slot of an association holds a key whose policy lets MACsec use it: `sak`, GCM, the direction (R410, R412). -/
def sakOk (m : Chip) (sa dir : Nat) : Bool :=
  match sget m.vault.slots (fld m sa 8 8) with
  | some k => bit k.policy 29 && bit k.policy 6 && bit k.policy (14 + dir) && bit k.policy (20 + m.life)
  | none => false

/-- What the Mint makes of a frame received on a port with MACsec receive enabled (R396, R397): the plain bytes, or `none` when
it is dropped and counted, also where no healthy core is left (R365). -/
def macsecIn (m : Chip) (n : Nat) (l : List Byte) : Chip × Option (List Byte) :=
  match secTag l with
  | none => (bump m (A.in_no_tag n) 1, none)
  | some t =>
    match (List.range 4).find? fun s =>
      flag m (A.MACSEC_RXSC_CFG n s) 0 && sciOf m (A.MACSEC_RXSC_SCI_LO n s) == t.sci && flag m (A.MACSEC_RXSC_SA n s t.an) 0
        && sakOk m (A.MACSEC_RXSC_SA n s t.an) 1 with
    | none => (bump m (A.in_no_sa n) 1, none)
    | some s =>
      let cfg := A.MACSEC_RXSC_CFG n s
      let lowA := A.MACSEC_RXSC_SA_PN_LO n s t.an
      let low := rd64 m lowA
      let pn := if bit (fld m cfg 2 2) 1 then xpnOf low t.pn else t.pn
      let key := sakOf m (A.MACSEC_RXSC_SA n s t.an)
      if noUnit m false then (bump m (A.in_mint_drop n) 1, none)
      else if !Config.verifies "MACSEC" key [l, beBytes 8 pn] then (bump m (A.in_not_valid n) 1, none)
      else if flag m cfg 1 && pn < low then (bump m (A.in_late n) 1, none)
      else
        let m := wr64 m lowA (max low (pn + 1 - rdN m (A.MACSEC_RXSC_WARN n s)))
        (bump m (A.in_ok n) 1, some (secPlain key l t.data))

/-- Put a new frame into the device: its first cell is taken, or the frame is dropped where the headroom is fully used (R232,
R233). The ingress stamps of a port strictly increase (R73): one that would not is the next count after the one before it. -/
def newFrame (m : Chip) (now : Nat) (f : Frame) : Chip :=
  let full := hdrm m ≤ hdrmUsed m now
  let stamp := max f.stamp (m.tm.stamps.getD f.port 0)
  let f := { f with id := m.tm.nextId, stamp := stamp }
  let m := updTm m fun t =>
    { t with nextId := t.nextId + 1, frames := t.frames ++ [f], stamps := lset t.stamps f.port fun _ => stamp + 1 }
  if full && !f.verified then hdrmDrop m now f 0 else m

/-- A complete frame enters the fabric on port 20-23 (R80, R583): it is verified before its head is parsed. -/
def hostFrame (m : Chip) (now port : Nat) (bytes : List Byte) (ts : Bool) : Chip :=
  newFrame m now
    { id := 0, port := port, stamp := now, t0 := now, bytes := bytes, len := bytes.length + 4, tailAt := some now, fcsOk := true,
      tooLong := false, secured := false, verified := true, ended := true, tsReq := ts }

/-- A frame that the device holds nothing of is counted at once: with a bad FCS, over-long and so truncated before its head is ready
(R54, R116), or by `k`, a good one. -/
def countUnheld (m : Chip) (n : Nat) (fcsOk long : Bool) (k : Chip → Chip) : Chip :=
  if long then bump (bump m (A.rx_oversize n) 1) (A.rx_truncated n) 1
  else if !fcsOk then bump m (A.rx_fcs_err n) 1
  else k m

/-- The mPackets of a preemptable frame assemble (R331): each is given by the number of its SMD, its fragment count and whether its mCRC is good.
The first starts the frame; the continuations carry its number, and fragment counts that rise by one modulo 4 from 0. The last ends with
the frame's FCS. An express frame has none. -/
def assembles (l : List (Fin 4 × Fin 4 × Bool)) : Bool :=
  match l with
  | [] => true
  | s :: r => (r.zipIdx.all fun p => p.1.1 == s.1 && p.1.2.1.val == p.2 % 4) && l.dropLast.all (·.2.2)

/-- A frame arrives on a front port at LT `at_` (R53, R54, R56, R58, R60, R331, R396); `frags` are the mPackets of a preemptable frame. -/
def receive (m : Chip) (now at_ n : Nat) (bytes : List Byte) (fcsOk : Bool) (frags : List (Fin 4 × Fin 4 × Bool)) (full : Bool)
    (errs : Nat) : Chip :=
  if !portEn m n || !linkOn m n || m.pwr.mode != .run then m
  else
    let m := if 1 < frags.length then bump m (A.frag_rx n) (frags.length - 1) else m
    let m := if errs = 0 then m else bump m (A.rx_symbol_err n) errs
    let len := bytes.length + 4
    let lim := fld m (A.MAC_PFRAME n) 0 14
    let long := decide (lim < len)
    let kept := if long then bytes.take lim else bytes
    let sec := macsecRx m n
    let good := fun (m : Chip) => bump (bump m (A.rx_frames n) 1) (A.rx_octets n) len
    if !assembles frags then bump m (A.assembly_err n) 1
    else if len < 64 then bump m (A.rx_runt n) 1
    else if be bytes 12 2 = 0x8808 then countUnheld m n fcsOk long fun m => bump m (A.rx_mac_ctrl n) 1
    else if sec && full then countUnheld m n fcsOk long fun m => good (bump m (A.in_mint_drop n) 1)
    else
      let (m, plain) := if sec && !long && fcsOk then macsecIn m n kept else (m, some kept)
      match plain with
      | none => good m
      | some p =>
        newFrame m now
          { id := 0, port := n, stamp := corrected at_ (fld m (A.MAC_PTS_CORR n) 0 16), t0 := at_, bytes := p,
            len := if sec then p.length + 4 else min len (lim + 1), tailAt := some (at_ + wireLt (speedOf m n) (min len (lim + 1))),
            fcsOk := fcsOk, tooLong := long, secured := sec }

/-! ### Sequence recovery and generation (R336-R341) -/

/-- The stream table entry of a metadata word, where its stream is valid. -/
def streamEntry (m : Chip) (md : Nat) : Nat := if mdStreamValid md then rdN m (A.GATE_STREAM (mdStream md)) else 0

/-- Sequence number of a frame's R-TAG. -/
def seqOf (f : Frame) : Nat := beNat (slice f.bytes (16 + 4 * f.head.tags) 2)

/-- Shift a recovery history by one, `b` entering: the history and whether a number was lost (IEEE 802.1CB). -/
def histShift (len h b : Nat) : Nat × Nat := ((h * 2 + b) % 2 ^ len, if bit h (len - 1) then 0 else 1)

/-- Shift a history by `k` numbers, the last of which was received. -/
def histMove (len : Nat) : Nat → Nat × Nat → Nat × Nat
  | 0, a => a
  | 1, (h, lost) => let (h, l) := histShift len h 1; (h, lost + l)
  | k + 2, (h, lost) => let (h, l) := histShift len h 0; histMove len (k + 1) (h, lost + l)

/-- Signed distance of a sequence number from the latest one, modulo 2^16. -/
def seqDelta (seq last : Nat) : Int := sgn ((seq + 65536 - last) % 65536) 16

/-- A recovery function judges a frame (R339): the answer is whether the frame passes. -/
def recoverFn (m : Chip) (now r : Nat) (f : Frame) : Chip × Bool :=
  let w := rdN m (A.GATE_RCVY0 r)
  let len := bits w 2 6
  let pass := fun (m : Chip) => (bump m (A.rc_passed r) 1, true)
  let drop := fun (m : Chip) => (bump m (A.rc_discarded r) 1, false)
  let set := fun (m : Chip) (s : RcvySt) => { m with rcvy := sput m.rcvy r s }
  if !hasRtag f then
    let m := bump m (A.rc_tagless r) 1
    if bit w 8 then pass m else drop m
  else
    let seq := seqOf f
    match sget m.rcvy r with
    | none => pass (set m { seq := seq, takeAny := false, hist := 1, last := now })
    | some s =>
      if s.takeAny then pass (set m { seq := seq, takeAny := false, hist := 1, last := now })
      else
        let d := seqDelta seq s.seq
        if bit w 1 then
          if d = 0 then drop m
          else pass (set (if d ≠ 1 then bump m (A.rc_out_of_order r) 1 else m) { s with seq := seq, last := now })
        else if (len : Int) ≤ d.natAbs then drop (bump m (A.rc_rogue r) 1)
        else if d ≤ 0 then
          if bit s.hist d.natAbs then drop m
          else pass (set (bump m (A.rc_out_of_order r) 1) { s with hist := s.hist + 2 ^ d.natAbs, last := now })
        else
          let (h, lost) := histMove len d.natAbs (s.hist, 0)
          let m := if d ≠ 1 then bump m (A.rc_out_of_order r) 1 else m
          pass (set (if lost = 0 then m else bump m (A.rc_lost r) lost) { seq := seq, takeAny := false, hist := h, last := now })

/-- Recovery at a lane decision (R338): whether the frame passes, and whether the function removes R-TAGs. -/
def recover (m : Chip) (now : Nat) (f : Frame) (md : Nat) : Chip × Bool × Bool :=
  let e := streamEntry m md
  let r := bits e 11 10
  if bit e 21 && flag m (A.GATE_RCVY0 r) 0 then
    let (m, ok) := recoverFn m now r f
    (m, ok, flag m (A.GATE_RCVY0 r) 9)
  else (m, true, false)

/-- Generation (R340): the sequence number taken, and the ports whose copies carry it. -/
def generateSeq (m : Chip) (md : Nat) : Chip × Nat × Nat :=
  let e := streamEntry m md
  if bit e 10 then
    let g := bits e 0 10
    let s := fld m (A.GATE_GEN0 g) 0 16
    (setF m (A.GATE_GEN0 g) 0 16 (s + 1), s, fld m (A.GATE_GEN1 g) 0 20)
  else (m, 0, 0)

/-! ### The pair digest (R755, R756) -/

/-- The pair cycle that an ingress stamp falls in, when it lies more than `guard_ns` from both boundaries. -/
def digestCycle (m : Chip) (stamp : Nat) : Option Nat :=
  let l := (bcycLen m : Int) * nsU
  let d := workU m stamp - bcycBase m * nsU
  let g := (fld m A.PAIR_TIMING 0 8 * 10 : Nat) * nsU
  if l = 0 || d < 0 || d % l ≤ g || l - d % l ≤ g then none else some (d / l).toNat

/-- Add a record to the digest of its cycle. -/
def digestAdd (l : List Digest) (k rec : Nat) : List Digest :=
  let add := fun (x : Digest) =>
    { x with n := x.n + 1, sum := (x.sum + rec) % 2 ^ 128, xor := Nat.xor x.xor rec }
  if l.any fun x => x.cycle == k then l.map fun x => if x.cycle = k then add x else x
  else l ++ [add { cycle := k }]

/-- A lane decision enters the digest of its cycle. -/
def digest (m : Chip) (f : Frame) (tc ports : Nat) (dropped : Bool) : Chip :=
  if !flag m A.PAIR_CFG 0 || !flag m A.TIME_BCYC_CFG 31 || !flag m A.PAIR_DIGEST_PORTS f.port then m
  else
    match digestCycle m f.stamp with
    | none => m
    | some k =>
      let rec_ := f.hash + f.port * 2 ^ 32 + tc * 2 ^ 40 + ports * 2 ^ 64 + b2n dropped * 2 ^ 96
      updPair m fun p => { p with dig := digestAdd p.dig k rec_, replay := (p.replay ++ [rec_]).drop (p.replay.length - 63) }

/-! ### The lane decision (R77) -/

/-- A copy leaves by cut-through (R78). -/
def cutThrough (m : Chip) (f : Frame) (d : Dest) : Bool :=
  f.port < 20 && flag m A.PRS_CT_EN f.port && !macsecRx m f.port && d.port < 20
    && speedOf m d.port ≤ speedOf m f.port && !((queueOf m d.port d.tc).any fun c => c.st == .queued)

/-- A copy comes to admission (R95): at its lane decision (`first`), where it may leave by cut-through (R78) and otherwise waits for the
tail (R79), or at tail verified. -/
def admitOne (now : Nat) (m : Chip) (x : Nat × Nat × Bool) : Chip :=
  match frameOf m x.1 with
  | none => m
  | some f =>
    match f.waiting.find? fun d => d.port == x.2.1 with
    | none => m
    | some d =>
      let cut := x.2.2 && cutThrough m f d
      if !cut && !f.verified then m
      else
        let rest := f.waiting.filter fun y => y.port != d.port
        let m := updFrame m f.id fun y => { y with waiting := rest }
        gcFrame (admitCopy m now { f with waiting := rest } d (if f.verified then f.len else f.decl) cut) now f.id

/-- The place of an admission among those of its cycle: queue, ingress stamp, lane (R97, R239). -/
def admKey (m : Chip) (x : Nat × Nat × Bool) : Nat × Nat × Nat :=
  match frameOf m x.1 with
  | none => (0, 0, 0)
  | some f => (x.2.1 * 8 + ((f.waiting.find? fun d => d.port == x.2.1).map (·.tc)).getD 0, f.stamp, f.lane)

/-- Whether one admission is judged no later than another. -/
def admBefore (a b : Nat × Nat × Nat) : Bool :=
  a.1 < b.1 || (a.1 == b.1 && (a.2.1 < b.2.1 || (a.2.1 == b.2.1 && a.2.2 ≤ b.2.2)))

/-- The admissions of a cycle, in ascending queue number and, in a queue, in the order of R97 (R239). -/
def admissions (m : Chip) (now : Nat) : Chip :=
  if m.tm.adm.isEmpty then m
  else
    let l := (m.tm.adm.map fun x => (admKey m x, x)).mergeSort fun a b => admBefore a.1 b.1
    l.foldl (fun m x => admitOne now m x.2) (updTm m fun t => { t with adm := [] })

/-- The copies of a frame that wait come to admission in this cycle. -/
def bring (m : Chip) (fid : Nat) (ds : List Dest) (first : Bool) : Chip :=
  updTm m fun t => { t with adm := t.adm ++ ds.map fun d => (fid, d.port, first) }

/-- The mirror copy that a decision asks for (R142, R143, R247): none to a member of the ingress port's group (R113). -/
def mirrorDest (v : Chip) (f : Frame) (session : Option Nat) (dropped : Bool) (ports : List Nat) (tc : Nat) : List Dest :=
  match session with
  | none => []
  | some k =>
    let w := rdN v (A.PRS_MIRROR k)
    let own := lagOf v f.port
    if bit w 12 && (!dropped || bit w 13) && !ports.contains (bits w 0 12) && !(own.isSome && lagOf v (bits w 0 12) == own) then [{ port := bits w 0 12, tc := tc, mirror := true }]
    else []

/-- The lane decision of a frame, read with the view `v` of its bank: the source zone is that of the ingress port in the bank of the
frame (R189). -/
def decide_ (v m : Chip) (now l : Nat) (f : Frame) (ecc : Bool) (ctEcc : Option Nat) : Chip :=
  let f := { f with md := setBits f.md 5 4 (portZone v f.port) }
  let st := runStages v m f
  let w := st.w
  let md := w.md
  let tc := frameTc v f md
  let dropped := w.v.drop || ecc
  let (dest, multi) := destinations v w.m f st
  let m := if dest.isEmpty && !dropped then bump w.m A.PRS_CNT_NO_DEST 1 else w.m
  let trap := w.v.verdict = 4
  let (m, kept, last) := if dropped then (m, [], none) else judgeAll v now l f md multi trap ctEcc dest m none
  let gone := !dropped && !dest.isEmpty && kept.isEmpty
  let m := if gone then countDenied m last else m
  let out := dropped || kept.isEmpty
  let m := digest m f tc (kept.foldl (fun a p => a + 2 ^ p) 0) out
  let f := { f with md := md }
  let (m, pass, pop) := if out then (m, true, false) else recover m now f md
  let kept := if pass then kept else []
  let (m, seq, tags) := if kept.isEmpty then (m, 0, 0) else generateSeq m md
  let mir := mirrorDest v f w.v.mirror (out || !pass) kept tc
  let many := 1 < kept.length + mir.length
  let ds := (kept.map fun p =>
      ({ port := p, tc := tc, mark := w.v.ecn, tag := if bit tags p then 1 else if pop then 2 else 0 } : Dest)) ++ mir
  let ds := (ds.map fun d => { d with multi := many }).mergeSort fun a b => a.port ≤ b.port
  let ds := if f.dead then [] else ds
  let m := updFrame m f.id fun x =>
    { x with phase := .decided, md := md, seqNum := seq, trap := if trap then some w.v.trap else none, waiting := ds }
  let m := if flag m A.LEDGER_FRAME_RX_PORTS f.port || streamSel m md then
      emitFrame m 0x0100 (srcId 1 f.port) now
        [(8, f.stamp), (2, mdStream md + b2n (mdStreamValid md) * 2048 + tc * 4096 + b2n (dropped || gone) * 32768), (2, f.decl)]
    else m
  gcFrame (bring m f.id ds true) now f.id

/-- Cycles from the entry into stage 0 to the lookup of a table: stages 0 to 3, and the multicast groups at the action merge. -/
def lookupAt (k : Nat) : Nat := [0, 5, 10, 15, 15, 15, 21, 15, 15].getD k 0

/-- The tables as the lookups of a head found them that entered stage 0 at LT `s0`: a lookup in the commit cycle of a write, or before
it, sees the old entry (R173). -/
def lookupView (m : Chip) (s0 : Nat) : Chip :=
  m.prs.past.foldl (fun v p =>
    if s0 + lookupAt p.k * cyc ≤ p.lt then updTables v p.bank fun t => t.set p.k (sputD (t.get p.k) 0 p.i p.old) else v) m

/-- A lane decision of the cycle `now`. -/
def decideHead (now : Nat) (m : Chip) (d : LaneDec) : Chip :=
  let m := laneLeave m d.bucket
  match frameOf m d.fid with
  | none => m
  | some f =>
    let m := if d.fault then setIrq (report m now (srcId 2 d.lane) 0x02F0 2 0) .prs 7 else m
    let m := match d.ecc with
      | some (t, i) => setIrq (report (bump m A.PRS_CNT_TBL_ECC 1) now (srcId 2 d.lane) 0x01F1 2 (t * 2 ^ 16 + i)) .prs 6
      | none => m
    decide_ (bankView (lookupView m d.s0) d.s0) m now d.lane f d.ecc.isSome d.ctEcc

/-- The lane decisions of a cycle, in ascending lane order: each sees the meters, counters, connections and recovery functions as the one
before it left them (R164, R206, R338). -/
def decisions (m : Chip) (now : Nat) : Chip :=
  if m.prs.dec.isEmpty then m
  else (m.prs.dec.mergeSort fun a b => a.lane ≤ b.lane).foldl (decideHead now) (updPrs m fun p => { p with dec := [] })

/-- The oldest head in a lane's pipeline reaches its lane decision in this cycle; where the pipeline holds none, the head at the front of
the FIFO is accepted first. `soft` are the words whose single-symbol error made a lookup read again (R179). -/
def laneDecision (m : Chip) (now l s0 : Nat) (soft : List (Nat × Nat)) (ecc : Option (Nat × Nat)) (ctEcc : Option Nat) (fault : Bool) :
    Chip :=
  let m := if (laneOf m l).pipe.isEmpty then
      match (laneOf m l).fifo.head? with
      | some x => laneAccept m now l x
      | none => m
    else m
  match (laneOf m l).pipe with
  | [] => m
  | (fid, k, at_) :: r =>
    let m := updLane m l fun s => { s with pipe := r }
    let m := laneRetry m now l soft.length
    updPrs m fun p => { p with
      soft := soft.foldl (fun a x => if a.contains (x.1 * 2 ^ 16 + x.2) then a else a ++ [x.1 * 2 ^ 16 + x.2]) p.soft,
      dec := p.dec ++ [{ lane := l, fid := fid, bucket := k, s0 := max at_ (min s0 now), ecc := ecc, ctEcc := ctEcc, fault := fault }] }

/-! ### Tail verified (R79, R84-R87) -/

/-- Correct what a cut-through copy `c` was counted at to the actual length `len` (R84, R235, R274): the difference in bytes is charged
to the deficit, the shaper and the Purse that its grant charged. `c` is the copy as it stands, or stood when its tail was verified. -/
def correctCut (m : Chip) (now : Nat) (c : Copy) (len : Nat) : Chip :=
  let c := ((m.tm.copies.find? fun x => x.fid == c.fid && x.port == c.port).getD c)
  let d : Int := (len : Int) - c.len
  let m := updCopies m (fun x => x.fid == c.fid && x.port == c.port) fun x =>
    { x with len := len, charge := cellsOf len, cause := if x.begun && d ≠ 0 && x.cause = 0 then 4 else x.cause,
             counted := if x.begun then ((x.counted : Int) + d).toNat else x.counted }
  if !c.begun || d = 0 then m
  else
    let n := c.port
    let r := shaperRate m n now
    let weighted := c.tc < 8 - fld m (A.TM_SCH_PORT_CFG n) 0 3
    let q := n * 8 + c.tc
    let m := setCnt m (A.tx_counted q) ((cnt m (A.tx_counted q) : Int) + d).toNat
    let m := updSch m n fun s => { s with
      deficit := if weighted then lset s.deficit c.tc fun x => x - d else s.deficit,
      shapers := if c.owedS then s.shapers.map fun x =>
          if x.1 = c.tc && x.2.slope < r then
            (x.1, { x.2 with credit := min (x.2.hi * byteU : Nat) (x.2.credit + (-(d * 1024 * (r - x.2.slope : Nat))).ediv r * creditU) })
          else x
        else s.shapers }
    match (schOf m n).purse with
    | none => m
    | some p =>
      if !c.owedP then m
      else
        let t : Int := min ((p.burst * byteU : Nat) : Int) (p.tokens - d * byteU)
        let lo : Int := -(p.burst * byteU : Nat)
        let m := updSch m n fun s => { s with purse := some { p with tokens := max lo t } }
        if t ≤ lo then setIrq m .tm 17 else m

/-- The corrections of R84 for the cut-through copies of a frame whose tail has arrived, due in the cycle after tail verified. -/
def correctLater (m : Chip) (now : Nat) (f : Frame) : Chip :=
  (m.tm.copies.filter fun c => c.fid == f.id && c.cut && c.st != .void).foldl
    (fun m c => nextCycle m now (.correct c (tagLen f c.tag f.len))) m

/-- The MAC has checked a frame's tail. -/
def tailVerified (m : Chip) (now : Nat) (f : Frame) : Chip :=
  let m := updFrame m f.id fun x => { x with ended := true }
  if f.tooLong then
    let m := bump m (A.rx_oversize f.port) 1
    truncate m now f 3 (arrived m f now)
  else if !f.fcsOk then killFrame (correctLater (bump m (A.rx_fcs_err f.port) 1) now f) now f.id
  else
    let m := bump (bump m (A.rx_frames f.port) 1) (A.rx_octets f.port) f.len
    if f.dead then gcFrame m now f.id
    else
      let m := correctLater (updFrame m f.id fun x => { x with verified := true }) now f
      gcFrame (bring m f.id f.waiting false) now f.id

/-- A cut-through copy of a frame in transmission on a port. -/
def openCut (m : Chip) (fid port : Nat) : Option (Frame × Copy) :=
  match frameOf m fid with
  | none => none
  | some f => (m.tm.copies.find? fun c => c.fid == fid && c.port == port && c.cut && c.st == .sending).map fun c => (f, c)

/-- The tail of a frame has arrived by an LT. -/
def Frame.tailIn (f : Frame) (now : Nat) : Bool :=
  f.verified || (match f.tailAt with
    | some a => decide (a ≤ now)
    | none => false)

/-- How far into its frame a copy reads that has sent `k` bytes: an R-TAG inserted before them, or removed, shifts them. -/
def frameByte (f : Frame) (c : Copy) (k : Nat) : Nat :=
  if c.tag = 1 && !hasRtag f then (if 12 + 4 * f.head.tags < k then max (12 + 4 * f.head.tags) (k - 6) else k)
  else if c.tag = 2 && hasRtag f then (if 12 + 4 * f.head.tags < k then k + 6 else k)
  else k

/-- FRAME_TRUNC for a cut-through copy that was ended (R85, R87). -/
def cutEnd (m : Chip) (now : Nat) (f : Frame) (c : Copy) (cause bytes : Nat) : Chip :=
  let m := emit (stomp m now c) 0x0110 (srcId 1 f.port) now [(2, bytes), (1, cause), (1, 1), (8, f.stamp)]
  gcFrame m now f.id

end Sys2Proof.Machine
end

