-- ==== Sys2Proof/Machine/Sched.lean ====
section
/-! DEFINITION. The egress scheduler (07) with the gate and guard-band verdicts of 08, the residence limit and the residue age (06),
MACsec protection at a grant (R386-R388), and the checks and effects of writes to the TM registers. -/

namespace Sys2Proof.Machine

/-! ### Heads -/

/-- The head copy of a queue. -/
def headOf (m : Chip) (n tc : Nat) : Option Copy := (queueOf m n tc).head?

/-- A copy has been resident longer than its queue's limit (R245). -/
def aged (m : Chip) (now : Nat) (c : Copy) : Bool :=
  let lim := fld m (A.TM_Q_RES (c.port * 8 + c.tc)) 0 24
  lim != 0 && c.stamp + lim * us < now

/-- The copy at the head of a queue is its head in the cycle `now` (R246). -/
def headDue (m : Chip) (now n tc : Nat) : Bool := (schOf m n).headAt.getD tc 0 ≤ now

/-- The head of a queue is gone: the copy behind it is the head in the following cycle (R246). -/
def headGone (m : Chip) (now n tc : Nat) : Chip := updSch m n fun s => { s with headAt := lset s.headAt tc fun _ => now + cyc }

/-- Discard the head of a queue that has been resident too long (R245, R250). -/
def ageHead (m : Chip) (now n tc : Nat) : Chip :=
  match headOf m n tc with
  | none => m
  | some c =>
    if c.st != .queued || !headDue m now n tc || !aged m now c then m
    else
      let m := bump (headGone (dropCopy m c.fid c.port) now n tc) (A.drop_aged (n * 8 + tc)) 1
      let m := if c.multi then abandon m now 4 c else m
      gcFrame m now c.fid

/-- A queued copy becomes a void entry (R252); at the head of its queue its charge is released in the same cycle. -/
def voidCopy (m : Chip) (now : Nat) (c : Copy) : Chip :=
  let head := ((queueOf m c.port c.tc).head?.map (·.fid)) == some c.fid && headDue m now c.port c.tc
  if head then headGone (dropCopy m c.fid c.port) now c.port c.tc
  else updCopies m (fun x => x.fid == c.fid && x.port == c.port) fun x => { x with st := .void }

/-- The residue age of a frame with several copies passes (R251, R252): every copy that has not begun is abandoned, those that wait for
admission too. -/
def residueAge (m : Chip) (now : Nat) (f : Frame) : Chip :=
  if now ≤ f.stamp + fld m A.TM_MC_RESIDUE_AGE 0 20 * us then m
  else
    let age := fun (m : Chip) (c : Copy) => abandon (bump m (A.drop_aged (c.port * 8 + c.tc)) 1) now 5 c
    let cs := m.tm.copies.filter fun c => c.fid == f.id && c.multi && c.st == .queued
    let m := cs.foldl (fun m c => voidCopy (age m c) now c) m
    let ws := f.waiting.filter (·.multi)
    let m := ws.foldl (fun m d => age m { copyFor f d f.len false with charge := 0 }) m
    gcFrame (updFrame m f.id fun x => { x with waiting := x.waiting.filter fun d => !d.multi }) now f.id

/-! ### Eligibility (R267, R323, R324, R329) -/

/-- Time `D` of R323 in 2.5 ns units, for `k` counted bytes. -/
def wireSlots (m : Chip) (n k : Nat) : Nat :=
  let r := rateOf (speedOf m n)
  if r = 0 then 0 else cdiv ((k * 8000000 + fld m (A.GATE_GUARD n) 0 16 * r) * 2) (5 * r)

/-- The guard band passes a copy that starts at `start` (R323, R324); `len` and `k` are its remaining frame bytes and their counted
length. -/
def guardOk (m : Chip) (n tc start len k : Nat) : Bool :=
  if 20 ≤ n then true
  else
    let k := if preemptable m n tc && 124 ≤ len then (64 + overhead m n (macsecTx m n)).toNat else k
    let s := workU m start
    match closeAt m n tc s with
    | none => true
    | some c => s + wireSlots m n k * slotU ≤ c

/-- LT at which the gate of a decision at `now` is read: ahead by the port's own egress delay (R316). -/
def gateLt (m : Chip) (n now : Nat) : Nat := if n < 20 then now + Config.egressDelay (speedOf m n) else now

/-- A class's gate is open for a decision. -/
def gateIsOpen (m : Chip) (n tc now : Nat) : Bool := 20 ≤ n || bit (gateStates m n (gateLt m n now)) tc

/-- Where a list operates, a granted copy reaches the balls no earlier than the instant for which its gate was read (R316). -/
def startOk (m : Chip) (n now start : Nat) : Bool := 20 ≤ n || !(gateOf m n).valid || decide (gateLt m n now ≤ start)

/-- Credit of a class's shaper is not below 0, or it has none (R267). -/
def creditOk (m : Chip) (n tc now : Nat) : Bool :=
  match (schOf m n).shapers.find? fun x => x.1 == tc with
  | none => true
  | some x => 0 ≤ x.2.credit || (n < 20 && 0 < shaperRate m n now && shaperRate m n now ≤ x.2.slope)

/-- The Purse passes a class with a head of `k` counted bytes (R267). -/
def purseOk (m : Chip) (n tc k : Nat) : Bool :=
  match (schOf m n).purse with
  | none => true
  | some p => flag m (A.TM_SCH_Q_CFG n tc) 16 || ((k * byteU : Nat) : Int) ≤ p.tokens

/-- Counted length of a class's head, if it has one. -/
def headLen (m : Chip) (n tc : Nat) : Option Nat := (headOf m n tc).map fun c => countedLen m n c.len

/-- A class is eligible in a decision (R267): while a copy is suspended only express classes are, and while the hold runs
no preemptable class is (R329, R330). -/
def eligible (m : Chip) (n now start tc : Nat) : Bool :=
  let suspended := m.tm.copies.any fun c => c.port == n && c.st == .suspended
  match headOf m n tc with
  | none => false
  | some c =>
    let k := countedLen m n c.len
    c.st == .queued && headDue m now n tc && !(suspended && preemptable m n tc) && !((gateOf m n).hold && preemptable m n tc)
      && gateIsOpen m n tc now && startOk m n now start && guardOk m n tc start c.len k && creditOk m n tc now && purseOk m n tc k

/-- Classes of the strict group, highest first (R275). -/
def strictClasses (m : Chip) (n : Nat) : List Nat := (List.range (fld m (A.TM_SCH_PORT_CFG n) 0 3)).map (7 - ·)

/-- Weighted classes, highest first. -/
def weightedClasses (m : Chip) (n : Nat) : List Nat :=
  (List.range (8 - fld m (A.TM_SCH_PORT_CFG n) 0 3)).map fun k => 7 - fld m (A.TM_SCH_PORT_CFG n) 0 3 - k

/-- The class after `c` in the weighted round (R276). -/
def nextWeighted (m : Chip) (n c : Nat) : Nat := if c = 0 then topWeighted m n else c - 1

/-- The weighted selection (R276): `el` are the eligible weighted classes; `k` bounds the visits. -/
def selectWeighted (m : Chip) (n : Nat) (el : List Nat) : Nat → SchSt → SchSt × Option Nat
  | 0, s => (s, none)
  | k + 1, s =>
    let c := s.ptr
    match headLen m n c with
    | none =>
      selectWeighted m n el k
        { s with deficit := lset s.deficit c fun _ => 0, opens := lset s.opens c fun _ => false, ptr := nextWeighted m n c }
    | some len =>
      if el.contains c then
        let s := if s.opens.getD c false then s
          else { s with deficit := lset s.deficit c fun d => d + fld m (A.TM_SCH_Q_CFG n c) 0 16, opens := lset s.opens c fun _ => true }
        if (len : Int) ≤ s.deficit.getD c 0 then (s, some c)
        else selectWeighted m n el k { s with opens := lset s.opens c fun _ => false, ptr := nextWeighted m n c }
      else selectWeighted m n el k { s with ptr := nextWeighted m n c }

/-- How many visits the weighted selection can take: a quantum is at least 64 bytes. -/
def weightedFuel (m : Chip) (n : Nat) (el : List Nat) : Nat :=
  8 * (4 + el.foldl (fun a c => a + ((headLen m n c).getD 0 + ((schOf m n).deficit.getD c 0).natAbs) / 64 + 1) 0)

/-- One grant decision (R268): the device after the selection, and the class granted. -/
def select (m : Chip) (n now start : Nat) : Chip × Option Nat :=
  match (strictClasses m n).find? (eligible m n now start) with
  | some c => (m, some c)
  | none =>
    let el := (weightedClasses m n).filter (eligible m n now start)
    if el.isEmpty then (m, none)
    else
      let (s, c) := selectWeighted m n el (weightedFuel m n el) (schOf m n)
      (updSch m n fun _ => s, c)

/-- Count what held the classes of a decision (R849, and the counters of 07). -/
def countHeld (m : Chip) (n now start : Nat) : Chip :=
  let open_ := (List.range 8).filter fun c => (headOf m n c).isSome && gateIsOpen m n c now
  let held := open_.any fun c =>
    match headOf m n c with
    | some x => !guardOk m n c start x.len (countedLen m n x.len)
    | none => false
  let m := if held && n < 20 then bump m (A.guard_held n) 1 else m
  open_.foldl (fun m c =>
    if !creditOk m n c now then bump m (A.shaper_held (n * 8 + c)) 1
    else if !purseOk m n c ((headLen m n c).getD 0) then bump m (A.purse_held (n * 8 + c)) 1
    else m) m

/-- Charge a grant (R270, R277, R282, R287). -/
def chargeGrant (m : Chip) (now n tc k : Nat) : Chip :=
  let r := shaperRate m n now
  let weighted := tc < 8 - fld m (A.TM_SCH_PORT_CFG n) 0 3
  let m := bump (bump m (A.tx_copies (n * 8 + tc)) 1) (A.tx_counted (n * 8 + tc)) k
  let m := updSch m n fun s => { s with
    lastClass := tc,
    deficit := if weighted then lset s.deficit tc fun d => d - k else s.deficit,
    shapers := s.shapers.map fun x =>
      if x.1 = tc && x.2.slope < r then (x.1, { x.2 with credit := x.2.credit - (cdiv (k * 1024 * (r - x.2.slope)) r * creditU : Nat) }) else x }
  match (schOf m n).purse with
  | none => m
  | some p =>
    let t : Int := p.tokens - (k * byteU : Nat)
    let lo : Int := -((p.burst * byteU : Nat) : Int)
    let m := updSch m n fun s => { s with purse := some { p with tokens := max lo t } }
    if t ≤ lo then setIrq m .tm 17 else m

/-! ### MACsec on transmit (R386-R388) -/

/-- Greatest packet number of a transmit SC's suite. -/
def pnMax (m : Chip) (n : Nat) : Nat := if bit (fld m (A.MACSEC_TXSC_CFG n) 2 2) 1 then 2 ^ 64 - 1 else 2 ^ 32 - 1

/-- Write a PN_EVENT record: 0 warn, 1 exhausted, 2 switched. -/
def pnEvent (m : Chip) (now n an ev : Nat) : Chip :=
  emit m 0x0505 (srcId 5 (0x20 + n)) now [(1, an), (1, ev), (2, 0), (8, rd64 m (A.MACSEC_TXSC_SA_PN_LO n an))]

/-- An association can protect a frame: valid and not exhausted. -/
def saUsable (m : Chip) (n an : Nat) : Bool := flag m (A.MACSEC_TXSC_SA n an) 0 && !flag m (A.MACSEC_TXSC_SA n an) 16

/-- Bring an association's marks up to date with its `next_pn` (R386, R388). -/
def pnMarks (m : Chip) (now n an : Nat) : Chip :=
  let sa := A.MACSEC_TXSC_SA n an
  let pn := rd64 m (A.MACSEC_TXSC_SA_PN_LO n an)
  let mx := pnMax m n
  let m := if !flag m sa 17 && mx - rdN m (A.MACSEC_TXSC_WARN n) ≤ pn then pnEvent (setIrq (orR m sa (2 ^ 17)) .mint 4) now n an 0 else m
  if !flag m sa 16 && mx ≤ pn then pnEvent (setIrq (orR m sa (2 ^ 16)) .mint 5) now n an 1 else m

/-- Take a packet number for a copy on a protected port (R386, R387): AN and PN, or `none` when it cannot be protected, also
where no healthy core is left (R365). -/
def takePn (m : Chip) (now n : Nat) : Chip × Option (Nat × Nat) :=
  let cfg := A.MACSEC_TXSC_CFG n
  let an := fld m cfg 6 2
  let next := (an + 1) % 4
  let use := fun (m : Chip) (a : Nat) =>
    let pn := rd64 m (A.MACSEC_TXSC_SA_PN_LO n a)
    if sakOk m (A.MACSEC_TXSC_SA n a) 0 && !noUnit m false then
      (pnMarks (wr64 (bump m (A.out_protected n) 1) (A.MACSEC_TXSC_SA_PN_LO n a) (pn + 1)) now n a, some (a, pn))
    else (bump m (A.out_mint_drop n) 1, none)
  if saUsable m n an then use m an
  else if flag m (A.MACSEC_TXSC_SA n an) 16 && flag m cfg 11 && saUsable m n next then
    use (pnEvent (setF m cfg 6 2 next) now n next 2) next
  else (bump m (A.out_pn_exhausted n) 1, none)

/-! ### Ends of transmissions -/

/-- Whether a port is free for a copy that starts at `start` (R265): nothing in transmission, or the transmission ends with its gap within
16 cycles, and before `start`. -/
def portFree (m : Chip) (n now start : Nat) : Bool :=
  now ≤ start && loopMode m n != 3 && decide ((schOf m n).gapTill ≤ min start (now + 16 * cyc)) &&
  (m.tm.copies.filter fun c => c.port == n && c.st == .sending).all fun c =>
    let stop := match plannedCut m c now with
      | some k => fragEnd m c k
      | none => c.start + txLt m c
    decide (stop + wireLt (speedOf m n) 12 ≤ min start (now + 16 * cyc))

/-- PTP fields of a frame for `TIME_TXTS` (R309): messageType, sequenceId and domainNumber. -/
def ptpOf (f : Frame) : Option (Nat × Nat × Nat) :=
  if f.head.etype = 0x88F7 then
    let o := f.head.mac
    some (byteAt f.bytes o % 16, be f.bytes (o + 30) 2, byteAt f.bytes (o + 4))
  else none

/-- Push an egress stamp into `TIME_TXTS`, or count it lost (R309). -/
def txtsPush (m : Chip) (port stamp : Nat) (f : Frame) : Chip :=
  if m.time.txts.length < 64 then
    setIrq (updTime m fun t => { t with txts := t.txts ++ [{ port := port, stamp := stamp, ptp := ptpOf f }] }) .time 5
  else setIrq (updTime m fun t => { t with lost := sat 16 (t.lost + 1) }) .time 6

/-- A copy's transmission on a front port ends (R236, R642, R309). -/
def endTx (m : Chip) (now : Nat) (c : Copy) : Chip :=
  let n := c.port
  let m := match frameOf m c.fid with
    | none => m
    | some f =>
      let m := frameTx (putWire m now c (wireBytes m f c) false) f c false
      if f.tsReq then txtsPush m n c.stampTx f else m
  let m := bump (bump (dropCopy m c.fid n) (A.tx_frames n) 1) (A.tx_octets n) c.len
  let m := updSch m n fun s => { s with gapTill := c.start + txLt m c + wireLt (speedOf m n) 12, gapTc := c.tc }
  gcFrame m now c.fid

/-! ### Writes to the TM registers -/

/-- Page and port of a scheduler register, and of a port register of TM. -/
def schPage (a : Nat) : Option (Nat × Nat) :=
  if 0x40620000 ≤ a && a < 0x40621800 then some ((a - 0x40620000) / 0x100, (a - 0x40620000) % 0x100) else none

/-- The port whose `TM_PORT_CMD` an address names. -/
def portCmd (a : Nat) : Option Nat :=
  if 0x40601008 ≤ a && a < 0x40601180 && (a - 0x40601008) % 16 = 0 then some ((a - 0x40601008) / 16) else none

/-- Least Purse burst of a port (R288). -/
def purseBound (m : Chip) (n cfg : Nat) : Int :=
  (if n < 20 then fld m (A.MAC_PFRAME n) 0 14 else 9216 : Nat) + max (sgn (bits cfg 4 7) 7) (sgn (bits cfg 11 7) 7)

/-- Why a write to a TM register is refused beyond its field ranges, as in `TM_ERR_CAPTURE`; 0 when it is not. -/
def tmCheck (m : Chip) (a new data : Nat) : Nat :=
  match schPage a with
  | some (n, off) =>
    if off = 0x00 then
      (if sgn (bits data 4 7) 7 < -32 || sgn (bits data 11 7) 7 < -32 then 3 else 0)
    else if off = 0x04 then
      if !bit new 24 then 0
      else if bits new 0 24 = 0 then 3
      else if (fld m (A.TM_PURSE_BURST n) 0 24 : Int) < purseBound m n (rdN m (A.TM_SCH_PORT_CFG n)) then 6
      else 0
    else if 0x20 ≤ off && off < 0xA0 && off % 16 = 4 then
      if !bit new 24 then 0 else if 20 ≤ n then 5 else if bits new 0 24 = 0 then 3 else 0
    else 0
  | none =>
    match portCmd a with
    | some n => if bit data 0 && tmPort m n = .up then 4 else 0
    | none =>
      if 0x40604000 ≤ a && a < 0x40604C00 && a % 16 = 0 then (if 4 ≤ bits data 12 4 && bits data 12 4 < 12 then 3 else 0)
      else 0

/-- A change of the strict count (R278). -/
def strictChange (m : Chip) (n old new : Nat) : Chip :=
  let s0 := bits old 0 3
  let s1 := bits new 0 3
  let moved := fun c => decide (8 - s0 ≤ c) != decide (8 - s1 ≤ c)
  updSch m n fun s => { s with
    deficit := s.deficit.zipIdx.map fun p => if moved p.2 then 0 else p.1,
    opens := s.opens.zipIdx.map fun p => if moved p.2 then false else p.1,
    ptr := if 8 - s1 ≤ s.ptr then 7 - s1 else s.ptr }

/-- A write of a shaper's or the Purse's state: the copies in transmission owe it nothing (R290-R294). -/
def cbsWrite (m : Chip) (n c new : Nat) : Chip :=
  let m := updCopies m (fun x => x.port == n && x.tc == c && x.begun) fun x => { x with owedS := false }
  let hi := fld m (A.TM_CBS_HICREDIT n c) 0 24
  let s : Shaper := { slope := bits new 0 24, hi := hi, refill := bits new 25 1, credit := 0 }
  updSch m n fun x => { x with shapers := if bit new 24 then sput x.shapers c s.restart else sdel x.shapers c }

/-- A write of `TM_PURSE_CFG` (R290-R294). -/
def purseWrite (m : Chip) (n new : Nat) : Chip :=
  let m := updCopies m (fun x => x.port == n && x.begun) fun x => { x with owedP := false }
  let p : Purse := { rate := bits new 0 24, burst := fld m (A.TM_PURSE_BURST n) 0 24, refill := bits new 25 1, tokens := 0 }
  updSch m n fun x => { x with purse := if bit new 24 then some p.restart else none }

/-- What a write to a TM register does beside storing its fields. -/
def tmEffect (m : Chip) (now a old new data : Nat) : Chip :=
  match schPage a with
  | some (n, off) =>
    if off = 0x00 then strictChange m n old new
    else if off = 0x04 then purseWrite m n new
    else if 0x20 ≤ off && off < 0xA0 && off % 16 = 4 then cbsWrite m n ((off - 0x20) / 16) new
    else m
  | none =>
    match portCmd a with
    | some n =>
      let m := clrR m a 1
      if bit data 0 then
        match tmPort m n with
        | .hold _ => flushPort m now n
        | _ => m
      else m
    | none => m

end Sys2Proof.Machine
end

