-- ==== Sys2Proof/Machine/Time.lean ====
section
/-! DEFINITION. Commands of TIME and GATE (08) that happen by themselves, and the checks and effects of writes to their registers. -/

namespace Sys2Proof.Machine

/-! ### TIME -/

/-- A running slew has brought the working offset to 0 (R305). -/
def slewDone (m : Chip) (now : Nat) : Chip :=
  if m.time.slewing && wOff m now == 0 then
    setIrq (updTime m fun t => { t with w := 0, wAt := now, slewing := false }) .time 4
  else m

/-- The number of the first base-cycle boundary that working time has not reached (R310). -/
def bcycAfter (m : Chip) (tm : Int) : Nat :=
  let d := tm - bcycBase m * nsU
  let l := (bcycLen m : Int) * nsU
  if d < 0 || l = 0 then 0 else (d / l + 1).toNat

/-- Capture LT and the three times (R300), in whole ns. -/
def timeSnap (m : Chip) (now : Nat) : Chip :=
  updTime m fun t => { t with
    snapLt := now, snap := [workNs m now, ((domain m 0).at now / nsU).toNat, ((domain m 1).at now / nsU).toNat] }

/-- Why a write to a TIME register is refused beyond its field ranges (R300, R311). -/
def timeCheck (m : Chip) (a old new : Nat) : Nat :=
  if a = A.TIME_CFG then (if (bit new 0 && !bit old 1) || (bit old 0 && !bit new 1) then 4 else 0)
  else if a = A.TIME_BCYC_CFG then (if bit old 31 && bits new 0 24 ≠ bits old 0 24 then 6 else 0)
  else if a = A.TIME_BCYC_BASE_NS || a = A.TIME_BCYC_BASE_SEC_LO || a = A.TIME_BCYC_BASE_SEC_HI then
    (if flag m A.TIME_BCYC_CFG 31 then 6 else 0)
  else 0

/-- What a write to a TIME register does beside storing its fields. -/
def timeEffect (m : Chip) (now a old new data : Nat) : Chip :=
  if a = A.TIME_CFG then workingChange (wrN (syncW (wrN m a old) now) a new) now (bits old 0 1)
  else if a = A.TIME_SLEW then wrN (syncW (wrN m a old) now) a new
  else if a = A.TIME_HOLD then
    (if m.time.holdover && !unsteered m now then setHoldover m now false else m)
  else if a = A.TIME_CMD then (let m := rstR m a; if bit data 0 then timeSnap m now else m)
  else if a = A.TIME_Dd_RATE 0 then rateWrite m now 0
  else if a = A.TIME_Dd_RATE 1 then rateWrite m now 1
  else if a = A.TIME_Dd_ADJ_CMD 0 then (let m := rstR m a; if bit data 0 then offsetCommand m now 0 else m)
  else if a = A.TIME_Dd_ADJ_CMD 1 then (let m := rstR m a; if bit data 0 then offsetCommand m now 1 else m)
  else if a = A.TIME_BCYC_CFG then
    (if bit new 31 && !bit old 31 then
      let k := bcycAfter m (workU m now)
      updTime m fun t => { t with bnext := k, braised := false }
    else m)
  else if a = A.TIME_TXTS_POP then (if bit data 0 then updTime m fun t => { t with txts := t.txts.drop 1 } else m)
  else m

/-! ### GATE -/

/-- Page of a front port, and offset in it. -/
def gatePage (a : Nat) : Option (Nat × Nat) :=
  if 0x40710000 ≤ a && a < 0x40711400 then some ((a - 0x40710000) / 0x100, (a - 0x40710000) % 0x100) else none

/-- Port whose admin list an address belongs to. -/
def adminPort (a : Nat) : Option Nat :=
  if 0x40720000 ≤ a && a < 0x40748000 then some ((a - 0x40720000) / 0x2000) else none

/-- Why a write to a GATE register is refused beyond its field ranges (R318, R326). -/
def gateCheck (m : Chip) (a data : Nat) : Nat :=
  match adminPort a with
  | some n => if (gateOf m n).pending.isSome then 4 else 0
  | none =>
    match gatePage a with
    | some (n, off) =>
      if off = 0x00 then (if bit data 1 && (gateOf m n).pending.isSome then 4 else 0)
      else if 0x04 ≤ off && off ≤ 0x18 then (if (gateOf m n).pending.isSome then 4 else 0)
      else if off = 0x50 then (if bit data 0 && 16 ≤ n then 5 else 0)
      else 0
    | none => 0

/-- What a write to a GATE register does beside storing its fields (R317, R318, R321, R335, R342). A swap request with an invalid list changes
nothing. -/
def gateEffect (m : Chip) (now a old new data : Nat) : Chip :=
  match adminPort a with
  | some n => trimAbort m n now
  | none =>
    match gatePage a with
    | some (n, off) =>
      if off = 0x00 then
        if bit data 1 && !adminValid m n then
          setEvt (refuse (wrN m a old) .gate a 3) (A.GATE_EVENT n) (A.GATE_EVENT_EN n) 1 .gate n
        else
          let m := clrR (trimAbort m n now) a 6
          let m := if bit data 2 then swapCancel m n now else m
          let m := if bit data 1 then swapRequest m n now else m
          if bit old 0 && !bit new 0 then nextCycle (orR m a 1) now (.gateOff n) else m
      else if off = 0x4C then wrN (trimAbort (wrN m a old) n now) a new
      else
        let m := trimAbort m n now
        if off = 0x50 && !preActive m n then updGate m n fun g => { g with hold := false } else m
    | none =>
      if 0x407A0000 ≤ a && a < 0x407A4000 then
        let r := (a - 0x407A0000) / 16
        bump (rcvyReset m r) (A.rc_resets r) 1
      else m

/-- An entry with operation `op` comes into force `adv` ns after now, within the present FCLK cycle (R330). -/
def holdDue (m : Chip) (n now op adv : Nat) : Bool :=
  let tm := workU m now
  (timeline m n tm).any fun p => p.2.op == op && p.1 - adv * nsU ≤ tm && tm < p.1 - adv * nsU + 2 * slotU

/-- Classes of a port that are preemptable now. -/
def preMask (m : Chip) (n : Nat) : Nat := (List.range 8).foldl (fun a c => if preemptable m n c then a + 2 ^ c else a) 0

/-- A port transmits nothing: the gap after the last byte is no part of a transmission (R332). -/
def egressIdle (m : Chip) (n now : Nat) : Bool :=
  !(m.tm.copies.any fun c => c.port == n && c.st == .sending) && (schOf m n).gapTill ≤ now + wireLt (speedOf m n) 12

/-! ### Commands -/

/-- LT counts of `GATE_PRE_CFG.verify_time`. -/
def verifyLt (m : Chip) (n : Nat) : Nat := fld m (A.GATE_PRE_CFG n) 8 8 * ms

end Sys2Proof.Machine
end

