-- ==== Sys2Proof/Machine/Tables.lean ====
section
/-! DEFINITION. The table interface of PRS (04) and the connection-tracking interface (05), and the checks and effects of writes to
the PRS registers. How long a command runs is not stated: it commits a free number of cycles after it was accepted (log entry 12). -/

namespace Sys2Proof.Machine

/-! ### Tables by number -/

/-- Entries of a table, and bits of an entry. -/
def tblCount (k : Nat) : Nat := [4096, 65536, 4096, 2048, 1024, 4096, 1024, 4096, 64].getD k 0

def tblBits (k : Nat) : Nat := [256, 256, 768, 128, 128, 128, 32, 64, 32].getD k 0

/-- A 12-bit destination is not reserved (R134). -/
def destOk (d : Nat) : Bool := d < 0x20 || (0x400 ≤ d && d < 0x800) || d == 0xFFF

/-- An action set is acceptable (R133, R178). -/
def actionOk (a : Nat) : Bool :=
  bits a 0 3 ≤ 4 && bits a 58 2 == 0 && !(bit a 29 && bit a 30 && bits a 31 14 == 16383) && (bits a 0 3 != 3 || destOk (bits a 3 12))

/-- An entry is acceptable for a table (R178). -/
def entryOk (k e : Nat) : Bool :=
  match k with
  | 0 => bits e 17 14 == 0 && bits e 44 3 ≤ 4 && bits e 48 16 == 0 && bits e 88 8 == 0 && bits e 192 64 == 0 && actionOk (bits e 128 64)
  | 1 => bits e 60 3 == 0 && destOk (bits e 64 12) && bits e 88 8 == 0 && bits e 192 64 == 0 && actionOk (bits e 128 64)
  | 2 => bits e 684 20 == 0 && actionOk (bits e 704 64)
  | 3 => bits e 30 2 == 0 && bits e 46 18 == 0 && bits e 64 3 == 0 && bits e 79 17 == 0 && bits e 97 31 == 0
  | 4 => bits e 14 18 == 0 && bits e 97 31 == 0
  | 5 => bits e 30 2 == 0 && bits e 56 8 == 0 && bits e 88 8 == 0 && bits e 121 7 == 0
          && meterCir e ≤ meterPir e && meterCbs e ≤ meterPbs e
  | 8 => bits e 13 19 == 0 && bits e 0 5 < 20 && bits e 6 7 ≤ 64
  | _ => true

/-- The run-time bit of an entry, read only (R162, R163, R171). -/
def stateBit (k : Nat) : Nat := if k = 5 then 120 else 96

/-- Whether the run-time state of an entry is set. -/
def stateOf (m : Chip) (k i : Nat) : Bool :=
  if k = 3 then m.prs.blocked.contains i else if k = 4 then m.prs.latched.contains i else if k = 5 then m.prs.allRed.contains i
  else false

/-- An entry as software reads it. -/
def entryShown (m : Chip) (bank k i : Nat) : Nat :=
  setBits (entryAt ((tablesOf m bank).get k) i) (stateBit k) (if 3 ≤ k && k ≤ 5 then 1 else 0) (b2n (stateOf m k i))

/-- The entry in the data registers at `base`: `n` words. -/
def dataNum (m : Chip) (base n : Nat) : Nat := (List.range n).foldr (fun i a => rdN m (base + 4 * i) + a * 2 ^ 32) 0

/-- Put a number into `n` data registers. -/
def setData (m : Chip) (base n v : Nat) : Chip := (List.range n).foldl (fun m i => wrN m (base + 4 * i) (v / 2 ^ (32 * i))) m

/-- A meter restarts per its entry's `refill` (R170). -/
def meterRestart (m : Chip) (now i e : Nat) : Chip :=
  let full := bits e 28 1 = 0
  updPrs m fun p => { p with
    meters := sput p.meters i { c := if full then meterCbs e * byteU else 0, p := if full then meterPbs e * byteU else 0, last := now } }

/-- Keep the entry that a write replaces for the lookups of heads on their way (R173); what is older than a head's way is let go. -/
def keepPast (m : Chip) (now bank k i : Nat) : Chip :=
  updPrs m fun p => { p with
    past := { lt := now, bank := bank, k := k, i := i, old := entryAt ((tablesOf m bank).get k) i } ::
      p.past.filter fun x => now < x.lt + 64 * cyc,
    soft := p.soft.filter (· != k * 2 ^ 16 + i) }

/-- Write an entry of a bank in the commit cycle `now`; a write to the active bank is a delta for the pair (R750). -/
def writeEntry (m : Chip) (now bank k i e : Nat) : Chip :=
  let e := if 3 ≤ k && k ≤ 5 then setBits e (stateBit k) 1 0 else e
  let m := updTables (keepPast m now bank k i) bank fun t => t.set k (sputD (t.get k) 0 i e)
  if bank ≠ m.cfg.active then m
  else
    let m := if k = 5 then meterRestart m now i e else m
    let key := k * 2 ^ 16 + i
    updPrs m fun p => { p with tblDirty := if p.tblDirty.contains key then p.tblDirty else p.tblDirty ++ [key] }

/-- The way of tables 0 and 1 that holds the key of an entry. -/
def keyFind (t : Tables) (k e : Nat) : Option Nat :=
  if k = 0 then s0Find t.s0 (bits e 0 5) (bits e 5 12) else s1Find t.s1 (bits e 48 12) (bits e 0 48)

/-- The lowest free way of an entry's bucket in tables 0 and 1. -/
def freeWay (t : Tables) (k e : Nat) : Option Nat :=
  if k = 0 then findWay t.s0 (s0Bucket (bits e 0 5) (bits e 5 12)) fun x => !bit x 31
  else findWay t.s1 (s1Bucket (bits e 48 12) (bits e 0 48)) fun x => !bit x 63

/-- An entry made invalid. -/
def invalid (k e : Nat) : Nat := setBits e (if k = 0 then 31 else 63) 1 0

/-- An op applies to a table (R844). -/
def opFits (op k : Nat) : Bool := op ≤ 1 || (op ≤ 4 && k ≤ 1) || (op == 5 && 3 ≤ k && k ≤ 5)

/-- Why a table command is refused before it starts, as `PRS_TBL_STATUS.code` (R844, R175, R178); 0 when it starts. -/
def tblJudge (m : Chip) (k op : Nat) (staged : Bool) : Nat :=
  if 9 ≤ k then 9
  else if !opFits op k then 6
  else if (op ≤ 1 || op = 5) && tblCount k ≤ fld m A.PRS_TBL_INDEX 0 16 then 5
  else if staged && m.cfg.bank.getD (1 - m.cfg.active) .empty = .loading then 4
  else if (op = 1 || op = 2) && !entryOk k (dataNum m (A.PRS_TBL_DATA 0) (tblBits k / 32)) then 8
  else 0

/-- Outcome of a table command that commits in the cycle `now`: the device, its code, and `replaced`. -/
def tblRun (m : Chip) (now k op : Nat) (staged : Bool) : Chip × Nat × Bool :=
  let i := fld m A.PRS_TBL_INDEX 0 16
  let bank := if staged then 1 - m.cfg.active else m.cfg.active
  let e := dataNum m (A.PRS_TBL_DATA 0) (tblBits k / 32)
  let t := tablesOf m bank
  let done := fun (m : Chip) (c : Nat) => (m, c, false)
  if op = 0 then done (setData m (A.PRS_TBL_DATA 0) (tblBits k / 32) (entryShown m bank k i)) 0
  else if op = 1 then done (writeEntry m now bank k i e) 0
  else if op = 2 then
    match keyFind t k e with
    | some j => (setF (writeEntry m now bank k j e) A.PRS_TBL_INDEX 0 16 j, 0, true)
    | none =>
      match freeWay t k e with
      | some j => done (setF (writeEntry m now bank k j e) A.PRS_TBL_INDEX 0 16 j) 0
      | none => done m 1
  else if op = 3 then
    match keyFind t k e with
    | some j => done (writeEntry m now bank k j (invalid k (entryAt (t.get k) j))) 0
    | none => done m 2
  else if op = 4 then
    match keyFind t k e with
    | some j => done (setF (setData m (A.PRS_TBL_DATA 0) (tblBits k / 32) (entryShown m bank k j)) A.PRS_TBL_INDEX 0 16 j) 0
    | none => done m 2
  else
    let drop := fun (l : List Nat) => l.filter (· != i)
    done (updPrs m fun p => { p with
      blocked := if k = 3 then drop p.blocked else p.blocked, latched := if k = 4 then drop p.latched else p.latched,
      allRed := if k = 5 then drop p.allRed else p.allRed }) 0

/-- A command ends: `go` and `busy` clear, the status takes its code. -/
def tblEnd (m : Chip) (code : Nat) (replaced : Bool) : Chip :=
  setIrq (wrN (clrR m A.PRS_TBL_CMD (2 ^ 31)) A.PRS_TBL_STATUS (code * 16 + b2n replaced * 256)) .prs 2

/-- LT from which the effect of a command accepted now is seen: its commit cycle, whose place the manual does not state, has passed. -/
def commitAt (m : Chip) (now : Nat) : Nat := now + cyc * (2 + freeVal m)

/-- A write to `PRS_TBL_CMD` with `go` (R844, R177): a command that is not refused runs. -/
def tblCommand (m : Chip) (now : Nat) (flt : Bool) : Chip :=
  let w := rdN m A.PRS_TBL_CMD
  match tblJudge m (bits w 0 4) (bits w 4 3) (bit w 7) with
  | 0 => useFree (later (wrN m A.PRS_TBL_STATUS 1) (commitAt m now) (.table now flt))
  | c => tblEnd m c false

/-- A command that reads a double-symbol error ends with ECC and changes nothing else. -/
def endEcc (m0 m : Chip) (status : Nat) : Chip :=
  let m := { m with prs := m0.prs }
  let keep := fun (a : Nat) (m : Chip) => wr m a (rd m0 a)
  let m := (List.range 24).foldl (fun m i => keep (A.PRS_TBL_DATA i) m) m
  let m := (List.range 16).foldl (fun m i => keep (A.PRS_CT_DATA i) m) m
  wrN (keep A.PRS_TBL_INDEX (keep A.PRS_CT_INDEX m)) status (7 * 16)

/-- The table command accepted at LT `acc` has committed in the cycle before `now`: a bank swap since then ends it with SWAPPED (R173,
R174); `flt` tells that it read a double-symbol error. -/
def tblCommit (m : Chip) (now acc : Nat) (flt : Bool) : Chip :=
  if acc < m.cfg.actLt then tblEnd m 3 false
  else
    let w := rdN m A.PRS_TBL_CMD
    let (m1, code, rep) := tblRun m (now - cyc) (bits w 0 4) (bits w 4 3) (bit w 7)
    if flt then setIrq (clrR (endEcc m m1 A.PRS_TBL_STATUS) A.PRS_TBL_CMD (2 ^ 31)) .prs 2 else tblEnd m1 code rep

/-! ### Connection tracking by software (R212, R214, R846) -/

/-- A connection-tracking entry from its 64 bytes (R214). -/
def ctOfNum (v : Nat) : CtEnt :=
  let b := leBytes 64 v
  let v6 := byteAt b 37 % 2 = 1
  let n := if v6 then 16 else 4
  { oSrc := be b 0 n, oDst := be b 16 n, oSport := be b 32 2, oDport := be b 34 2, proto := byteAt b 36, v6 := v6,
    finByResp := bit (byteAt b 37) 1, state := byteAt b 38, oZone := byteAt b 39 % 16, rZone := byteAt b 39 / 16,
    lastSeen := leNat (slice b 40 8), created := leNat (slice b 48 8), fOrig := leNat (slice b 56 4), fResp := leNat (slice b 60 4) }

/-- The 64 bytes of a connection-tracking entry (R214). -/
def numOfCt (e : CtEnt) : Nat :=
  let a := fun x => if e.v6 then beBytes 16 x else beBytes 4 x ++ List.replicate 12 0
  leNat (a e.oSrc ++ a e.oDst ++ beBytes 2 e.oSport ++ beBytes 2 e.oDport ++
    packLe [(1, e.proto), (1, b2n e.v6 + 2 * b2n e.finByResp), (1, e.state), (1, e.oZone + 16 * e.rZone), (8, e.lastSeen),
      (8, e.created), (4, e.fOrig), (4, e.fResp)])

/-- An entry that INSERT accepts (R846). -/
def ctEntryOk (v : Nat) : Bool :=
  let b := leBytes 64 v
  let e := ctOfNum v
  let fits := if 1 ≤ e.state && e.state ≤ 6 then e.proto == 6 else if e.state = 8 || e.state = 9 then e.proto == 17
    else if e.state = 10 || e.state = 11 then e.proto != 6 && e.proto != 17 else false
  fits && byteAt b 37 < 4 && (e.v6 || (leNat (slice b 4 12) == 0 && leNat (slice b 20 12) == 0))
    && (e.proto == 6 || e.proto == 17 || (e.oSport == 0 && e.oDport == 0))

/-- The key of an entry. -/
def CtEnt.key (e : CtEnt) : CtKey := { v6 := e.v6, src := e.oSrc, dst := e.oDst, sport := e.oSport, dport := e.oDport, proto := e.proto }

/-- The way that INSERT takes in a bucket: the one that holds the key, a free one, or one whose entry has lapsed, which is counted as
expired (R199). -/
def ctPlace (m : Chip) (now : Nat) (e : CtEnt) : Option (Chip × Nat × Bool) :=
  let bucket := ctCrc e.key % 16384
  match ctFind m bucket fun x => (ctOrig x e.key e.oZone e.rZone || ctReply x e.key e.oZone e.rZone) && ctLive m x now with
  | some (j, _) => some (m, j, true)
  | none =>
    ((List.range 4).find? fun w => match sget m.prs.ct (bucket * 4 + w) with
      | none => true
      | some x => !ctLive m x now).map fun w =>
        let j := bucket * 4 + w
        (if (sget m.prs.ct j).isSome then ctExpire m j else m, j, false)

/-- Outcome of a connection-tracking command that commits in the cycle `now`. A lapsed entry is a free way (R199). -/
def ctRun (m : Chip) (now op : Nat) : Chip × Nat × Bool :=
  let i := fld m A.PRS_CT_INDEX 0 16
  if op = 0 then
    let v := match sget m.prs.ct i with
      | some e => if ctLive m e now then numOfCt e else 0
      | none => 0
    (setData m (A.PRS_CT_DATA 0) 16 v, 0, false)
  else if op = 1 then
    let e := ctOfNum (dataNum m (A.PRS_CT_DATA 0) 16)
    let e := if e.lastSeen = 0 then { e with lastSeen := now } else e
    match ctPlace m now e with
    | some (m, j, rep) => (setF (ctSet m j (some e)) A.PRS_CT_INDEX 0 16 j, 0, rep)
    | none => (m, 1, false)
  else if op = 2 then
    match sget m.prs.ct i with
    | some e => (if ctLive m e now then ctSet m i none else ctExpire m i, 0, false)
    | none => (m, 0, false)
  else ((m.prs.ct.map (·.1)).foldl (fun m j => ctSet m j none) m, 0, false)

/-- A connection-tracking command ends. -/
def ctEnd (m : Chip) (code : Nat) (replaced : Bool) : Chip :=
  fwEvt (wrN (clrR m A.PRS_CT_CMD (2 ^ 31)) A.PRS_CT_STATUS (code * 16 + b2n replaced * 256)) 6

/-- A write to `PRS_CT_CMD` with `go` (R213, R846): an INSERT of a bad entry is refused, every other command runs. -/
def ctCommand (m : Chip) (now : Nat) (flt : Bool) : Chip :=
  if fld m A.PRS_CT_CMD 0 2 = 1 && !ctEntryOk (dataNum m (A.PRS_CT_DATA 0) 16) then ctEnd m 8 false
  else useFree (later (wrN m A.PRS_CT_STATUS 1) (commitAt m now) (.track flt))

/-- The connection-tracking command that runs has committed in the cycle before `now` (R212). -/
def ctCommit (m : Chip) (now : Nat) (flt : Bool) : Chip :=
  let (m1, code, rep) := ctRun m (now - cyc) (fld m A.PRS_CT_CMD 0 2)
  if flt then fwEvt (clrR (endEcc m m1 A.PRS_CT_STATUS) A.PRS_CT_CMD (2 ^ 31)) 6 else ctEnd m1 code rep

/-! ### Writes to the PRS registers -/

/-- Zones that only ports 20-22 may hold are written elsewhere (R187). -/
def zoneZero (a data : Nat) : Bool :=
  let zero := fun k => bits data (4 * k) 4 == 0
  if a = A.PRS_FW_PORT_ZONE 2 then (zero 0 || zero 1 || zero 2 || zero 3 || zero 7)
  else if a = A.PRS_FW_PORT_ZONE 0 || a = A.PRS_FW_PORT_ZONE 1 || a = A.PRS_FW_CAN_ZONE 0 || a = A.PRS_FW_CAN_ZONE 1
      || a = A.PRS_FW_LIN_ZONE then (List.range 8).any zero
  else false

/-- A command or data register of the table interface, and of the connection-tracking interface. -/
def tblReg (a : Nat) : Bool := a = A.PRS_TBL_CMD || (A.PRS_TBL_DATA 0 ≤ a && a ≤ A.PRS_TBL_DATA 23)

def ctReg (a : Nat) : Bool := a = A.PRS_CT_CMD || (A.PRS_CT_DATA 0 ≤ a && a ≤ A.PRS_CT_DATA 15)

/-- Why a write to a PRS register is refused beyond its field ranges (R101, R177, R187, R213). -/
def prsCheck (m : Chip) (a new data : Nat) : Nat :=
  if tblReg a && flag m A.PRS_TBL_STATUS 0 then 5
  else if ctReg a && flag m A.PRS_CT_STATUS 0 then 5
  else if a = A.PRS_LANE_CFG then (if bits new 0 7 ≤ bits new 8 7 then 3 else 0)
  else if zoneZero a data then 4
  else 0

/-- What a write to a PRS register does beside storing its fields. -/
def prsEffect (m : Chip) (now a old new data : Nat) (flt : Bool) : Chip :=
  if a = A.PRS_TBL_CMD then (if bit data 31 then tblCommand m now flt else m)
  else if a = A.PRS_CT_CMD then (if bit data 31 then ctCommand m now flt else m)
  else if a = A.PRS_LANE_CFG then (if bits old 0 15 ≠ bits new 0 15 then laneCfgChanged m now else m)
  else if a = A.PRS_LANE_CTRL then (let m := rstR m a; if bit data 0 then returnAll m else m)
  else m

end Sys2Proof.Machine
end

