-- ==== Sys2Proof/Machine/Hif.lean ====
section
/-! DEFINITION. Rings and their indices, completions, the memories that DMA reaches, frame TX gathering, frame RX delivery and
memory copies (13). -/

namespace Sys2Proof.Machine

/-! ### Memories -/

/-- Offset of system SRAM in the internal address space, and its size (R798). -/
def sramBase : Nat := 0x08000000

def sramSize : Nat := 0x800000

/-- Change HIF and DMA state. -/
def updDma (m : Chip) (f : DmaSt → DmaSt) : Chip := { m with dma := f m.dma }

/-- Write bytes from an offset of a sparse memory whose unlisted bytes read 0. -/
def memPut (l : List Host.Cell) (o : Nat) : List Byte → List Host.Cell
  | [] => l
  | b :: r => memPut (sputD l 0 o b) (o + 1) r

/-- The canonical form of a sparse memory: addresses strictly rising, and no byte listed that an unlisted address reads as, which is 0
(log entry 13). -/
def Memory.wf (l : List Host.Cell) : Bool := rising l && l.all fun p => p.2 != 0

/-- A byte of system SRAM. -/
def sramByte (m : Chip) (o : Nat) : Byte := (sget m.dma.sram o).getD 0

/-- The 32 bytes of a Ledger record (R638). -/
def recBytes (seq : Nat) (r : Rec) : List Byte :=
  leBytes 8 r.lt ++ leBytes 8 seq ++ leBytes 2 r.src ++ leBytes 2 r.typ ++ r.pay

/-- A byte of the ledger SRAM at an offset (R653). -/
def ledgerByte (m : Chip) (o : Nat) : Byte :=
  let merge := flag m A.LEDGER_CFG 0
  let (l, k) := if merge && 0x40000 ≤ o then (m.ledger.par, o - 0x40000) else (m.ledger.loc, o)
  match sget l (k / 32) with
  | some (seq, r) => (recBytes seq r).getD (k % 32) 0
  | none => 0

/-- Whether `[a, b)` lies in system SRAM, and in the ledger SRAM. -/
def inSram (a b : Int) : Bool := (sramBase : Int) ≤ a && b ≤ (sramBase + sramSize : Nat)

def inLedger (a b : Int) : Bool := 0x20000000 ≤ a && b ≤ 0x20080000

/-- A byte of the internal space as DMA reads it. -/
def innerByte (m : Chip) (a : Nat) : Byte :=
  if sramBase ≤ a && a < sramBase + sramSize then sramByte m (a - sramBase)
  else if 0x20000000 ≤ a && a < 0x20080000 then ledgerByte m (a - 0x20000000)
  else 0

/-- Bytes of the internal space. -/
def innerRead (m : Chip) (a n : Nat) : List Byte := (List.range n).map fun i => innerByte m (a + i)

/-- Write to a memory: space 0 and 1 are host memory of H0 and H1, 2 is internal, which is system SRAM. -/
def memStore (m : Chip) (space a : Nat) (l : List Byte) : Chip :=
  if l.isEmpty then m
  else if space = 2 then
    if sramBase ≤ a && a + l.length ≤ sramBase + sramSize then
      updDma m fun d => { d with sram := memPut d.sram (a - sramBase) l }
    else m
  else say m (.memWrite space a l)

/-- Bytes of a memory exist: internal memory that DMA reaches is system SRAM, and for reads the Ledger SRAM. -/
def memHolds (space a n : Nat) (read : Bool) : Bool := space ≠ 2 || inSram a (a + n) || (read && inLedger a (a + n))

/-! ### Functions and links (R551, R589) -/

/-- The link that carries a function: 0 A, 1 B (R551). -/
def linkOf (m : Chip) (fn : Nat) : Nat := if flag m A.HIF_LINK_STATUS 0 then fn else 0

/-- The link of a function is up. -/
def fnUp (m : Chip) (fn : Nat) : Bool := flag m A.HIF_LINK_STATUS (1 + linkOf m fn)

/-- Bus Master Enable of a function. -/
def bmeOf (m : Chip) (fn : Nat) : Bool := m.dma.bme.getD fn false

/-- Memory of a space can be reached (R605). -/
def spaceOk (m : Chip) (space : Nat) : Bool := 2 ≤ space || (fnUp m space && bmeOf m space)

/-- Entry of `HIF_RXMAP` for a class of port 20 + `p`. -/
def rxMap (m : Chip) (p tc : Nat) : Nat :=
  fld m (if tc < 4 then A.HIF_RXMAP_LO p else A.HIF_RXMAP_HI p) (tc % 4 * 8) 8

/-- Some class of port 20 + `p` has a ring. -/
def rxMapped (m : Chip) (p : Nat) : Bool := (List.range 8).any fun tc => bit (rxMap m p tc) 7

/-- What makes port 20 + `p` UP (R589). -/
def hostUp (m : Chip) (p : Nat) : Bool := rxMapped m p && (if p < 2 then fnUp m p && bmeOf m p else domOn m 13)

/-- Bring the state of ports 20-22 in TM up to date (R253, R589). -/
def hostPorts (m : Chip) (now : Nat) : Chip :=
  [0, 1, 2].foldl (fun m p =>
    let up := tmPort m (20 + p) == .up
    if hostUp m p && !up then tmPortUp m (20 + p)
    else if !hostUp m p && up then tmPortDown m now (20 + p)
    else m) m

/-! ### Rings (R560-R564) -/

def ringOf (m : Chip) (r : Nat) : RingSt := m.dma.rings.getD r {}

def updRing (m : Chip) (r : Nat) (f : RingSt → RingSt) : Chip := updDma m fun d => { d with rings := lset d.rings r f }

def ringEn (m : Chip) (r : Nat) : Bool := flag m (A.HIF_RING_CFG r) 0

def ringType (m : Chip) (r : Nat) : Nat := fld m (A.HIF_RING_CFG r) 1 3

def ringOwner (m : Chip) (r : Nat) : Nat := fld m (A.HIF_RING_CFG r) 4 2

def ringPri (m : Chip) (r : Nat) : Nat := fld m (A.HIF_RING_CFG r) 10 2

def ringCpl (m : Chip) (r : Nat) : Nat := fld m (A.HIF_RING_CFG r) 12 6

/-- Entries of a ring (R561). -/
def ringSize (m : Chip) (r : Nat) : Nat := 2 ^ (4 + fld m (A.HIF_RING_CFG r) 6 4)

/-- The memory that holds a ring (R561). -/
def ringSpace (m : Chip) (r : Nat) : Nat := min 2 (ringOwner m r)

/-- Distance of two indices of a ring (R563). -/
def idxDist (m : Chip) (r a b : Nat) : Nat := (b + 2 * ringSize m r - a) % (2 * ringSize m r)

/-- Entries between head and tail: posted descriptors, or records not yet passed. -/
def ringFill (m : Chip) (r : Nat) : Nat := idxDist m r (ringOf m r).head (ringOf m r).tail

/-- The index the device advances (R563). -/
def devIdx (m : Chip) (r : Nat) : Nat := if ringType m r = 5 then (ringOf m r).tail else (ringOf m r).head

/-- Address of the slot that an index names. -/
def slotAddr (m : Chip) (r i : Nat) : Nat := rd64 m (A.HIF_RING_BASE_LO r) + i % ringSize m r * 32

/-- Advance the head past `k` descriptors (R565). -/
def passHead (m : Chip) (r k : Nat) : Chip := updRing m r fun x => { x with head := (x.head + k) % (2 * ringSize m r) }

/-- Enabled, not stopped and without an error that stopped it. -/
def ringRuns (m : Chip) (r : Nat) : Bool := ringEn m r && !(ringOf m r).stopped

/-- Set a ring's `err` (R564, R586, R600, R605): the first code stays; a RING_ERROR record is written. -/
def ringErr (m : Chip) (now r code : Nat) : Chip :=
  if (ringOf m r).err ≠ 0 then m
  else
    let m := updRing m r fun x => { x with err := code }
    setIrq (emit m 0x0A01 (srcId 10 r) now [(1, code), (1, ringOwner m r), (2, devIdx m r)]) .hif 0

/-- Stop a ring with an error. -/
def ringFail (m : Chip) (now r code : Nat) : Chip :=
  updRing (ringErr m now r code) r fun x => { x with stopped := true, stopping := false, gather := none }

/-- A record or write-back of a completion ring failed (R600): it stops with every work ring that names it. -/
def cplFail (m : Chip) (now c : Nat) : Chip :=
  (List.range 64).foldl (fun m r =>
    if r ≠ c && ringEn m r && ringType m r ≠ 5 && ringCpl m r = c then ringFail m now r 3 else m) (ringFail m now c 3)

/-- Count and record a failed read or write (R599, R610). -/
def dmaErr (m : Chip) (now : Nat) (write : Bool) (status r idx addr : Nat) : Chip :=
  let m := bump m (if write then A.write_err else A.read_err) 1
  let m := setIrq m .dma (if status = 0x14 then 2 else if write then 1 else 0)
  emit m 0x0B01 (srcId 11 (b2n write)) now [(1, status), (1, r), (2, idx), (8, addr)]

/-! ### Completions (R568-R573) -/

/-- The completion ring of a work ring has a slot that is free and not reserved (R569). -/
def cplFree (m : Chip) (r : Nat) : Bool :=
  let c := ringCpl m r
  ringRuns m c && ringType m c == 5 && (ringOf m c).err == 0 && ringFill m c + (ringOf m c).resv < ringSize m c

/-- Reserve a completion slot for a work ring. -/
def cplReserve (m : Chip) (r : Nat) : Chip := updRing m (ringCpl m r) fun x => { x with resv := x.resv + 1 }

/-- Release a reservation. -/
def cplRelease (m : Chip) (r : Nat) : Chip := updRing m (ringCpl m r) fun x => { x with resv := x.resv - 1 }

/-- A completion ring raises its vector or its interrupt line (R572, R573). -/
def cplRaise (m : Chip) (c : Nat) : Chip :=
  let m := updRing m c fun x => { x with unsig := 0, line := true }
  if ringOwner m c < 2 then sendMsix m (ringOwner m c) (fld m (A.HIF_RING_CFG c) 18 6)
  else say m (.pin "RING_LINE" c)

/-- Post a record for work ring `r` (R570-R572): the record, the tail, the write-back, the interrupt. A record that cannot be issued
stops the completion ring (R599, R600). -/
def postCpl (m : Chip) (now r : Nat) (rec_ : List Byte) (irq : Bool) : Chip :=
  let c := ringCpl m r
  let sp := ringSpace m c
  if !spaceOk m sp || !memHolds sp (slotAddr m c (ringOf m c).tail) 32 false then
    cplFail (dmaErr (cplRelease m r) now true 0x08 r (devIdx m c) (slotAddr m c (ringOf m c).tail)) now c
  else
    let m := memStore (say m (.completion c rec_)) sp (slotAddr m c (ringOf m c).tail) rec_
    let m := updRing m c fun x => { x with
      tail := (x.tail + 1) % (2 * ringSize m c), resv := x.resv - 1, unsig := x.unsig + 1, first := if x.unsig = 0 then now else x.first }
    let wb := rd64 m (A.HIF_RING_WB_LO c)
    let m := if wb = 0 then m else memStore m sp wb (leBytes 8 (ringOf m c).tail)
    let m := bump m (A.ring_completed r) 1
    let n := fld m (A.HIF_RING_COAL c) 16 16
    if wb ≠ 0 && !memHolds sp wb 8 false then cplFail (dmaErr m now true 0x08 r (devIdx m c) wb) now c
    else if irq || flag m (A.HIF_RING_CFG c) 24 || (n ≠ 0 && n ≤ (ringOf m c).unsig) then cplRaise m c else m

/-! ### Work in progress -/

/-- Transfers of one unit of work that are in flight (R597). -/
def DmaWork.transfers (copy : Bool) (w : DmaWork) : Nat := if w.ended.isSome then 0 else if copy then w.xfers.length else 1

/-- Cipher jobs of the rings of `p` that hold a core: each counts as one transfer of its ring (R598, log entry 195). -/
def jobXfers (m : Chip) (p : Nat → Bool) : Nat := (m.mint.jobs.filter fun j => j.core.isSome && p j.ring).length

/-- Transfers in flight of a ring. -/
def ringXfers (m : Chip) (r : Nat) : Nat :=
  m.dma.work.foldl (fun a w => if w.ring = r then a + w.transfers (ringType m r == 7) else a) 0 + jobXfers m (· == r)

/-- Transfers in flight. -/
def inFlight (m : Chip) : Nat :=
  m.dma.work.foldl (fun a w => a + w.transfers (ringType m w.ring == 7)) 0 + jobXfers m fun _ => true

/-- Staging in use, in 64-byte units. -/
def stagingUsed (m : Chip) : Nat :=
  m.dma.work.foldl (fun a w =>
    if w.ended.isSome then a
    else a + cdiv w.bytes.length 64 + w.xfers.foldl (fun b x => b + cdiv x.length 64) 0) 0

/-- Free staging in 64-byte units. -/
def stagingFree (m : Chip) : Nat := 4096 - stagingUsed m

def maxInflight (m : Chip) : Nat := fld m A.DMA_CFG 0 6

def ringMax (m : Chip) : Nat := fld m A.DMA_CFG 8 4

def chunkLen (m : Chip) : Nat := 2 ^ fld m A.DMA_CFG 12 4

/-- Change the first unit of work of a ring that satisfies a condition. -/
def updWork (m : Chip) (r : Nat) (p : DmaWork → Bool) (f : DmaWork → DmaWork) : Chip :=
  updDma m fun d =>
    match d.work.findIdx? fun w => w.ring == r && p w with
    | some i => { d with work := lset d.work i f }
    | none => d

/-- The oldest unit of work of a ring that has not ended and satisfies a condition. -/
def openWork (m : Chip) (r : Nat) (p : DmaWork → Bool) : Option DmaWork :=
  m.dma.work.find? fun w => w.ring == r && w.ended.isNone && p w

/-- The record of a frame TX completion (R584). -/
def txRec (m : Chip) (now r : Nat) (w : DmaWork) (status stamp : Nat) : List Byte :=
  let e := byteAt w.desc 10
  let eop := bit e 1
  packLe [(1, status), (1, b2n (status = 0 && bit e 2)), (1, sat 8 w.n), (1, 0), (2, (w.idx + w.n - 1) % (2 * ringSize m r)),
    (1, r), (1, 20 + min 2 (ringOwner m r)), (4, if eop then leNat (slice w.desc 12 4) else 0), (2, w.bytes.length), (2, 0),
    (8, stamp), (8, now)]

/-- The record of a frame RX completion (R588). -/
def rxRec (now : Nat) (w : DmaWork) (status : Nat) : List Byte := leBytes 1 status ++ w.head.drop 1 ++ leBytes 8 now

/-- `bytes_done` of a memory copy (R595): whole lines written. -/
def copyDone (w : DmaWork) : Nat :=
  let len := leNat (slice w.desc 16 2) + 1
  w.done / len * len

/-- The record of a memory copy completion (R596). -/
def copyRec (now r : Nat) (w : DmaWork) (status : Nat) : List Byte :=
  packLe [(1, status), (3, 0), (2, w.idx), (1, r), (1, 0), (8, copyDone w), (8, 0), (8, now)]

/-- Post the completions of work that has ended, in ring order (R571). -/
def postReady (now r : Nat) : Nat → Chip → Chip
  | 0, m => m
  | k + 1, m =>
    match m.dma.work.find? fun w => w.ring == r with
    | none => m
    | some w =>
      match w.ended with
      | none => m
      | some st =>
        let m := updDma m fun d => { d with work := d.work.eraseP fun x => x.ring == r }
        let m := if st = 0x10 then bump m (A.partial_discard r) 1 else m
        let rec_ :=
          if ringType m r = 0 then txRec m now r w st (if st = 0 then now else 0)
          else if ringType m r = 1 then rxRec now w st
          else copyRec now r w st
        postReady now r k (postCpl m now r rec_ w.irq)

/-- The status of a request with a failure `a` that was detected first and then `b`, 0 for none: ECC_UNCORRECTABLE before ABORT_PWR, and
otherwise the failure detected first (R20). -/
def firstStatus (a b : Nat) : Nat :=
  if a = 0x14 || b = 0x14 then 0x14 else if a = 0x05 || b = 0x05 then 0x05 else if a = 0 then b else a

/-- End the work of a ring that satisfies a condition with a status, and post what may be posted. -/
def endWork (m : Chip) (now r st : Nat) (p : DmaWork → Bool) : Chip :=
  postReady now r (m.dma.work.length + 1) (updWork m r p fun w => { w with ended := some (firstStatus w.status st) })

/-! ### Frame TX (R578-R584) -/

/-- A frame TX descriptor with reserved bits set, or with a length that no descriptor has. -/
def txBad (d : List Byte) : Bool :=
  let n := leNat (slice d 8 2)
  d.length != 32 || byteAt d 10 / 16 != 0 || byteAt d 11 != 0 || leNat (slice d 16 16) != 0 || n = 0 || 9212 < n

/-- The frame being gathered on a ring. -/
def gathering (m : Chip) (r : Nat) : Option DmaWork := openWork m r (·.gathering)

/-- A transfer of a ring may start (R597, R598). -/
def xferFree (m : Chip) (r : Nat) : Bool := inFlight m < maxInflight m && ringXfers m r < ringMax m

/-- A new unit of work may start: a completion slot, a transfer slot and staging (R569, R598). -/
def mayStart (m : Chip) (r need : Nat) : Bool := cplFree m r && xferFree m r && need ≤ stagingFree m * 64

/-- Start a unit of work: it reserves its completion slot. -/
def startWork (m : Chip) (r : Nat) (w : DmaWork) : Chip := updDma (cplReserve m r) fun d => { d with work := d.work ++ [w] }

/-- The gather timer runs while every posted descriptor of an open frame has started (R582). -/
def gatherTimer (m : Chip) (now r : Nat) : Chip :=
  if (gathering m r).isSome && ringFill m r = 0 then
    updRing m r fun x => { x with gather := some (now + fld m A.HIF_TX_CFG 0 20 * us) }
  else updRing m r fun x => { x with gather := none }

/-- Add a descriptor and its data to the open frame; the frame ends at `eop` (R580, R581). -/
def gatherInto (m : Chip) (now r : Nat) (d data : List Byte) : Chip :=
  let eop := bit (byteAt d 10) 1
  let grow := fun (w : DmaWork) =>
    let b := w.bytes ++ slice data 0 (leNat (slice d 8 2))
    let bad := w.bad || 16 < w.n + 1 || 9212 < b.length
    { w with n := w.n + 1, desc := d, bytes := if bad then w.bytes else b, bad := bad, gathering := !eop, irq := eop && bit (byteAt d 10) 3 }
  let m := updWork m r (·.gathering) grow
  match (m.dma.work.filter fun w => w.ring == r && w.ended.isNone && !w.gathering).getLast? with
  | some w => if eop && (w.bad || w.bytes.length < 14) then endWork m now r 0x12 (fun x => x.idx == w.idx && x.ended.isNone) else m
  | none => m

/-- Take the next posted descriptor of a frame TX ring (R581); the answer tells whether the engine goes on with the ring. -/
def txStep (m : Chip) (now r : Nat) (d data : List Byte) : Chip × Bool :=
  let i := (ringOf m r).head
  let sop := bit (byteAt d 10) 0 || (ringOf m r).fresh
  let opened := (gathering m r).isSome
  let eop := bit (byteAt d 10) 1
  let w : DmaWork := { ring := r, idx := i, n := 0, desc := d, gathering := true }
  if !txBad d && !sop && opened then (gatherInto (passHead m r 1) now r d data, !eop)
  else
    let m1 := if !txBad d && sop && opened then
        let m1 := updWork m r (·.gathering) fun x => { x with gathering := false, ended := some 0x10 }
        postReady now r (m1.dma.work.length + 1) m1
      else m
    if !mayStart m1 r 9216 then (m, false)
    else
      let m := passHead m1 r 1
      if txBad d || !sop then
        let m := startWork m r { w with gathering := false, n := 1, ended := some 0x12, irq := bit (byteAt d 10) 3 }
        (postReady now r (m.dma.work.length + 1) m, true)
      else
        let m := updRing (startWork m r w) r fun x => { x with fresh := false }
        (gatherInto m now r d data, !eop)

/-- The data of a frame's latest descriptor lies outside the memory there is: its read fails, and the frame with it (R584, R599). -/
def txUnread (m : Chip) (now r i : Nat) (d : List Byte) : Chip :=
  if memHolds (ringSpace m r) (leNat (slice d 0 8)) (leNat (slice d 8 2)) true then m
  else
    match (m.dma.work.filter fun w => w.ring == r && w.ended.isNone).getLast? with
    | some w =>
      if (w.idx + w.n) % (2 * ringSize m r) ≠ i then m
      else
        let m := dmaErr m now false 0x07 r w.idx (leNat (slice d 0 8))
        let m := if w.gathering then updRing m r fun x => { x with gather := none, fresh := true } else m
        endWork (updWork m r (fun x => x.idx == w.idx && x.ended.isNone) fun x => { x with gathering := false }) now r 0x07
          (fun x => x.idx == w.idx && x.ended.isNone)
    | none => m

/-- Gather from a frame TX ring: `reads` holds each descriptor read and its data. -/
def txGather (now r : Nat) : List (List Byte × List Byte) → Chip → Chip
  | [], m => m
  | (d, data) :: rest, m =>
    if ringFill m r = 0 || ((ringOf m r).stopping && (gathering m r).isNone) then m
    else
      let m := bump (bump m A.transfers (b2n (gathering m r).isNone)) A.read_bytes data.length
      let (m, more) := txStep m now r d data
      let m := txUnread m now r (ringOf m r).head d
      if more then txGather now r rest m else m

/-- The descriptors that a ring of internal memory holds from its head on, with the data they name. -/
def innerReads (m : Chip) (r : Nat) : List (List Byte × List Byte) :=
  (List.range (ringFill m r)).map fun k =>
    let d := innerRead m (slotAddr m r ((ringOf m r).head + k)) 32
    (d, if ringType m r = 0 then innerRead m (leNat (slice d 0 8)) (leNat (slice d 8 2)) else [])

/-- What the read engine reads of a ring: its owner's memory is internal or a host's. -/
def readsOf (m : Chip) (r : Nat) (reads : List (List Byte × List Byte)) : List (List Byte × List Byte) :=
  if 2 ≤ ringOwner m r then innerReads m r else reads

/-- Hand the oldest gathered frame of a ring to the parser (R578, R580, R583). -/
def txHandover (m : Chip) (now r : Nat) : Chip :=
  match openWork m r (fun w => !w.gathering) with
  | none => m
  | some w =>
    let b := w.bytes ++ List.replicate (60 - w.bytes.length) 0
    let m := hostFrame m now (20 + ringSpace m r) b (bit (byteAt w.desc 10) 2)
    endWork m now r 0 (fun x => x.idx == w.idx && x.ended.isNone)

/-- Discard the open frame of a ring (R582, R677). -/
def gatherDiscard (m : Chip) (now r : Nat) : Chip :=
  match gathering m r with
  | none => m
  | some w =>
    let m := emit m 0x0A02 (srcId 10 r) now [(2, w.n), (2, w.idx), (4, w.bytes.length)]
    let m := updRing (setIrq m .hif 6) r fun x => { x with gather := none, fresh := true }
    let m := updWork m r (·.gathering) fun x => { x with gathering := false, ended := some 0x10 }
    postReady now r (m.dma.work.length + 1) m

/-! ### Frame RX (R585-R588) -/

/-- `buf_len` of a frame RX descriptor, or `none` where it breaks R586. -/
def rxBuf (d : List Byte) : Option (Nat × Nat) :=
  let n := leNat (slice d 8 2)
  if d.length = 32 && n % 64 = 0 && 256 ≤ n && n ≤ 16384 && leNat (slice d 10 22) = 0 then some (leNat (slice d 0 8), n) else none

/-- The buffers that hold `len` bytes, from the posted descriptors in ring order (R587): `none` with too few, and whether a
descriptor was bad. -/
def rxTake : List (List Byte) → Nat → List (Nat × Nat) → Option (List (Nat × Nat)) × Bool
  | _, 0, acc => (some acc, false)
  | [], _, _ => (none, false)
  | d :: r, len, acc =>
    match rxBuf d with
    | none => (none, true)
    | some b => rxTake r (len - b.2) (acc ++ [(b.1, min len b.2)])

/-- Count a copy that a ring could not take (R587). -/
def rxDrop (m : Chip) (r ctr : Nat) : Chip := updRing (bump m ctr 1) r fun x => { x with drops := sat 16 (x.drops + 1) }

/-- Deliver a copy granted to port 20 + `p` (R585, R587): `descs` are the descriptors read from the ring's head on. -/
def rxDeliver (m : Chip) (now : Nat) (f : Frame) (c : Copy) (bytes : List Byte) (descs : List (List Byte)) : Chip × Bool :=
  let p := c.port - 20
  let e := rxMap m p c.tc
  if !bit e 7 then (bump m (A.HIF_CNT_NOMAP p) 1, false)
  else
    let r := e % 64
    let ok := ringRuns m r && !(ringOf m r).stopping && ringType m r = 1 && spaceOk m (ringSpace m r)
    let ds := if 2 ≤ ringOwner m r then (innerReads m r).map (·.1) else descs.take (ringFill m r)
    match rxTake (if ok then ds else []) bytes.length [] with
    | (none, bad) =>
      let m := rxDrop m r (A.no_desc r)
      (if bad then ringFail m now r 5 else m, false)
    | (some bufs, _) =>
      if !cplFree m r then (rxDrop m r (A.no_cpl r), false)
      else
        let i := (ringOf m r).head
        let head := packLe [(1, 0), (1, b2n f.trap.isSome), (1, bufs.length), (1, f.trap.getD 0 % 16 + c.tc * 16), (2, i),
          (1, r), (1, c.inPort), (2, bytes.length), (2, (ringOf m r).drops), (2, bits f.md 32 16),
          (2, mdStream f.md + b2n (mdStreamValid f.md) * 32768), (8, c.stamp)]
        let m := updRing (passHead m r bufs.length) r fun x => { x with drops := 0 }
        let m := bump m A.transfers 1
        (startWork m r { ring := r, idx := i, n := bufs.length, desc := [], bytes := bytes, bufs := bufs, head := head, fid := f.id }, true)

/-- Write a frame into its buffers in order. -/
def rxWrite (m : Chip) (space : Nat) : List (Nat × Nat) → List Byte → Chip
  | [], _ => m
  | (a, n) :: r, l => rxWrite (memStore m space a (l.take n)) space r (l.drop n)

/-- The data of the oldest delivery of a ring has been written (R588), unless a buffer lies outside the memory there is. -/
def rxComplete (m : Chip) (now r : Nat) : Chip :=
  match openWork m r (fun _ => true) with
  | none => m
  | some w =>
    match w.bufs.find? fun b => !memHolds (ringSpace m r) b.1 b.2 false with
    | some b => endWork (dmaErr m now true 0x08 r w.idx b.1) now r 0x08 (fun x => x.idx == w.idx && x.ended.isNone)
    | none =>
    let m := bump (rxWrite m (ringSpace m r) w.bufs w.bytes) A.write_bytes w.bytes.length
    endWork m now r w.status (fun x => x.idx == w.idx && x.ended.isNone)

/-! ### Memory copy (R590-R596) -/

/-- A memory copy descriptor. -/
structure CopyDesc where
  src : Nat
  dst : Nat
  len : Nat
  lines : Nat
  sstr : Int
  dstr : Int
  flags : Nat
deriving DecidableEq, Repr

def copyDesc (d : List Byte) : CopyDesc :=
  { src := leNat (slice d 0 8), dst := leNat (slice d 8 8), len := leNat (slice d 16 2) + 1, lines := leNat (slice d 18 2),
    sstr := sgn (leNat (slice d 20 4)) 32, dstr := sgn (leNat (slice d 24 4)) 32, flags := leNat (slice d 28 4) }

def CopyDesc.swap (c : CopyDesc) : Nat := bits c.flags 0 3

def CopyDesc.srcSpace (c : CopyDesc) : Nat := bits c.flags 8 2

def CopyDesc.dstSpace (c : CopyDesc) : Nat := bits c.flags 10 2

def CopyDesc.total (c : CopyDesc) : Nat := c.len * c.lines

/-- Order in which a unit's input bytes leave (R593). -/
def swapOrder : Nat → List Nat
  | 1 => [1, 0]
  | 2 => [3, 2, 1, 0]
  | 3 => [7, 6, 5, 4, 3, 2, 1, 0]
  | 4 => [2, 3, 0, 1]
  | 5 => [4, 5, 6, 7, 0, 1, 2, 3]
  | _ => [0]

/-- First and last address of a side, from the extents of its first and last lines (R592). -/
def sideLo (a : Nat) (c : CopyDesc) (str : Int) : Int := min (a : Int) ((a : Int) + str * (c.lines - 1 : Nat))

def sideHi (a : Nat) (c : CopyDesc) (str : Int) : Int := max (a : Int) ((a : Int) + str * (c.lines - 1 : Nat)) + c.len

/-- One side of a copy lies where it may (R592). -/
def sideOk (space : Nat) (source : Bool) (lo hi : Int) : Bool :=
  if space < 2 then 0 ≤ lo && hi ≤ 2 ^ 64
  else space = 2 && (inSram lo hi || (source && inLedger lo hi))

/-- The checks of R592 pass. -/
def copyOk (owner : Nat) (c : CopyDesc) : Bool :=
  c.swap < 6 && bits c.flags 5 3 = 0 && bits c.flags 12 20 = 0 && c.lines ≠ 0
    && !(owner = 0 && (c.srcSpace = 1 || c.dstSpace = 1)) && !(owner = 1 && (c.srcSpace = 0 || c.dstSpace = 0))
    && c.len % (swapOrder c.swap).length = 0
    && sideOk c.srcSpace true (sideLo c.src c c.sstr) (sideHi c.src c c.sstr)
    && sideOk c.dstSpace false (sideLo c.dst c c.dstr) (sideHi c.dst c c.dstr)

/-- Address of destination or source byte position `p` of a copy. -/
def sideAddr (a : Nat) (c : CopyDesc) (str : Int) (p : Nat) : Nat := ((a : Int) + str * (p / c.len : Nat)).toNat + p % c.len

/-- Destination bytes of the transfer that starts at position `p` (R597): whole lines, or part of one longer line. -/
def xferLen (chunk : Nat) (c : CopyDesc) (p : Nat) : Nat :=
  if c.len ≤ chunk then min (chunk / c.len * c.len) (c.total - p) else min chunk (c.len - p % c.len)

/-- The bytes of a transfer in destination order (R593): units never straddle a transfer. -/
def swapBytes (mode : Nat) (l : List Byte) : List Byte :=
  let o := swapOrder mode
  (List.range l.length).map fun i => l.getD (i / o.length * o.length + o.getD (i % o.length) 0) 0

/-- Write `l` at destination position `p`, line by line; `k` bounds the lines. -/
def copyPut (c : CopyDesc) : Nat → Chip → Nat → List Byte → Chip
  | 0, m, _, _ => m
  | k + 1, m, p, l =>
    if l.isEmpty then m
    else
      let n := min l.length (c.len - p % c.len)
      copyPut c k (memStore m c.dstSpace (sideAddr c.dst c c.dstr p) (l.take n)) (p + n) (l.drop n)

/-- The last write of the oldest transfer of a ring's copy has been issued. -/
def copyWrite (m : Chip) (r : Nat) : Chip :=
  match openWork m r (fun w => !w.xfers.isEmpty) with
  | none => m
  | some w =>
    let l := w.xfers.headD []
    let c := copyDesc w.desc
    let m := bump (copyPut c (l.length + 1) m w.done l) A.write_bytes l.length
    updWork m r (fun x => x.idx == w.idx && x.ended.isNone) fun x => { x with done := x.done + l.length, xfers := x.xfers.drop 1 }

/-- All transfers of a ring's copies that have been read are written. -/
def copyDrain (r : Nat) : Nat → Chip → Chip
  | 0, m => m
  | k + 1, m => copyDrain r k (copyWrite m r)

/-- The copy of a ring whose transfers have not all started. -/
def copyOpen (m : Chip) (r : Nat) : Option DmaWork :=
  openWork m r fun w => w.pos < (copyDesc w.desc).total

/-- Start the next transfer of a copy: its source is read and swapped into staging. -/
def copyXfer (m : Chip) (r : Nat) (w : DmaWork) (data : List Byte) : Chip :=
  let c := copyDesc w.desc
  let n := xferLen (chunkLen m) c w.pos
  let src := (List.range n).map fun i =>
    if c.srcSpace = 2 then innerByte m (sideAddr c.src c c.sstr (w.pos + i)) else data.getD i 0
  let m := bump (bump m A.transfers 1) A.read_bytes n
  updWork m r (fun x => x.idx == w.idx && x.ended.isNone) fun x =>
    { x with pos := x.pos + n, xfers := x.xfers ++ [swapBytes c.swap src] }

/-- Start a ring's next memory copy, or the next transfer of the one in progress. -/
def copyStart (m : Chip) (now r : Nat) (d data : List Byte) : Chip :=
  match copyOpen m r with
  | some w => copyXfer m r w data
  | none =>
    let c := copyDesc d
    let i := (ringOf m r).head
    if ringFill m r = 0 || (ringOf m r).stopping || (bit c.flags 4 && (openWork m r fun _ => true).isSome) || !cplFree m r
        || !spaceOk m c.srcSpace || !spaceOk m c.dstSpace then m
    else
      let w : DmaWork := { ring := r, idx := i, n := 1, desc := d, irq := bit c.flags 3 }
      let m := passHead m r 1
      if !copyOk (ringOwner m r) c then
        let m := startWork m r { w with ended := some 0x12 }
        postReady now r (m.dma.work.length + 1) m
      else copyXfer (startWork m r w) r w data

/-! ### The Ledger's export ring (R657-R661) -/

/-- Change the Ledger. -/
def updLedger (m : Chip) (f : LedgerSt → LedgerSt) : Chip := { m with ledger := f m.ledger }

/-- The export ring. -/
def expRing (m : Chip) : Nat := fld m A.LEDGER_EXPORT_CFG 0 6

/-- A descriptor of the export ring may start (R659). -/
def exportReady (m : Chip) (r : Nat) : Bool :=
  r == expRing m && m.ledger.exp.isNone && !m.ledger.unexp.isEmpty && 0 < ringFill m r && !(ringOf m r).stopping && cplFree m r

/-- Slots of a space of the ledger SRAM (R653). -/
def ledgerSlots (m : Chip) : Nat := if flag m A.LEDGER_CFG 0 then 8192 else 16384

/-- The completion record of an export buffer (R660). -/
def exportRec (m : Chip) (e : ExportBuf) (status : Nat) : List Byte :=
  packLe [(1, status), (1, b2n e.partner), (2, 0), (2, e.desc), (2, 0), (4, e.count), (4, sat 32 m.ledger.ovrSince),
    (8, e.firstSeq), (8, e.lastSeq)]

/-- Post the completion of the export buffer with a status; records of a buffer that failed become unexported again (R661). -/
def exportEnd (m : Chip) (now status : Nat) : Chip :=
  match m.ledger.exp with
  | none => m
  | some e =>
    let m1 := postCpl m now (expRing m) (exportRec m e status) false
    updLedger m1 fun l =>
      { l with exp := none, ovrSince := 0, unexp := if status = 0 then l.unexp else e.seqs ++ l.unexp }

/-- The record that goes out for an unexported one; one that cannot be read goes out as LEDGER_CORRUPT (R656). -/
def exportBytes (m : Chip) (now : Nat) (bad : Bool) (x : Bool × Nat) : Chip × List Byte :=
  let slot := x.2 % 2 ^ 63 % ledgerSlots m
  if bad then
    let seq := m.ledger.nextSeq.getD now
    let m := updLedger m fun l => { l with nextSeq := some (seq + 1) }
    (report (setIrq m .ledger 3) now 0 0x00F0 1 slot, recBytes seq ⟨0x0003, 0, now, payload [(8, x.2)]⟩)
  else
    match sget (if x.1 then m.ledger.par else m.ledger.loc) slot with
    | some p => (m, recBytes p.1 p.2)
    | none => (m, recBytes x.2 ⟨0, 0, 0, payload []⟩)

/-- Write unexported records to the buffer until either is used up; `ecc` counts down to a record that cannot be read. -/
def exportFill (now : Nat) : Nat → Option Nat → Chip → Chip
  | 0, _, m => m
  | k + 1, ecc, m =>
    match m.ledger.exp, m.ledger.unexp with
    | some e, x :: rest =>
      if e.cap ≤ e.count then m
      else
        let (m, b) := exportBytes m now (ecc == some 0) x
        let m := bump (memStore m (ringSpace m (expRing m)) (e.addr + 32 * e.count) b) A.write_bytes 32
        let e := { e with
          count := e.count + 1, firstLt := if e.count = 0 then now else e.firstLt, partner := e.partner || x.1,
          firstSeq := if !x.1 && e.firstSeq = 0 then x.2 else e.firstSeq, lastSeq := if x.1 then e.lastSeq else x.2,
          seqs := e.seqs ++ [x] }
        exportFill now k (ecc.map (· - 1)) (updLedger m fun l => { l with exp := some e, unexp := rest })
    | _, _ => m

/-- Move what the export buffer has room for. -/
def exportMove (m : Chip) (now : Nat) (ecc : Option Nat) : Chip :=
  if spaceOk m (ringSpace m (expRing m)) then exportFill now m.ledger.unexp.length ecc m else m

/-- Start an export descriptor (R658, R659). -/
def exportStart (m : Chip) (now r : Nat) (d : List Byte) : Chip :=
  if !exportReady m r then m
  else
    let addr := leNat (slice d 0 8)
    let n := leNat (slice d 8 4)
    let e : ExportBuf := ⟨(ringOf m r).head, addr, n, 0, now, false, 0, 0, []⟩
    let m := updLedger (cplReserve (passHead m r 1) r) fun l => { l with exp := some e }
    if d.length = 32 && addr % 32 = 0 && 16 ≤ n && n ≤ 65536 && leNat (slice d 12 20) = 0 then exportMove m now none
    else ringFail (exportEnd m now 0x12) now r 5

/-! ### The read engine (R598) -/

/-- A ring has a descriptor that may start, or a transfer of a started one. -/
def startable (m : Chip) (r : Nat) : Bool :=
  let ty := ringType m r
  let x := ringOf m r
  ringRuns m r && spaceOk m (ringSpace m r) && (m.pwr.mode == .run) &&
  (if ty = 0 then
      (0 < ringFill m r) && ((gathering m r).isSome || (!x.stopping && mayStart m r 9216))
    else if ty = 7 then
      let room := xferFree m r && chunkLen m ≤ stagingFree m * 64
      room && ((copyOpen m r).isSome || (0 < ringFill m r && !x.stopping && cplFree m r))
    else ty == 6 && exportReady m r)

/-- The ring that the read engine serves next: by priority, then in round robin. -/
def nextRing (m : Chip) : Option Nat :=
  [3, 2, 1, 0].findSome? fun p =>
    let last := m.dma.rr.getD p 63
    ((List.range 64).map fun k => (last + 1 + k) % 64).find? fun r => ringPri m r == p && startable m r

/-- Start the next transfer; `reads` is what the reads of a host's memory return: descriptors with their data. -/
def transferStart (m : Chip) (now : Nat) (reads : List (List Byte × List Byte)) : Chip :=
  match nextRing m with
  | none => m
  | some r =>
    let m := updDma m fun d => { d with rr := lset d.rr (ringPri m r) fun _ => r }
    let at_ := slotAddr m r (ringOf m r).head
    if !memHolds (ringSpace m r) at_ 32 false && !(ringType m r = 7 && (copyOpen m r).isSome) then
      ringFail (dmaErr m now false 0x07 r (devIdx m r) at_) now r 2
    else if ringType m r = 0 then gatherTimer (txGather now r (readsOf m r reads) m) now r
    else if ringType m r = 6 then exportStart m now r ((readsOf m r reads).headD ([], [])).1
    else
      let x := (readsOf m r reads).headD ([], [])
      copyStart m now r x.1 (reads.headD ([], [])).2

/-! ### Stops, commands and enables (R601-R604) -/

/-- What a ring has started and not ended. -/
def ringBusy (m : Chip) (r : Nat) : Bool := (m.dma.work.any fun w => w.ring == r) || (m.ledger.exp.isSome && r == expRing m)

/-- The ABORT_STOP record of a posted descriptor `i` that the device has not read (R584, R588, R498, R499, R596, R603, R660): the channel
and tag of a CAN TX record and the element of a CAN RX record are of no frame and free. -/
def withdrawRec (m : Chip) (now r i : Nat) : List Byte :=
  match ringType m r with
  | 0 => txRec m now r { ring := r, idx := i, n := 1, desc := [] } 0x06 0
  | 1 => packLe [(1, 0x06), (1, 0), (1, 1), (1, 0), (2, i), (1, r), (1, 0), (2, 0), (2, (ringOf m r).drops), (2, 0), (2, 0), (8, 0), (8, now)]
  | 2 => packLe [(1, 0x06), (3, 0), (2, i), (1, r), (1, freeVal m), (8, 0), (8, 0), (2, freeVal m / 256), (6, 0)]
  | 3 => packLe [(1, 0x06), (1, 0), (2, i), (28, freeVal m)]
  | 4 => packLe [(1, 0x06), (3, 0), (2, i), (1, r), (1, 0), (8, 0), (8, 0), (8, now)]
  | 6 => exportRec m ⟨i, 0, 0, 0, now, false, 0, 0, []⟩ 0x06
  | _ => copyRec now r { ring := r, idx := i, n := 1, desc := [] } 0x06

/-- Complete posted descriptors of a ring under withdrawal while its completion ring has a slot (R569, R603). -/
def withdrawGo (now r : Nat) : Nat → Chip → Chip
  | 0, m => m
  | k + 1, m =>
    let x := ringOf m r
    if x.withdrawTo.isNone then m
    else if x.withdrawTo = some x.head then updRing m r fun x => { x with withdrawTo := none }
    else if !cplFree m r then m
    else
      let rec_ := withdrawRec m now r x.head
      let m := if ringType m r = 2 || ringType m r = 3 then useFree m else m
      let m := updRing (cplReserve (passHead m r 1) r) r fun x => { x with drops := if ringType m r = 1 then 0 else x.drops }
      let m := if ringType m r = 6 then updLedger m fun l => { l with ovrSince := 0 } else m
      withdrawGo now r k (postCpl m now r rec_ false)

/-- `HIF_RING_CTRL.withdraw` (R603): the posted descriptors up to the present tail complete with ABORT_STOP. A completion ring posts
nothing. -/
def withdraw (m : Chip) (now r : Nat) : Chip :=
  if ringType m r = 5 then m
  else withdrawGo now r (ringFill m r + 1) (updRing m r fun x => { x with withdrawTo := some x.tail })

/-- A completion ring has slots again: the withdrawals that wait for one go on. -/
def withdrawNext (m : Chip) (now c : Nat) : Chip :=
  (List.range 64).foldl (fun m r => if ringType m r ≠ 5 && ringCpl m r = c then withdrawGo now r (ringFill m r + 1) m else m) m

/-- `HIF_RING_CTRL.start` (R603): a ring without an error runs again; one that holds completions has its slots back. -/
def ringResume (m : Chip) (now r : Nat) : Chip :=
  let m := updRing m r fun x => { x with stopped := false, stopping := false, withdrawTo := none }
  if ringType m r = 5 then withdrawNext m now r else m

/-- Ring and offset of a ring register; ring and offset of a doorbell page. -/
def ringPage (a : Nat) : Option (Nat × Nat) :=
  if 0x40210000 ≤ a && a < 0x40211000 then some ((a - 0x40210000) / 0x40, (a - 0x40210000) % 0x40) else none

def dbPage (a : Nat) : Option (Nat × Nat) :=
  if 0x40280000 ≤ a && a < 0x402C0000 then some ((a - 0x40280000) / 0x1000, (a - 0x40280000) % 0x1000) else none

/-- Stopped, or disabled (`HIF_RING_STATUS.stopped`). -/
def ringStopped (m : Chip) (r : Nat) : Bool := !ringEn m r || (ringOf m r).stopped

/-- The agent may write a ring's registers (R562); `open_` tells that nothing has been committed. -/
def ringWriter (m : Chip) (open_ : Bool) (who r : Nat) : Bool := agentOf who == ringOwner m r || (open_ && agentOf who == 2)

/-- A doorbell would take an index beyond the ring (R564). -/
def dbBeyond (m : Chip) (r data : Nat) : Bool :=
  let i := data % (2 * ringSize m r)
  let x := ringOf m r
  ringSize m r < (if ringType m r = 5 then idxDist m r i x.tail else idxDist m r x.head i)

/-- Why a write to a HIF register is refused beyond its field ranges, as in `HIF_ERR_CAPTURE`. -/
def hifCheck (m : Chip) (open_ : Bool) (who a old new data : Nat) : Nat :=
  match ringPage a with
  | some (r, off) =>
    if !ringWriter m open_ who r then 5
    else if off = 0 then
      (if bit old 0 && bits old 6 4 ≠ bits new 6 4 then 4
       else if bit old 0 && !bit new 0 && !(ringOf m r).stopped then 4 else 0)
    else if off = 4 || off = 8 then (if ringEn m r then 4 else 0)
    else if off = 0x18 then (if bits data 1 3 ≠ 0 && !ringStopped m r then 4 else 0)
    else 0
  | none =>
    match dbPage a with
    | some (r, _) => if !ringWriter m open_ who r then 5 else if dbBeyond m r data then 6 else 0
    | none => 0

/-- A doorbell write that was refused for its index (R564). -/
def dbRefused (m : Chip) (now r : Nat) : Chip := ringErr m now r 1

/-- A doorbell write (R563, R582): one in the cycle of the gather timer's expiry, or later, is too late for the open frame. -/
def doorbell (m : Chip) (now r data : Nat) : Chip :=
  let i := data % (2 * ringSize m r)
  let m := if (ringOf m r).gather.any (· ≤ now) then gatherDiscard m now r else m
  if ringType m r = 5 then withdrawNext (updRing m r fun x => { x with head := i, line := x.line && i != x.tail }) now r
  else updRing m r fun x => { x with
    tail := i, gather := x.gather.map fun _ => now + fld m A.HIF_TX_CFG 0 20 * us }

/-- A ring as its enable finds it: both indices 0 (R563). -/
def ringReset (x : RingSt) : RingSt := { drops := x.drops, resv := x.resv }

/-- What a write to a HIF register does beside storing its fields. -/
def hifEffect (m : Chip) (now a old new data : Nat) : Chip :=
  match ringPage a with
  | some (r, off) =>
    if off = 0 then
      if bit new 0 && !bit old 0 then updRing m r ringReset
      else if bit old 0 && !bit new 0 then updRing m r fun x => { x with stopped := false, stopping := false, gather := none, withdrawTo := none }
      else m
    else if off = 0x18 then
      let x := ringOf m r
      let m := rstR m a
      let m := if bit data 0 && ringEn m r && !x.stopped then later m (now + 2 * cyc) (.ringStop r) else m
      let m := if bit data 3 then updRing m r fun x => { x with err := 0 } else m
      let m := if bit data 1 && (ringOf m r).err = 0 then ringResume m now r else m
      if bit data 2 then later m (now + 2 * cyc) (.ringWithdraw r) else m
    else m
  | none =>
    match dbPage a with
    | some (r, off) => if off = 0 then doorbell m now r data else m
    | none => if 0x40200100 ≤ a && a < 0x40200118 then hostPorts m now else m

/-- The word of `HIF_RING_STATUS` (13). -/
def ringStatus (m : Chip) (r : Nat) : Nat :=
  let x := ringOf m r
  b2n (ringRuns m r) + 2 * b2n (ringStopped m r) + 4 * b2n (gathering m r).isSome + 8 * b2n (x.err ≠ 0) + 16 * x.err
    + 256 * min 8 (ringXfers m r)

/-- The word of `DMA_STATUS` (13). -/
def dmaStatus (m : Chip) : Nat := inFlight m + stagingFree m * 256

/-! ### Failures (R599, R600) -/

/-- A data read or write of a frame or a copy fails (R595, R599): of the ring's oldest work that satisfies `p`. -/
def workFail (m : Chip) (now r : Nat) (p : DmaWork → Bool) (write : Bool) (status addr : Nat) : Chip :=
  match openWork m r p with
  | none => m
  | some w =>
    let m := dmaErr m now write status r w.idx addr
    let m := if ringType m r = 7 && !write then copyDrain r w.xfers.length m else m
    let m := if w.gathering then updRing m r fun x => { x with gather := none, fresh := true } else m
    endWork m now r status (fun x => x.idx == w.idx && x.ended.isNone)

/-- Take away a ring's started work without completions (R600, R605, R606). -/
def dropWork (m : Chip) (r : Nat) : Chip :=
  let k := (m.dma.work.filter fun w => w.ring == r).length
  let m := updDma m fun d => { d with work := d.work.filter fun w => w.ring != r }
  updRing m (ringCpl m r) fun x => { x with resv := x.resv - k }

/-- Whether a unit of work moves data to or from a host's memory. -/
def usesSpace (m : Chip) (sp : Nat) (w : DmaWork) : Bool :=
  if ringType m w.ring = 7 then (copyDesc w.desc).srcSpace = sp || (copyDesc w.desc).dstSpace = sp else ringSpace m w.ring = sp

/-- Copies of other owners that need a host's memory fail (R605). -/
def failForeign (m : Chip) (now sp : Nat) : Chip :=
  (m.dma.work.filter fun w => w.ended.isNone && usesSpace m sp w && ringSpace m w.ring ≠ sp).foldl (fun m w =>
    let c := copyDesc w.desc
    let wr := c.dstSpace = sp
    workFail m now w.ring (fun x => x.idx == w.idx) wr (if wr then 0x08 else 0x07) (if wr then sideAddr c.dst c c.dstr w.done else sideAddr c.src c c.sstr w.done)) m

end Sys2Proof.Machine
end

