-- ==== Sys2Proof/Machine/Ledger.lean ====
section
/-! DEFINITION. The Ledger (15): acceptance of records, sequence numbers, time anchors, overwriting, merging and export. -/

namespace Sys2Proof.Machine

/-- Unexported records of a space. -/
def unexported (m : Chip) (partner : Bool) : Nat := (m.ledger.unexp.filter fun x => x.1 == partner).length

/-- Write a record into its slot; a space that is full of unexported records loses its oldest (R648, R653-R655). -/
def ledgerPut (m : Chip) (partner : Bool) (seq : Nat) (r : Rec) : Chip :=
  let en := flag m A.LEDGER_EXPORT_CFG 6
  let slot := seq % 2 ^ 63 % ledgerSlots m
  let m :=
    if en && ledgerSlots m ≤ unexported m partner then
      setIrq (bump (updLedger m fun l => { l with
        unexp := l.unexp.eraseP (fun x => x.1 == partner), lostO := l.lostO + 1, ovrSince := l.ovrSince + 1 }) A.overwritten 1) .ledger 2
    else m
  updLedger m fun l => { l with
    loc := if partner then l.loc else sput l.loc slot (seq, r), par := if partner then sput l.par slot (seq, r) else l.par,
    unexp := if en then l.unexp ++ [(partner, seq)] else l.unexp }

/-- Keep an event record for the partner (R662). -/
def mergeKeep (m : Chip) (seq : Nat) (r : Rec) : Chip :=
  if !flag m A.LEDGER_CFG 0 || !flag m A.PAIR_CFG 0 then m
  else if m.ledger.cycleRecs.length < 4096 then updLedger m fun l => { l with cycleRecs := l.cycleRecs ++ [(seq, r)] }
  else setIrq (bump m A.merge_lost 1) .ledger 4

/-- Accept a record: it takes the next sequence number (R648, R649). -/
def ledgerTake (m : Chip) (now : Nat) (event : Bool) (r : Rec) : Chip :=
  let seq := m.ledger.nextSeq.getD now
  let m := bump (updLedger (ledgerPut m false seq r) fun l => { l with nextSeq := some (seq + 1), taken := some now }) A.records 1
  if event then mergeKeep m seq r else m

/-- LEDGER_START (R649, R650): causes 0 and 1 start a new run at the LT of acceptance. -/
def ledgerStart (m : Chip) (now cause : Nat) : Chip :=
  let m := updLedger m fun l => { l with
    startDue := none, anchors := 0 :: l.anchors, nextSeq := if cause = 2 then l.nextSeq else some now }
  ledgerTake m now true ⟨0x0001, 0, now, payload [(1, cause)]⟩

/-- TIME_ANCHOR (R646). -/
def anchorWrite (m : Chip) (now : Nat) : Chip :=
  let pay := payload [(8, workNs m now), (1, working m), (1, b2n m.time.holdover + 2 * b2n m.time.slewing)]
  ledgerTake (updLedger m fun l => { l with anchors := l.anchors.drop 1, lastAnchor := some now }) now true ⟨0x1103, 0x1103, now, pay⟩

/-- An anchor is due: an event asked for one, or the interval has passed (R646). -/
def anchorIsDue (m : Chip) (now : Nat) : Bool :=
  m.ledger.startDue.isNone && (!m.ledger.anchors.isEmpty ||
    match m.ledger.lastAnchor with
    | some a => a + fld m A.LEDGER_CFG 16 16 * ms ≤ now
    | none => false)

/-- New frame records are discarded to keep the reserve (R655). -/
def frameReserve (m : Chip) : Bool := ledgerSlots m ≤ unexported m false + 64 * fld m A.LEDGER_CFG 8 7

/-- Take the head of the frame FIFO. -/
def frameTake (m : Chip) (now : Nat) (r : Rec) (rest : List Rec) : Chip :=
  let m := updLedger m fun l => { l with frmQ := rest }
  if frameReserve m then frameLost m
  else ledgerTake (updLedger m fun l => { l with lastFrame := some now }) now false r

/-- The Ledger has accepted a record in this cycle. -/
def ledgerFull (m : Chip) (now : Nat) : Bool := m.ledger.taken == some now

/-- What the Ledger accepts in one cycle (R645). -/
def ledgerAccept (m : Chip) (now : Nat) : Chip :=
  if ledgerFull m now then m else
  match m.ledger.startDue with
  | some c => ledgerStart m now c
  | none =>
    if m.ledger.anchors.head? = some 0 || (m.ledger.evtQ.isEmpty && !m.ledger.anchors.isEmpty) then anchorWrite m now
    else
      match m.ledger.evtQ with
      | r :: rest => ledgerTake (updLedger m fun l => { l with evtQ := rest, anchors := l.anchors.map (· - 1) }) now true r
      | [] =>
        match m.ledger.frmQ with
        | [] => m
        | r :: rest =>
          match m.ledger.lastFrame with
          | some f => if f + 8 * cyc ≤ now then frameTake m now r rest else m
          | none => frameTake m now r rest

/-- At a park the Ledger accepts every queued record, and an export buffer in progress ends with ABORT_PWR (R665). -/
def ledgerPark (m : Chip) (now : Nat) : Chip :=
  let m := m.ledger.evtQ.foldl (fun m r => ledgerTake m now true r) m
  let m := updLedger m fun l => { l with evtQ := [] }
  let m := m.ledger.frmQ.foldl (fun m r => if frameReserve m then frameLost m else ledgerTake m now false r) m
  exportEnd (updLedger m fun l => { l with frmQ := [] }) now 0x05

/-- A partner record joins the partner space (R663, R664): `delta` is Δ. -/
def mergeIn (m : Chip) (delta : Int) (x : Nat × Rec) : Chip :=
  bump (ledgerPut m true (x.1 % 2 ^ 63 + 2 ^ 63) { x.2 with lt := ((x.2.lt : Int) - delta).toNat }) A.merged_in 1

/-- What a write to a LEDGER register does beside storing its fields (R646, R654). -/
def ledgerEffect (m : Chip) (now a old new : Nat) : Chip :=
  if a = A.LEDGER_CFG then
    if bits old 16 16 ≠ bits new 16 16 && anchorIsDue m now then
      if ledgerFull m now then updLedger m fun l => { l with anchors := if l.anchors.isEmpty then [0] else l.anchors } else anchorWrite m now
    else m
  else if a = A.LEDGER_EXPORT_CFG && bit old 6 && !bit new 6 then updLedger m fun l => { l with unexp := [] }
  else m

/-- The words of `LEDGER_STATUS`, `LEDGER_NEXT_SEQ` and `LEDGER_EXP_SEQ`. -/
def ledgerStatus (m : Chip) : Nat := min 0x7FFF (unexported m false) + unexported m true * 2 ^ 16

def ledgerNext (m : Chip) : Nat := m.ledger.nextSeq.getD 0

def ledgerExp (m : Chip) : Nat := ((m.ledger.unexp.find? fun x => !x.1).map (·.2)).getD (ledgerNext m)

end Sys2Proof.Machine
end

