-- ==== Sys2Proof/Machine/Grant.lean ====
section
/-! DEFINITION. The grant (R265-R271): what a granted copy does on a front port, at a host port and towards the SGE; preemption and
resumption; buffer errors and the scrubber (R223-R229). -/

namespace Sys2Proof.Machine

/-- This device is a standby on a port: it discards what it grants there (R745, R762). -/
def standbyPort (m : Chip) (n : Nat) : Bool :=
  flag m A.PAIR_CFG 0 && flag m A.PAIR_PORTS n && (!m.pair.active || m.pair.release.isSome)

/-- A copy that a standby sends all the same (R745). -/
def standbySends (m : Chip) (n : Nat) (c : Copy) : Bool :=
  c.inPort = 22 && bit (fld m A.PAIR_CFG 8 8) c.tc && !macsecTx m n

/-- Take a granted copy away without sending it: its charge is released. -/
def discardGrant (m : Chip) (now : Nat) (c : Copy) : Chip := gcFrame (dropCopy m c.fid c.port) now c.fid

/-! ### Double-symbol errors (R224) -/

/-- Deliveries of a frame to ports 20-22 meet its error: to a host port they end with ECC_UNCORRECTABLE, to port 22 they are
discarded. -/
def eccDeliveries (m : Chip) (fid : Nat) : Chip :=
  (m.dma.work.filter fun w => w.fid == fid && w.ended.isNone && ringType m w.ring == 1).foldl (fun m w =>
    let m := bump m (A.ecc_discard (20 + ringSpace m w.ring)) 1
    if ringSpace m w.ring < 2 then updWork m w.ring (fun x => x.idx == w.idx && x.ended.isNone) fun x => { x with status := 0x14 }
    else
      let m := updDma m fun d => { d with work := d.work.eraseP fun x => x.ring == w.ring && x.idx == w.idx && x.ended.isNone }
      cplRelease m w.ring) m

/-- Bank of a cell that holds codeword `w` of it: two codewords to a bank (R221). -/
def wordBank (w : Nat) : Nat := w / 2

/-- A frame is bad from now on (R224): codeword `word` of one of its cells showed a double-symbol error; `how` is 0 for an egress read and 1
for the scrubber. Each affected copy is counted, those that wait for admission too. -/
def eccFrame (m : Chip) (now : Nat) (f : Frame) (cell word how : Nat) : Chip :=
  let cs := m.tm.copies.filter fun c => c.fid == f.id && c.st != .void
  let stomped := stompedOf m now f.id
  let m := (cs.map (·.port) ++ f.waiting.map (·.port)).foldl (fun m p => bump m (A.ecc_discard p) 1) m
  let m := eccDeliveries m f.id
  let m := setIrq (bump m A.TM_CNT_ECC_UNCORR 1) .tm 0
  let m := emit m 0x0301 (srcId 3 f.port) now [(2, cell), (1, how), (1, stomped), (8, f.stamp)]
  let m := report m now (srcId 3 f.port) 0x0301 2 cell
  let m := updTm m fun t => { t with doomed := t.doomed ++ [(cell + 131072 * wordBank word, f.id)] }
  killFrame m now f.id

/-- Single-symbol errors that reads corrected (R223). -/
def eccCorrected (m : Chip) (k : Nat) : Chip := if k = 0 then m else setIrq (bump m A.TM_CNT_ECC_CORR k) .tm 1

/-! ### Grants -/

/-- A granted copy leaves on a front port, with its egress stamp (R61) and, on a protected port, its packet number (R386). The port sends no
frame above its `max_frame` (R52, R55). -/
def grantFront (m : Chip) (now n start : Nat) (f : Frame) (c : Copy) (ecc : Option (Nat × Nat)) : Chip :=
  if standbyPort m n && !standbySends m n c then discardGrant (bump m A.standby_discard 1) now c
  else if fld m (A.MAC_PFRAME n) 0 14 < c.len + (if macsecTx m n then macsecAdds m n else 0) then discardGrant (bump m (A.tx_oversize n) 1) now c
  else
    let (m, sec) := if macsecTx m n then (let (m, x) := takePn m now n; (m, x.map some)) else (m, some none)
    match sec with
    | none => discardGrant m now c
    | some sec =>
      let stamp := corrected (start + wireLt (speedOf m n) 8) (fld m (A.MAC_PTS_CORR n) 16 16)
      let m := updCopies m (fun x => x.fid == c.fid && x.port == n) fun x =>
        { x with st := .sending, grant := now, start := start, stampTx := stamp, counted := countedLen m n c.len, sec := sec,
                 owedS := true, owedP := true }
      match ecc with
      | some x => eccFrame m now f x.1 x.2 0
      | none => m

/-- A granted copy of port 20-22 is delivered to its ring (R585, R587): one whose data shows an error while it is read is on its way (R224). -/
def grantHost (m0 m : Chip) (now : Nat) (f : Frame) (c : Copy) (ecc : Option (Nat × Nat)) (descs : List (List Byte)) : Chip :=
  let m := if bit (rxMap m (c.port - 20) c.tc) 7 then m else { m with cnts := m0.cnts }
  let (m, took) := rxDeliver m now f c (copyBytes f c) descs
  match ecc with
  | none => discardGrant m now c
  | some x => eccFrame (if took then dropCopy m c.fid c.port else m) now f x.1 x.2 0

/-- The scheduler grants a class (R266, R270). -/
def grantClass (m : Chip) (now n start tc : Nat) (ecc : Option (Nat × Nat)) (descs : List (List Byte)) : Chip :=
  match headOf m n tc with
  | none => m
  | some c =>
    match frameOf m c.fid with
    | none => dropCopy m c.fid n
    | some f =>
      let m' := chargeGrant m now n tc (countedLen m n c.len)
      if n < 20 then grantFront m' now n start f c ecc
      else if n < 23 then grantHost m m' now f c ecc descs
      else
        match ecc with
        | some x => eccFrame m' now f x.1 x.2 0
        | none => updCopies m' (fun x => x.fid == c.fid && x.port == n) fun x => { x with st := .sending, grant := now, start := start }

/-- A suspended copy resumes (R271, R329). -/
def resume (m : Chip) (n now start : Nat) : Chip :=
  match m.tm.copies.find? fun c => c.port == n && c.st == .suspended with
  | none => m
  | some c =>
    let k := countedLen m n c.left
    if gateIsOpen m n c.tc now && !(gateOf m n).hold && guardOk m n c.tc start c.left k then
      bump (updCopies m (fun x => x.fid == c.fid && x.port == n) fun x => { x with st := .sending, start := start }) (A.frag_tx n) 1
    else m

/-- Whether a port 20-23 is ready: its owner accepts a frame and nothing is on the way to it (R265, R589). -/
def hostReady (m : Chip) (n : Nat) : Bool :=
  !(m.tm.copies.any fun c => c.port == n && c.st == .sending) &&
  (if n < 23 then inFlight m < maxInflight m && 144 ≤ stagingFree m else m.tm.accepts.getD n true)

/-- Where a port that is ready, or that sends a preemptable copy, stands for a decision: the device with that copy cut at its
earliest point (R328), or `none` when the port makes no decision. -/
def readyPort (m : Chip) (now n start : Nat) : Option Chip :=
  if n < 20 then
    if (gateOf m n).trimmed || now < (gateOf m n).restoreAt then none
    else if portFree m n now start then some ((sendingOn m n).foldl (cutCopy now (now + 16 * cyc)) m)
    else
      match m.tm.copies.find? fun c => c.port == n && c.st == .sending with
      | none => none
      | some c =>
        if !preemptable m n c.tc then none
        else
          match earliestCut m c now with
          | none => none
          | some k =>
            let m := suspend m now c k
            let gap := c.start + wireLt (speedOf m n) (8 + k + 16)
            if start < gap then none else some (updSch m n fun s => { s with gapTill := gap })
  else if hostReady m n then some m else none

/-- One decision of a port's scheduler (R265-R271). -/
def decision (m : Chip) (now n start : Nat) (ecc : Option (Nat × Nat)) (descs : List (List Byte)) : Chip :=
  if tmPort m n ≠ .up || m.pwr.mode ≠ .run || (n < 20 && start < now) then m
  else
    let m := (List.range 8).foldl (fun m tc => ageHead m now n tc) m
    match readyPort m now n start with
    | none => m
    | some m1 =>
      let cut := n < 20 && !portFree m n now start
      let m2 := if cut then m1 else countHeld m1 n now start
      match select m2 n now start with
      | (m3, some tc) => grantClass m3 now n start tc ecc descs
      | (m3, none) => if cut then m else resume m3 n now start

/-! ### The scrubber (R225-R229) -/

/-- A cell is retired when free: at once, or when its frame frees it (R228). -/
def doomCell (m : Chip) (now cell cause bank : Nat) (owner : Option Nat) : Chip :=
  match owner with
  | none => retireCell m now cell cause bank
  | some fid => updTm m fun t => { t with doomed := t.doomed ++ [(cell + 65536 * cause + 131072 * bank, fid)] }

/-- The scrubber finds a single-symbol error in symbol `sym` of codeword `word` (R226, R228): it writes the corrected word back in the next
cycle unless the cell was written in between (`wrote`); the same symbol found in two passes in a row retires the cell. -/
def scrubSingle (m : Chip) (now cell word sym : Nat) (wrote : Bool) (owner : Option Nat) : Chip :=
  let key := word * 36 + sym
  let again := sget m.tm.single cell = some key
  let m := updTm (eccCorrected m 1) fun t =>
    { t with errs := if t.errs.contains (cell, key) then t.errs else t.errs ++ [(cell, key)],
             single := if again then sdel t.single cell else sput t.single cell key }
  let m := if wrote then m else nextCycle m now (.writeBack cell key)
  if again then doomCell m now cell 1 (wordBank word) owner else m

/-- The scrubber reads the next cell (R225): one every 12,207 cycles, within 1,024 cycles of its due time. `found` is 0 for nothing, 1 for a
single-symbol error, 2 for a double-symbol error. In a free cell that is only counted (R227). -/
def scrubCell (m : Chip) (now found word sym : Nat) (wrote : Bool) (owner : Option Nat) : Chip :=
  if now < m.tm.scrubDue then m
  else
    let cell := m.tm.scrub
    let m := updTm m fun t => { t with
      scrub := (cell + 1) % 65536, scrubDue := max t.scrubDue (now - 1024 * cyc) + 12207 * cyc, scrubAt := now,
      single := if found = 1 then t.single else sdel t.single cell }
    let m := if cell = 65535 then wrN m A.TM_SCRUB_PASSES (rdN m A.TM_SCRUB_PASSES + 1) else m
    if found = 0 then m
    else if found = 1 then scrubSingle m now cell word sym wrote owner
    else
      match owner.bind (frameOf m) with
      | some f => eccFrame m now f cell word 1
      | none => setIrq (bump m A.TM_CNT_ECC_UNCORR 1) .tm 0

end Sys2Proof.Machine
end

