-- ==== Sys2Proof/Machine/Vault.lean ====
section
/-! DEFINITION. The Vault (10): key slots and usage policies, measurements and seal lock, blobs, the mailbox commands with their order
of checks (R429), monotonic counters (R432-R437), attestation and XMSS. Cryptographic primitives are those of log entry 4. -/

namespace Sys2Proof.Machine

/-! ### Primitives -/

/-- The bytes of an ASCII string. -/
def ascii (s : String) : List Byte := s.toList.map fun c => BitVec.ofNat 8 c.toNat

/-- A secret that is written into OTP outside the model (R415). -/
def otpSecret (name : String) : List Byte := Config.crypto "OTP" [] [ascii name] 32

def kmac (key input : List Byte) (n : Nat) (custom : String) : List Byte := Config.crypto "KMAC256" key [input, ascii custom] n

def shake (l : List Byte) (n : Nat) : List Byte := Config.crypto "SHAKE256" [] [l] n

def sha3 (l : List Byte) : List Byte := Config.crypto "SHA3-256" [] [l] 32

/-- The device's random source (log entry 3). -/
def random (m : Chip) (n : Nat) : Chip × List Byte := (useFree m, Config.crypto "RANDOM" [] [leBytes 16 (freeVal m)] n)

/-- Change the Vault. -/
def updVault (m : Chip) (f : VaultSt → VaultSt) : Chip := { m with vault := f m.vault }

/-- DUS, or the public LAB value in its place (R445). -/
def dus (m : Chip) : List Byte := if m.life = 3 then otpSecret "LAB" else otpSecret "DUS"

/-- The scrambling of a row (R416): its bytes XOR the mask that FMS gives for it, which also undoes it. -/
def fmsXor (i : Nat) (l : List Byte) : List Byte := xorBytes l (leBytes l.length (Config.fmsMask i))

/-- A row of the OTP array that the owner programs, once programmed (R415): 0 FSS, 1 ORH. -/
def rowOf (m : Chip) (i : Nat) : Option (List Byte) := (sget m.vault.rows (Config.fmsAddr i)).map (fmsXor i)

/-- Program a row: at its scrambled address, XOR its mask (R416). -/
def setRow (m : Chip) (i : Nat) (l : List Byte) : Chip :=
  updVault m fun v => { v with rows := sput v.rows (Config.fmsAddr i) (fmsXor i l) }

def fssKey (m : Chip) : List Byte := (rowOf m 0).getD []

/-- DEVICE_ID, the first 16 bytes of KMAC256(DUS, empty, 128, "VXG8640 ID"), and word `w` of it. -/
def deviceId : List Byte := kmac (otpSecret "DUS") [] 16 "VXG8640 ID"

def deviceIdWord (w : Nat) : Nat := leNat (slice deviceId (4 * w) 4)

/-! ### Slots and policies (R409-R414) -/

def slotOf (m : Chip) (s : Nat) : Option KeySlot := sget m.vault.slots s

def policyOf (m : Chip) (s : Nat) : Nat := ((slotOf m s).map (·.policy)).getD 0

/-- A key as two shares whose XOR it is, of which the first is a random value (R417). -/
def sharesOf (pol : Nat) (key : List Byte) (tag rnd : Nat) : KeySlot :=
  { policy := pol, share0 := leBytes key.length rnd, share1 := xorBytes key (leBytes key.length rnd), tag := tag }

/-- Load a key into a slot, as fresh shares. -/
def setSlot (m : Chip) (s pol : Nat) (key : List Byte) (tag : Nat) : Chip :=
  updVault (useFree m) fun v => { v with slots := sput v.slots s (sharesOf pol key tag (freeVal m)) }

/-- A slot's shares are re-randomised, as at every transfer of its key on the key bus (R417). -/
def reshare (m : Chip) (s : Nat) : Chip :=
  match slotOf m s with
  | some k => setSlot m s k.policy k.key k.tag
  | none => m

def clearSlot (m : Chip) (s : Nat) : Chip := updVault m fun v => { v with slots := sdel v.slots s }

/-- Key bytes of a `klen` code. -/
def klenBytes : Nat → Nat
  | 0 => 16
  | 1 => 24
  | 2 => 32
  | _ => 64

/-- A slot that holds a key forbids the present lifecycle state (R410). -/
def lcForbids (m : Chip) (s : Nat) : Bool := (slotOf m s).isSome && !bit (policyOf m s) (20 + m.life)

/-- A slot that holds a key forbids an agent. -/
def agentForbids (m : Chip) (s a : Nat) : Bool := (slotOf m s).isSome && !bit (policyOf m s) (25 + a)

/-- Addresses of the valid associations' SA words, by port and channel. -/
def saAddrs : List Nat :=
  (List.range 16).flatMap fun p => (List.range 4).flatMap fun a =>
    A.MACSEC_TXSC_SA p a :: (List.range 4).map fun c => A.MACSEC_RXSC_SA p c a

/-- A valid SA names the slot. -/
def slotInUse (m : Chip) (s : Nat) : Bool := saAddrs.any fun a => flag m a 0 && fld m a 8 8 == s

/-! ### Measurements (R419) -/

def bmrOf (m : Chip) (i : Nat) : List Byte := m.vault.bmr.getD i []

def bmrAll (m : Chip) : List Byte := m.vault.bmr.flatten

/-- Extend a BMR with a digest. -/
def extendBmr (m : Chip) (i : Nat) (d : List Byte) : Chip :=
  updVault m fun v => { v with bmr := lset v.bmr i fun b => shake (b ++ d) 32 }

/-- The pair label in the registers. -/
def pairLabel (m : Chip) : List Byte := (List.range 8).flatMap fun w => leBytes 4 (rdN m (A.VAULT_PAIR_LABEL w))

/-- Seal lock (R421, R423): once per cold boot. -/
def sealLock (m : Chip) : Chip :=
  if m.vault.isSealed || m.life = 4 then m
  else
    let cdi := kmac (dus m) (bmrOf m 0 ++ bmrOf m 1 ++ bmrOf m 3) 32 "VXG8640 CDI"
    let pol := if m.life = 3 then 0x1E81E3F5 else 0x1E71E3F5
    let l := pairLabel m
    let m := updVault m fun v => { v with
      isSealed := true, cdi := cdi, sealKek := kmac cdi [] 32 "VXG8640 SEAL KEK", crKey := kmac (fssKey m) [] 32 "VXG8640 CR KEY",
      pairKek := kmac (fssKey m) l 32 "VXG8640 PAIR KEK" }
    let m := setSlot m 0 pol (kmac cdi [] 32 "VXG8640 SEAL ROOT") 0
    if l.all (· == 0) then m else setSlot m 1 pol (kmac (fssKey m) l 32 "VXG8640 PAIR ROOT") 0

/-- Erase every secret (R446); `cause` as in VAULT_ERASE. -/
def eraseAll (m : Chip) (now cause : Nat) : Chip :=
  let n := m.vault.slots.length
  let (m, k) := random m 32
  let m := updVault m fun v => { v with slots := [], cdi := [], sealKek := [], pairKek := [], crKey := [] }
  emit { m with mint := { m.mint with ctxKey := k, epoch := m.mint.epoch + 1, ctxIv := 1 } } 0x0604 (srcId 6 0xA0) now [(1, cause), (1, n)]

/-- A key whose check value fails is erased and reported (R418). -/
def shareFault (m : Chip) (now s : Nat) : Chip :=
  let m := setIrq (clearSlot m s) .vault 6
  let m := emit m 0x0604 (srcId 6 0xA0) now [(1, 3), (1, 1)]
  report m now (srcId 6 s) 0x06F0 3 s

/-! ### Counters (R432-R437) -/

def ctrOf (m : Chip) (c : Nat) : VCtr := m.vault.ctrs.getD c {}

def updCtr (m : Chip) (c : Nat) (f : VCtr → VCtr) : Chip := updVault m fun v => { v with ctrs := lset v.ctrs c f }

/-- Kind of a counter: 0 unused, 1 reserve, 2 advance. -/
def ctrKind (m : Chip) (c : Nat) : Nat := fld m (A.VAULT_CTR_CFG c) 0 2

/-- Lowest-numbered enabled IV generator bound to a counter (R436). -/
def ctrGen (m : Chip) (c : Nat) : Option Nat :=
  (List.range 8).find? fun g => flag m (A.MINT_IVGEN_CFG g) 0 && fld m (A.MINT_IVGEN_CFG g) 1 4 == c

/-- Values that one reservation adds. -/
def ctrBlock (m : Chip) (c : Nat) : Nat :=
  if c = 0 then 64 else if c = 1 then 256 else 2 ^ (match ctrGen m c with | some g => fld m (A.MINT_IVGEN_CFG g) 16 5 | none => 8)

/-- What asking a reserve counter for its next value gives (R432, R435). -/
inductive CtrAns where
  | value (v : Nat)
  /-- The NVM write of a new limit is awaited. -/
  | wait
  | failed
  | exhausted
deriving DecidableEq, Repr

/-- Ask a reserve counter for a value; a value at or above its limit starts the NVM write. -/
def ctrAsk (m : Chip) (c : Nat) : Chip × CtrAns :=
  let k := ctrOf m c
  if 2 ^ 64 - 1 ≤ k.next || (c = 0 && 2 ^ 20 ≤ k.next) then (m, .exhausted)
  else if m.vault.failed = some c then (updVault m fun v => { v with failed := none }, .failed)
  else if k.next < k.limit then (updCtr m c fun x => { x with next := x.next + 1 }, .value k.next)
  else if m.vault.nvm.isNone then (updVault m fun v => { v with nvm := some (c, k.limit + ctrBlock m c) }, .wait)
  else (m, .wait)

/-- The NVM write in progress ends (R432, R434). -/
def nvmDone (m : Chip) (now : Nat) (ok : Bool) : Chip :=
  match m.vault.nvm with
  | none => m
  | some (c, l) =>
    let m := updVault m fun v => { v with nvm := none }
    let m := emit m 0x0602 (srcId 6 (0x80 + c)) now [(1, b2n ok), (3, 0), (8, l)]
    if ok then updCtr m c fun x => { x with limit := l, wear := sat 32 (x.wear + 1) }
    else setIrq (updVault m fun v => { v with failed := some c }) .vault 4

/-! ### Mailbox commands (R428-R431) -/

/-- A mailbox command as its registers hold it. -/
structure VReq where
  mb : Nat
  op : Nat
  slot : Nat
  aux : Nat
  pol : Nat
  addr : Nat
  len : Nat
  sel : Nat
deriving DecidableEq, Repr

def vreq (m : Chip) (a : Nat) : VReq :=
  { mb := a, op := fld m (A.VAULT_MB_CMD a) 0 8, slot := fld m (A.VAULT_MB_CMD a) 8 8, aux := fld m (A.VAULT_MB_CMD a) 16 8,
    pol := rdN m (A.VAULT_MB_POLICY a), addr := rd64 m (A.VAULT_MB_ADDR_LO a), len := fld m (A.VAULT_MB_ARG a) 0 16,
    sel := fld m (A.VAULT_MB_ARG a) 16 1 }

/-- End a mailbox's command with a status (R429); a result that R796 discards sets none. -/
def endOne (m : Chip) (a code : Nat) : Chip :=
  let quiet := a = 2 && m.vault.muted
  let m := updVault m fun v => { v with queue := v.queue.filter (· != a), muted := v.muted && a != 2 }
  let m := clrR m (A.VAULT_MB_CMD a) (2 ^ 31)
  if quiet then clrR m (A.VAULT_MB_STATUS a) 1 else setIrq (wrN m (A.VAULT_MB_STATUS a) (code * 256)) .vault a

/-- Commands with a reserved op that reach their turn end at once (R429). -/
def vaultSkip : Nat → Chip → Chip
  | 0, m => m
  | k + 1, m =>
    match m.vault.queue with
    | a :: _ => if (vreq m a).op = 0 || 0x0F < (vreq m a).op then vaultSkip k (endOne m a 0x12) else m
    | [] => m

def endVault (m : Chip) (a code : Nat) : Chip := vaultSkip 4 (endOne m a code)

/-- A write of `go` (R428): the mailbox waits its turn. -/
def vaultGo (m : Chip) (a : Nat) : Chip :=
  vaultSkip 4 (wrN (updVault m fun v => { v with queue := v.queue ++ [a] }) (A.VAULT_MB_STATUS a) 1)

/-- A KEY_EVENT record. -/
def keyEvent (m : Chip) (now : Nat) (q : VReq) (pol tag : Nat) : Chip :=
  emit m 0x0601 (srcId 6 q.slot) now [(1, q.op), (1, q.mb), (4, pol), (2, tag)]

/-- Write results to the memory of a mailbox. -/
def vaultPut (m : Chip) (q : VReq) (l : List Byte) : Chip :=
  if q.mb = 2 && m.vault.muted then m else memStore m (min 2 q.mb) q.addr l

/-- The bytes that a mailbox's memory gives: a host's are the operand's. -/
def vaultMem (m : Chip) (q : VReq) (host : List Byte) (n : Nat) : List Byte :=
  if q.mb < 2 then slice host 0 n else innerRead m q.addr n

/-- The op takes a target slot, which must be a user slot and empty. -/
def isTarget (op : Nat) : Bool := op = 1 || op = 2 || op = 5 || op = 6

/-- The slots that a command names (R429). -/
def namedSlots (q : VReq) : List Nat :=
  if q.op = 3 || q.op = 4 then [q.slot] else if q.op = 5 then [q.aux] else if q.op = 6 then [q.aux]
  else if q.op = 7 then [q.slot, q.aux] else []

/-- Check 1 of R429. -/
def vBadReq (q : VReq) : Bool :=
  ((isTarget q.op || q.op = 4) && q.slot < 8) || (isTarget q.op && q.op ≠ 2 && bit q.pol 31)
  || (q.op ≠ 1 && q.op ≠ 4 && q.op ≠ 13 && q.op ≠ 15 && q.addr % 8 ≠ 0)
  || (q.op = 5 && (if q.sel = 0 then q.len ≠ 32 else q.len = 0 || 256 < q.len))
  || (q.op = 6 && q.len ≠ klenBytes (bits q.pol 1 2) + 8)
  || (q.op = 8 && 7 < q.aux) || (q.op = 13 && 15 < q.aux) || (q.op = 14 && 1 < q.aux)

/-- Check 2 of R429 (R445). -/
def vLifeBad (m : Chip) (q : VReq) : Bool :=
  m.life = 4 || ((q.op = 14 || q.op = 15) && m.life ≠ 0) || (q.op = 10 && m.life = 3) || (namedSlots q).any (lcForbids m)

/-- A result policy sets a bit of `lc`, `agents` or `exp_blob` that the root lacks (R414). -/
def widens (root pol : Nat) : Bool := Nat.land (clearMask pol root) 0x1FF40000 ≠ 0

/-- Check 3 of R429. -/
def vPolicyBad (m : Chip) (q : VReq) : Bool :=
  (q.op = 14 && q.mb ≠ 2 && q.mb ≠ 0) || (q.op = 15 && q.mb ≠ 2) || (namedSlots q).any (fun s => agentForbids m s q.mb)
  || (q.op = 13 && (ctrKind m q.aux ≠ 2 || q.aux = 2 || (q.aux = 3 && q.mb ≠ 2)))
  || (q.op = 3 && (slotOf m q.slot).isSome && !bit (policyOf m q.slot) 18)
  || (q.op = 7 && (slotOf m q.slot).isSome && !bit (policyOf m q.slot) 19)
  || ((q.op = 6 || q.op = 7) && (slotOf m q.aux).isSome && !bit (policyOf m q.aux) 17)
  || (q.op = 5 && (slotOf m q.aux).isSome && (!bit (policyOf m q.aux) 16 || widens (policyOf m q.aux) q.pol))

/-- Check 4 of R429. -/
def vKeyBad (m : Chip) (q : VReq) : Bool :=
  ((q.op = 2 || q.op = 3 || q.op = 9) && !m.vault.isSealed) || (q.op ≠ 4 && (namedSlots q).any fun s => (slotOf m s).isNone)
  || (q.op = 10 && !m.vault.keygen) || (q.op = 12 && !m.vault.keygen)

/-- Check 5 of R429. -/
def vBusy (m : Chip) (q : VReq) : Bool :=
  (isTarget q.op && (slotOf m q.slot).isSome) || (q.op = 4 && slotInUse m q.slot)

/-- Checks 1-6 of R429: a status, or `none` when the operation runs. -/
def vJudge (m : Chip) (q : VReq) (readOk : Bool) : Option Nat :=
  if vBadReq q then some 0x12
  else if vLifeBad m q then some 0x15
  else if vPolicyBad m q then some 0x11
  else if vKeyBad m q then some 0x03
  else if vBusy m q then some 0x80
  else if !readOk then some 0x07
  else none

/-- A mailbox command whose work runs on an AES core: blobs and AES key wrap. -/
def onCore (op : Nat) : Bool := op = 2 || op = 3 || op = 6 || op = 7

/-- Run the command of a mailbox when it is its turn and its op is `op`; one that needs an AES core waits for the general pool (R32). -/
def vaultRun (m : Chip) (a op : Nat) (readOk : Bool) (f : VReq → Chip) : Chip :=
  let q := vreq m a
  if m.vault.queue.head? ≠ some a || q.op ≠ op || m.pwr.mode ≠ .run || !domOn m 15 then m
  else
    match vJudge m q readOk with
    | some code => endVault m a code
    | none => if onCore q.op && poolEmpty m then m else f q

/-- End a command that writes memory: a failed write is DMA_WRITE_ERR. -/
def endWrite (m : Chip) (q : VReq) (writeOk : Bool) (l : List Byte) : Chip :=
  if writeOk then endVault (vaultPut m q l) q.mb 0 else endVault m q.mb 0x08

/-- Load a key into a slot with its KEY_EVENT. -/
def loadKey (m : Chip) (now : Nat) (q : VReq) (pol : Nat) (key : List Byte) (tag : Nat) : Chip :=
  let pol := Nat.lor pol 1
  endVault (keyEvent (setSlot m q.slot pol key tag) now q pol tag) q.mb 0

/-- The KEK of a blob, and the prefix of its IV (R424, R425). -/
def blobKek (m : Chip) (pair : Bool) : List Byte := if pair then m.vault.pairKek else m.vault.sealKek

def blobIv (m : Chip) (pair : Bool) (ctr : Nat) : List Byte :=
  beBytes 4 (if pair then 1 + fld m A.GLB_STRAP 1 1 else 0) ++ beBytes 8 ctr

/-- The 16-byte GCM tag over AAD and ciphertext. -/
def gcmTag (key iv aad ct : List Byte) : List Byte := Config.crypto "GCM_TAG" key [iv, aad, ct] 16

/-- Unwrap a blob (R426): policy, key and owner tag. -/
def openBlob (m : Chip) (b : List Byte) : Option (Nat × List Byte × Nat) :=
  let fl := byteAt b 1
  let pair := bit fl 2
  let n := klenBytes (fl % 4)
  let aad := slice b 0 16
  let iv := blobIv m pair (beNat (slice b 8 8))
  let ct := slice b 16 64
  let body := Config.crypto "GCM_DECRYPT" (blobKek m pair) [iv, aad, ct] 64
  if byteAt b 0 = 1 && fl / 8 = 0 && slice b 80 16 = gcmTag (blobKek m pair) iv aad ct && (body.drop n).all (· == 0) then
    some (leNat (slice b 2 4), body.take n, leNat (slice b 6 2))
  else none

/-- Wrap a slot's key as a blob with IV counter `ctr` (R424). -/
def makeBlob (m : Chip) (k : KeySlot) (pair : Bool) (ctr : Nat) : List Byte :=
  let aad := leBytes 1 1 ++ leBytes 1 (bits k.policy 1 2 + b2n pair * 4) ++ leBytes 4 k.policy ++ leBytes 2 k.tag ++ beBytes 8 ctr
  let body := k.key ++ List.replicate (64 - k.key.length) 0
  let iv := blobIv m pair ctr
  let ct := Config.crypto "GCM_ENCRYPT" (blobKek m pair) [iv, aad, body] 64
  aad ++ ct ++ gcmTag (blobKek m pair) iv aad ct

/-- SP 800-108 counter-mode KDF with AES-CMAC, counter of one byte from 1 (R422). -/
def kdfCmac (key input : List Byte) (n : Nat) : List Byte :=
  ((List.range (cdiv n 16)).flatMap fun i => Config.crypto "AES-CMAC" key [beBytes 1 (i + 1) ++ input] 16).take n

/-- The challenge block (R438). -/
def challengeBlock (m : Chip) (now : Nat) (ch : List Byte) : List Byte :=
  ch ++ kmac m.vault.crKey (ch ++ deviceId ++ bmrAll m ++ leBytes 1 m.life) 32 "VXG8640 CR" ++ bmrAll m ++ leBytes 1 m.life
    ++ List.replicate 7 0 ++ leBytes 8 now

/-- The attestation statement (R442). -/
def attestBlock (m : Chip) (now leaf : Nat) (nonce user : List Byte) : List Byte :=
  leBytes 2 1 ++ leBytes 1 m.life ++ leBytes 1 0 ++ leBytes 4 leaf ++ leBytes 8 now ++ deviceId ++ nonce ++ user ++ bmrAll m

/-- XMSS seeds and the public key (R441): OID, root and PUB_SEED. -/
def xmssSeeds : List Byte := kmac (otpSecret "DUS") [] 96 "VXG8640 XMSS"

def xmssPub : List Byte := beBytes 4 0x12 ++ Config.crypto "XMSS_PUB" xmssSeeds [] 64

/-- The XMSS OIDs of the parameter sets that the device supports, as NIST SP 800-208 assigns them (log entry 15). -/
def xmssOid (pk : List Byte) : Bool := beNat (slice pk 0 4) = 0x10 || beNat (slice pk 0 4) = 0x11 || beNat (slice pk 0 4) = 0x12

/-- Length of a signature by the parameter set of its public key. -/
def xmssSigLen (pk : List Byte) : Nat := if beNat (slice pk 0 4) = 0x10 then 2500 else if beNat (slice pk 0 4) = 0x11 then 2692 else 2820

/-- Status of verifying a signature against a root: 0 NRH, 1 ORH, 2 none (R439, R440). -/
def xmssVerify (m : Chip) (root : Nat) (pk msg sig : List Byte) : Nat :=
  let want := if root = 0 then otpSecret "NRH" else (rowOf m 1).getD []
  if !xmssOid pk then 0x12
  else if root < 2 && sha3 pk ≠ want then 0x83
  else if Config.verifies "XMSS" pk [msg, sig] then 0 else 0x82

/-- The status of VERIFY (R439, R440): `mem` holds the 32-byte block; key, message and signature come from host memory, or, for an inner
mailbox, from where the block says. -/
def vVerdict (m : Chip) (q : VReq) (mem pk msg sig : List Byte) : Nat :=
  let b := vaultMem m q mem 32
  let inner := 2 ≤ q.mb
  let pk := if inner then innerRead m (leNat (slice b 16 8)) 68 else slice pk 0 68
  let n := leNat (slice b 8 4)
  let msg := if inner then innerRead m (leNat (slice b 0 8)) n else slice msg 0 n
  let h := beNat (slice pk 0 4)
  let k := if h = 0x10 then 2500 else if h = 0x11 then 2692 else 2820
  let sig := if inner then innerRead m (leNat (slice b 24 8)) k else slice sig 0 k
  if 2 < byteAt b 12 || leNat (slice b 13 3) ≠ 0 then 0x12 else xmssVerify m (byteAt b 12) pk msg sig

/-- CTR_ADVANCE (R437): a status and the device after it; `ok` tells whether the NVM write completes. -/
def ctrAdvance (m : Chip) (now c v : Nat) (ok : Bool) : Chip × Nat :=
  let x := ctrOf m c
  if v < x.next then (m, 0x85)
  else if v = x.next then (m, 0)
  else
    let m := emit m 0x0602 (srcId 6 (0x80 + c)) now [(1, b2n ok), (3, 0), (8, v)]
    if ok then (updCtr m c fun x => { x with next := v, limit := v, wear := sat 32 (x.wear + 1) }, 0)
    else (setIrq m .vault 4, 0x81)

/-! ### Register writes -/

/-- Mailbox and offset of a mailbox register. -/
def mbPage (a : Nat) : Option (Nat × Nat) :=
  if 0x40C00100 ≤ a && a < 0x40C00180 then some ((a - 0x40C00100) / 0x20, (a - 0x40C00100) % 0x20) else none

/-- Why a write to a VAULT register is refused beyond its field ranges. -/
def vaultCheck (m : Chip) (who a old new : Nat) : Nat :=
  match mbPage a with
  | some (mb, _) => if agentOf who ≠ mb then 5 else if flag m (A.VAULT_MB_CMD mb) 31 then 4 else 0
  | none => if 0x40C00400 ≤ a && a < 0x40C00440 && a % 16 = 8 && old ≠ new then 3 else 0

/-- What a write to a VAULT register does beside storing its fields. -/
def vaultEffect (m : Chip) (a data : Nat) : Chip :=
  match mbPage a with
  | some (mb, off) => if off = 0 && bit data 31 then vaultGo m mb else m
  | none => if a = A.VAULT_CTRL then (let m := rstR m a; if bit data 0 then sealLock m else m) else m

/-- The word of `VAULT_STATUS`. -/
def vaultStatus (m : Chip) : Nat :=
  b2n m.vault.isSealed + 2 * b2n (slotOf m 1).isSome + 4 * b2n (m.life == 3) + 8 * b2n (rowOf m 0).isSome + 16 * b2n (rowOf m 1).isSome
    + 256 * m.vault.slots.length

/-- The word of `VAULT_XMSS_STATUS`. -/
def xmssStatus (m : Chip) : Nat :=
  min (2 ^ 20) (ctrOf m 0).next + b2n m.vault.keygen * 2 ^ 21 + b2n (2 ^ 20 ≤ (ctrOf m 0).next) * 2 ^ 22

end Sys2Proof.Machine
end

