-- ==== Sys2Proof/Machine/Mint.lean ====
section
/-! DEFINITION. The Mint (09): cipher jobs from rings, the Teller's pools and order of service, contexts, the fault check and
quarantine, IV generators, and the checks of writes to the MACsec association tables. -/

namespace Sys2Proof.Machine

def updMint (m : Chip) (f : MintSt → MintSt) : Chip := { m with mint := f m.mint }


def updCore (m : Chip) (c : Nat) (f : CoreSt → CoreSt) : Chip := updMint m fun x => { x with cores := lset x.cores c f }

/-! ### Descriptors and job blocks (R401, R402) -/

def jMode (d : List Byte) : Nat := byteAt d 22 % 16

/-- 0 encrypt or generate, 1 decrypt or verify. -/
def jDec (d : List Byte) : Bool := bit (byteAt d 22) 4

def jLegacy (d : List Byte) : Bool := bit (byteAt d 22) 5

def jSrc (d : List Byte) : Nat := leNat (slice d 0 8)

def jDst (d : List Byte) : Nat := leNat (slice d 8 8)

def jLen (d : List Byte) : Nat := leNat (slice d 16 4)

def jAad (d : List Byte) : Nat := leNat (slice d 20 2)

/-- Flag `i` of byte 23: 0 stream_ok, 1 iv_gen, 2 resume, 3 ctx_wrapped, 4 irq. -/
def jFlag (d : List Byte) (i : Nat) : Bool := bit (byteAt d 23) i

def bKeySrc (b : List Byte) : Nat := byteAt b 0

def bSlot (b : List Byte) : Nat := byteAt b 1

def bTag (b : List Byte) : Nat := byteAt b 2

def bIvLen (b : List Byte) : Nat := byteAt b 3

def bGen (b : List Byte) : Nat := byteAt b 4 % 8

def bOut (b : List Byte) : Nat := leNat (slice b 8 4)

def bCtxSlot (b : List Byte) : Nat := leNat (slice b 12 2)

def bCtxAddr (b : List Byte) : Nat := leNat (slice b 64 8)

/-- A job on a Keccak unit. -/
def isKecc (d : List Byte) : Bool := 8 ≤ jMode d

/-- Bytes of a block: 16, or the 136-byte rate of a Keccak unit. -/
def blockLen (d : List Byte) : Nat := if isKecc d then 136 else 16

/-- Check 1 of R405 on the descriptor. -/
def jDescBad (d : List Byte) : Bool :=
  let md := jMode d
  let l := jLen d
  d.length != 32 || 10 < md || byteAt d 22 / 64 != 0 || byteAt d 23 / 32 != 0 || leNat (slice d 24 8) % 64 != 0
    || (md = 4 && jAad d ≠ 0) || (8 ≤ md && jDec d)
    || ((md = 0 || md = 1) && jDec d && !jLegacy d && (l = 0 || l % 16 ≠ 0))
    || (md = 7 && !jLegacy d && 2 ^ 28 < l)

/-- Check 1 of R405 on the job block. -/
def jBlkBad (d b : List Byte) : Bool :=
  let md := jMode d
  let t := bTag b
  let dl := byteAt b 5
  3 < bKeySrc b || (bKeySrc b = 3 && md ≠ 8 && md ≠ 9) || byteAt b 4 / 8 != 0 || 32 < byteAt b 6 || byteAt b 7 != 0
    || 1024 ≤ bCtxSlot b || leNat (slice b 14 2) != 0 || leNat (slice b 104 24) != 0 || bCtxAddr b % 64 != 0
    || (bKeySrc b = 2 && leNat (slice b 40 24) != 0)
    || (if bKeySrc b = 1 then !(dl = 16 || dl = 24 || dl = 32 || dl = 64) else dl ≠ 0)
    || ((md = 1 || md = 2 || md = 7) && bIvLen b ≠ 16) || ((md = 3 || md = 4) && bIvLen b ≠ 12)
    || (md = 5 && (bIvLen b < 7 || 13 < bIvLen b || 2 ^ (8 * (15 - bIvLen b)) ≤ jLen d))
    || ((md = 3 || md = 4) && !(t = 4 || t = 8 || (12 ≤ t && t ≤ 16)))
    || (md = 5 && !(4 ≤ t && t ≤ 16 && t % 2 = 0)) || (md = 6 && !(4 ≤ t && t ≤ 16))
    || ((md = 9 || md = 10) && (bOut b = 0 || 65535 < bOut b))

/-- Policy of a job's key (R368): of its slot, its root, or its blob. -/
def jPolicy (m : Chip) (b blob : List Byte) : Nat :=
  if bKeySrc b = 2 then leNat (slice blob 2 4) else policyOf m (bSlot b)

/-- Key bytes that a job asks for (R348). -/
def jKeyLen (m : Chip) (b blob : List Byte) : Nat := if bKeySrc b = 1 then byteAt b 5 else klenBytes (bits (jPolicy m b blob) 1 2)

/-- A key length fits a mode (R347, R348). -/
def keyFits (md n : Nat) : Bool :=
  if md < 7 then n = 16 || n = 24 || n = 32 else if md = 7 then n = 32 || n = 64 else true

/-- Check 4 of R405: the policy and R379, R392, R436. -/
def jPolicyBad (m : Chip) (r : Nat) (d b blob : List Byte) : Bool :=
  let pol := jPolicy m b blob
  let held := bKeySrc b = 2 || (bKeySrc b < 2 && (slotOf m (bSlot b)).isSome)
  let g := bGen b
  let cfg := rdN m (A.MINT_IVGEN_CFG g)
  (held && (!bit pol (3 + jMode d) || !bit pol (if jDec d then 15 else 14) || !bit pol (25 + ringOwner m r)
      || (bKeySrc b = 1 && !bit pol 16) || !keyFits (jMode d) (jKeyLen m b blob)))
    || (bKeySrc b < 2 && !jFlag d 3)
    || (jFlag d 1 && (jDec d || !(jMode d = 3 || jMode d = 4) || bKeySrc b ≠ 0 || !bit cfg 0 || bits cfg 8 8 ≠ bSlot b
        || bits cfg 1 4 < 4 || ctrKind m (bits cfg 1 4) ≠ 1 || ctrGen m (bits cfg 1 4) ≠ some g))

/-- The key of a job, when it is available (R367, R369). -/
def jKey (m : Chip) (b blob : List Byte) : Option (List Byte) :=
  if bKeySrc b = 0 then (slotOf m (bSlot b)).map (·.key)
  else if bKeySrc b = 1 then (slotOf m (bSlot b)).map fun k => kmac k.key (slice b 32 32) (byteAt b 5) "VXG8640 DERIVE"
  else if bKeySrc b = 2 then (if m.vault.isSealed then (openBlob m blob).map (·.2.1) else none)
  else some []

/-- Check 6 of R405. -/
def jLenBad (d : List Byte) : Option Nat :=
  let md := jMode d
  if jLegacy d && (md = 0 || md = 1 || md = 6 || md = 7) && (jLen d = 0 || jLen d % 16 ≠ 0) then some 0x01
  else if md = 7 && !jLegacy d && jLen d < 16 then some 0x81
  else if (md = 3 || md = 5) && jDec d && 16384 < jLen d && !jFlag d 0 then some 0x82
  else none

/-- Checks 1-6 of R405, in order. -/
def jJudge (m : Chip) (r : Nat) (d b blob : List Byte) (blkOk keyOk : Bool) : Option Nat :=
  let pol := jPolicy m b blob
  let held := bKeySrc b = 2 || (bKeySrc b < 2 && (slotOf m (bSlot b)).isSome)
  if jDescBad d then some 0x12
  else if !blkOk then some 0x07
  else if jBlkBad d b then some 0x12
  else if held && !bit pol (20 + m.life) then some 0x15
  else if jPolicyBad m r d b blob then some 0x11
  else if !keyOk || (jKey m b blob).isNone then some 0x03
  else jLenBad d

/-! ### Completions (R403) -/

/-- A cipher completion record; `flags` is byte 1. -/
def cipherRec (now r idx status flags core done iv : Nat) : List Byte :=
  packLe [(1, status), (1, flags), (1, core % 8), (1, 0), (2, idx), (1, r), (1, 0), (8, done), (8, iv), (8, now)]

/-- The Mint writes for a cipher job of ring `r`: its writes count as those of the ring's transfers (R598). -/
def mintPut (m : Chip) (r a : Nat) (l : List Byte) : Chip := bump (memStore m (ringSpace m r) a l) A.write_bytes l.length

/-- Fill destination bytes with zeros. -/
def zeroFill (m : Chip) (r a n : Nat) : Chip := mintPut m r a (List.replicate n 0)

/-- Flags of a job's final record. -/
def jFlags (j : CJob) (saved zeroed : Bool) : Nat :=
  2 * b2n saved + 4 * b2n j.retried + 8 * b2n j.iv.isSome + 16 * b2n zeroed

/-! ### Pools (R349-R351) -/

/-- A unit runs a job. -/
def coreBusy (m : Chip) (c : Nat) : Bool := m.mint.jobs.any fun j => j.core == some c

/-- The Vault's command at the front is XMSS work: ATTEST, VERIFY or XMSS_KEYGEN. -/
def xmssWork (m : Chip) : Bool :=
  match m.vault.queue.head? with
  | some a => [10, 11, 15].contains (vreq m a).op
  | none => false

/-- The Keccak units that XMSS work holds: what jobs leave it, and one at most while a job waits for a unit (R444). -/
def xmssUnits (m : Chip) (waits : Bool) : List Nat :=
  if !xmssWork m then []
  else
    let l := (unitsOf true).filter fun c => coreFit m c && !coreBusy m c
    if waits then l.take 1 else l

/-- A unit that a waiting job finds taken. -/
def unitTaken (m : Chip) (c : Nat) : Bool := coreBusy m c || (xmssUnits m true).contains c

/-- A suspended job waits for a Keccak unit. -/
def keccWaits (m : Chip) : Bool := m.mint.jobs.any fun j => j.core.isNone && isKecc j.desc

/-- An idle unit of a class: a general AES core, or a Keccak unit. -/
def idleUnit (m : Chip) (kecc : Bool) : Option Nat :=
  (unitsOf kecc).find? fun c => coreFit m c && !(coreOf m c).resv && !unitTaken m c

/-- A core other than `c` for a retry (R362): a general core preferred for a job. -/
def retryUnit (m : Chip) (kecc : Bool) (c : Nat) : Option Nat :=
  match (unitsOf kecc).find? fun x => x != c && coreFit m x && !(coreOf m x).resv && !unitTaken m x with
  | some x => some x
  | none => (List.range 8).find? fun x => !kecc && x != c && coreFit m x && !coreBusy m x

/-- Fill the reserved pool at a commit (R349). -/
def fillPool (m : Chip) : Chip :=
  let fit := (List.range 8).filter (coreFit m)
  let pool := fit.take (fld m A.MINT_TELLER_CFG 0 4)
  updMint m fun x => { x with cores := x.cores.zipIdx.map fun p => { p.1 with resv := pool.contains p.2 } }

/-! ### Contexts (R378-R385) -/

/-- `key_ref` of a context (R380): of the label, or of the 96-byte blob. -/
def keyRef (b blob : List Byte) : List Byte :=
  if bKeySrc b = 1 then (sha3 (slice b 32 32)).take 8 else if bKeySrc b = 2 then (sha3 (slice blob 0 96)).take 8 else leBytes 8 0

/-- Header of a context (R380). -/
def ctxHeader (m : Chip) (j : CJob) : List Byte :=
  leBytes 2 1 ++ slice j.desc 22 1 ++ slice j.desc 23 1 ++ leBytes 4 m.mint.epoch ++ slice j.desc 0 8 ++ slice j.desc 8 8
    ++ slice j.desc 16 4 ++ slice j.desc 20 2 ++ slice j.blk 0 2 ++ j.ref ++ leBytes 8 j.done ++ leBytes 12 m.mint.ctxIv ++ leBytes 4 0

/-- A wrapped context (R380): 320 bytes. -/
def ctxWrap (m : Chip) (j : CJob) : List Byte :=
  let h := ctxHeader m j
  let body := Config.crypto "CTX_BODY" m.mint.ctxKey [h, j.key] 224
  h ++ body ++ gcmTag m.mint.ctxKey (slice h 48 12) h body ++ List.replicate 16 0

/-- Whether a wrapped context restores a job (R383): the tag, and every header field that binds it; the answer is `bytes_done`. -/
def ctxOpen (m : Chip) (j : CJob) (c : List Byte) : Option Nat :=
  let h := slice c 0 64
  let w := ctxHeader m j
  if slice c 288 16 = gcmTag m.mint.ctxKey (slice c 48 12) h (slice c 64 224) && slice h 2 1 = slice w 2 1
      && clearMask (byteAt h 3) 4 = clearMask (byteAt w 3) 4 && slice h 8 32 = slice w 8 32 then some (leNat (slice c 40 8))
  else none

/-- Save a job's context as its descriptor says (R378). -/
def ctxSave (m : Chip) (j : CJob) : Chip :=
  if jFlag j.desc 3 then
    updMint (bump (memStore m (ringSpace m j.ring) (bCtxAddr j.blk) (ctxWrap m j)) A.ctx_save_wrapped 1) fun x =>
      { x with ctxIv := x.ctxIv + 1 }
  else bump m A.ctx_save_clear 1

/-! ### Jobs -/

def jobKey (j : CJob) : Nat × Nat := (j.ring, j.idx)

def updJob (m : Chip) (k : Nat × Nat) (f : CJob → CJob) : Chip :=
  updMint m fun x => { x with jobs := x.jobs.map fun j => if jobKey j = k then f j else j }

def dropJob (m : Chip) (k : Nat × Nat) : Chip := updMint m fun x => { x with jobs := x.jobs.filter fun j => jobKey j != k }

def jobOn (m : Chip) (c : Nat) : Option CJob := m.mint.jobs.find? fun j => j.core == some c

/-- Priority of a ring's jobs (R354): 0-3; SGE authentication is 4 and Vault work 5. -/
def ringMintPri (m : Chip) (r : Nat) : Nat := fld m (A.MINT_RING_PRI r) 0 2

/-- Declare a core quarantined (R363, R364). -/
def quarantine (m : Chip) (now c cause : Nat) : Chip :=
  let m := clrR (updCore m c fun x => { x with quar := true, resv := false, forced := false }) (A.MINT_CORE_CTRL c) 2
  let left := ((List.range 8).filter fun x => !(coreOf m x).quar).length
  let m := emit (setIrq m .mint 1) 0x0502 (srcId 5 c) now [(1, cause), (1, left)]
  report m now (srcId 5 c) 0x0502 2 c

/-- A core has ended its job: a quarantine that waits takes effect. -/
def coreEnds (m : Chip) (now : Nat) (c : Option Nat) : Chip :=
  match c with
  | some c => if (coreOf m c).forced then quarantine m now c 2 else m
  | none => m

/-- End a job with a final completion (R403); `zeroed` tells that its written bytes are zero-filled first. -/
def endJob (m : Chip) (now : Nat) (j : CJob) (status done : Nat) (saved zeroed : Bool) : Chip :=
  let m := if zeroed then zeroFill m j.ring (jDst j.desc) (max j.reach j.written) else m
  let m := bump (dropJob m (jobKey j)) (if status = 0 then A.jobs_ok else A.jobs_failed) 1
  let m := if status = 0x02 then bump m A.tag_fail 1 else if status = 0x09 then bump m A.mint_fault_mismatch 1 else m
  let m := postCpl m now j.ring
    (cipherRec now j.ring j.idx status (jFlags j saved zeroed) (j.core.getD 0) done (j.iv.getD 0)) (jFlag j.desc 4)
  coreEnds m now j.core

/-- Bytes of a segment of the output (log entry 4): position `p`, input `l`. -/
def segOut (j : CJob) (p : Nat) (l : List Byte) : List Byte :=
  Config.crypto (if jDec j.desc then "CIPHER_DECRYPT" else "CIPHER_ENCRYPT") j.key
    [slice j.desc 22 1, slice j.blk 16 16, leBytes 8 (j.iv.getD 0), leBytes 8 p, l] l.length

/-- Source bytes of a job: a host's memory gives them as the operand. -/
def jobSrc (m : Chip) (j : CJob) (src : List Byte) (n : Nat) : List Byte :=
  if 2 ≤ ringOwner m j.ring then innerRead m (jSrc j.desc) n else slice src 0 n

/-- Write the output of payload bytes up to `p` that the job has not written yet. -/
def writeTo (m : Chip) (j : CJob) (src : List Byte) (p : Nat) : Chip :=
  let k := p - j.written
  let l := slice (jobSrc m j src (jAad j.desc + p)) (jAad j.desc + j.written) k
  let m := mintPut m j.ring (jDst j.desc + j.written) (segOut j j.written l)
  updJob m (jobKey j) fun x => { x with written := p, reach := max x.reach p }

/-- Write the output up to `p` of a job that stops, where its source in a host's memory may not be given: its bytes are then free. -/
def writeSome (m : Chip) (j : CJob) (src : List Byte) (p : Nat) : Chip :=
  if src.isEmpty && ringOwner m j.ring < 2 then writeTo (useFree m) j (leBytes (jAad j.desc + p) (freeVal m)) p else writeTo m j src p

/-- Output leaves the core as it is made, but for authenticated decryption, padded decryption and tags (R373). -/
def streams (d : List Byte) : Bool :=
  let md := jMode d
  (md = 0 || md = 1 || md = 2 || md = 7 || ((md = 3 || md = 5) && (!jDec d || jFlag d 0)))

/-- The jobs and rings that wait at a priority (R356). -/
def waitersAt (m : Chip) (p : Nat) : List (Nat × Option Nat) :=
  ((List.range 64).filter fun r => ringType m r == 4 && ringRuns m r && ringFill m r != 0 && ringMintPri m r == p).map (fun r => (r, none))
    ++ (m.mint.jobs.filter fun j => j.core.isNone && ringMintPri m j.ring == p).map fun j => (j.ring, some j.idx)

/-- Preempt a job after `blocks` blocks since its start (R356): its output so far is written and its context saved. -/
def preempt (m : Chip) (j : CJob) (blocks : Nat) (src : List Byte) : Chip :=
  let done := min (jLen j.desc) (j.done0 + blocks * blockLen j.desc)
  let m := bump (bump m A.preemptions 1) A.read_bytes (done - j.done0)
  let m := match j.core with
    | some c => bump m (A.core_blocks c) blocks
    | none => m
  let m := if streams j.desc then writeSome m j src done else m
  let ahead := waitersAt m (ringMintPri m j.ring)
  let m := updJob m (jobKey j) fun x => { x with done := done, done0 := done, core := none, saved := true, ahead := ahead }
  match m.mint.jobs.find? fun x => jobKey x == jobKey j with
  | some j => ctxSave m j
  | none => m

/-- R357: an authenticated decryption without `stream_ok` is not preempted. -/
def unpreemptable (j : CJob) : Bool := (jMode j.desc = 3 || jMode j.desc = 5) && jDec j.desc && !jFlag j.desc 0

/-- R357: the job's clear context slot holds another job's context. -/
def slotTaken (m : Chip) (j : CJob) : Bool :=
  !jFlag j.desc 3 && m.mint.jobs.any fun x => jobKey x != jobKey j && x.core.isNone && x.saved && !jFlag x.desc 3
    && bCtxSlot x.blk == bCtxSlot j.blk

/-- A reserved core was lost (R351): the lowest healthy general core that is not slow moves over. -/
def refillPool (m : Chip) (now : Nat) : Chip :=
  let held := ((List.range 8).filter fun c => (coreOf m c).resv).length
  if fld m A.MINT_TELLER_CFG 0 4 ≤ held then m
  else
    match (List.range 8).find? fun c => coreFit m c && !(coreOf m c).resv with
    | some c =>
      let m := match jobOn m c with
        | some j => preempt m j ((now - j.since) / cyc) []
        | none => m
      updCore m c fun x => { x with resv := true }
    | none => emit (setIrq m .mint 3) 0x0504 (srcId 5 0x10) now [(1, fld m A.MINT_TELLER_CFG 0 4), (1, held)]

/-! ### Starting and resuming (R405) -/

/-- A cipher ring with a posted descriptor that may start. -/
def jobRing (m : Chip) (r : Nat) : Bool :=
  ringType m r == 4 && ringRuns m r && !(ringOf m r).stopping && spaceOk m (ringSpace m r) && ringFill m r != 0 && cplFree m r
    && xferFree m r

/-- What the Teller takes next (R354): a suspended job by key, or a ring. -/
def nextJob (m : Chip) (kecc : Nat → Bool) : Option ((Nat × Nat) ⊕ Nat) :=
  [3, 2, 1, 0].findSome? fun p =>
    match m.mint.jobs.find? fun j => j.core.isNone && j.ahead.isEmpty && ringMintPri m j.ring == p && (idleUnit m (isKecc j.desc)).isSome
        && xferFree m j.ring with
    | some j => some (.inl (jobKey j))
    | none =>
      let last := m.mint.rr.getD p 63
      (((List.range 64).map fun k => (last + 1 + k) % 64).find? fun r =>
        ringMintPri m r == p && jobRing m r && ((idleUnit m (kecc r)).isSome || noUnit m (kecc r))).map .inr

/-- Take a waiter out of the lists of those that it stood ahead of. -/
def served (m : Chip) (w : Nat × Option Nat) : Chip :=
  updMint m fun x => { x with jobs := x.jobs.map fun j => { j with ahead := j.ahead.filter (· != w) } }

/-- A failed context restore (R383). -/
def ctxFail (m : Chip) (now : Nat) (j : CJob) (unit : Nat) (c : List Byte) : Chip :=
  let m := bump (setIrq m .mint 7) A.ctx_auth_fail 1
  let m := emit m 0x0507 (srcId 5 unit) now [(1, j.ring), (1, 0), (2, j.idx), (4, leNat (slice c 4 4)), (4, m.mint.epoch)]
  let m := if jDec j.desc then zeroFill m j.ring (jDst j.desc) (jLen j.desc) else m
  endJob m now { j with core := some unit } 0x0A 0 false false

/-- A key that a slot holds and that yet does not load has failed its check value (R418). -/
def keyFault (m : Chip) (now : Nat) (b : List Byte) (keyOk : Bool) : Chip :=
  if !keyOk && bKeySrc b < 2 && (slotOf m (bSlot b)).isSome then shareFault m now (bSlot b) else m

/-- A job's key comes over the key bus: the shares of the slot it comes from change (R417). -/
def jBus (m : Chip) (b : List Byte) : Chip := if bKeySrc b < 2 then reshare m (bSlot b) else m

/-- Resume a suspended job on a unit (R383, R430). -/
def resumeJob (m : Chip) (now : Nat) (j : CJob) (unit : Nat) (c blob : List Byte) (keyOk : Bool) : Chip :=
  let m := served m (j.ring, some j.idx)
  if !keyOk || (jKey m j.blk blob).isNone then endJob (keyFault m now j.blk keyOk) now j 0x03 j.done false false
  else
    let m := jBus m j.blk
    let go := updJob (bump m A.transfers 1) (jobKey j) fun x => { x with core := some unit, since := now, done0 := x.done, saved := false }
    if !jFlag j.desc 3 then go
    else
      match ctxOpen m { j with ref := keyRef j.blk blob } c with
      | some _ => go
      | none => ctxFail m now j unit c

/-- Start the job at the head of a ring (R405). -/
def startJob (m : Chip) (now r : Nat) (d b blob c : List Byte) (blkOk keyOk : Bool) : Chip :=
  let i := (ringOf m r).head
  let j : CJob := { ring := r, idx := i, desc := d, blk := b, key := (jKey m b blob).getD [], ref := keyRef b blob, iv := none, core := none, since := now }
  let m0 := served (cplReserve (passHead m r 1) r) (r, none)
  let m0 := updMint m0 fun x => { x with rr := lset x.rr (ringMintPri m r) fun _ => r }
  match jJudge m r d b blob blkOk keyOk with
  | some code => endJob (if code = 0x03 then keyFault m0 now b keyOk else m0) now j code 0 false false
  | none =>
    match idleUnit m (isKecc d) with
    | none => endJob (setIrq m0 .mint 8) now j 0x83 0 false false
    | some unit =>
      let m0 := jBus m0 b
      let add := fun (m : Chip) (j : CJob) => updMint (bump m A.transfers 1) fun x => { x with jobs := x.jobs ++ [{ j with core := some unit }] }
      if jFlag d 2 then
        match ctxOpen m j c with
        | some n => add m0 { j with done := n, done0 := n, written := n, reach := n }
        | none => ctxFail m0 now j unit c
      else if jFlag d 1 then
        let g := bGen b
        match ctrAsk m0 (fld m (A.MINT_IVGEN_CFG g) 1 4) with
        | (m1, .value v) => add m1 { j with iv := some v }
        | (m1, .failed) => endJob m1 now j 0x81 0 false false
        | (m1, .exhausted) => endJob (emit (setIrq m1 .mint 6) 0x0506 (srcId 5 (0x18 + g)) now []) now j 0x04 0 false false
        | (m1, .wait) => updVault m fun v => { v with nvm := m1.vault.nvm }
      else add m0 j

/-- The next waiting job starts or resumes (R354, R405). -/
def jobStart (m : Chip) (now : Nat) (d b blob c : List Byte) (blkOk keyOk : Bool) : Chip :=
  let desc := fun r => if 2 ≤ ringOwner m r then innerRead m (slotAddr m r (ringOf m r).head) 32 else d
  if m.pwr.mode ≠ .run || !domOn m 15 then m
  else
    match nextJob m fun r => isKecc (desc r) with
    | none => m
    | some (.inl k) =>
      match m.mint.jobs.find? fun j => jobKey j == k with
      | none => m
      | some j =>
        match idleUnit m (isKecc j.desc) with
        | none => m
        | some u =>
          let inner := 2 ≤ ringOwner m j.ring
          resumeJob m now j u (if inner then innerRead m (bCtxAddr j.blk) 320 else c)
            (if inner then innerRead m (leNat (slice j.blk 32 8)) 96 else blob) keyOk
    | some (.inr r) =>
      let inner := 2 ≤ ringOwner m r
      let d := desc r
      let b := if inner then innerRead m (leNat (slice d 24 8)) 128 else slice b 0 128
      let blob := if inner then innerRead m (leNat (slice b 32 8)) 96 else blob
      startJob m now r d b blob (if inner then innerRead m (bCtxAddr b) 320 else c) blkOk keyOk

/-! ### Ends of jobs (R370-R377, R403) -/

/-- The padding of a decrypted payload: its length, when PKCS#7 holds. -/
def padding (l : List Byte) : Option Nat :=
  let p := (l.getLastD 0).toNat
  if 1 ≤ p && p ≤ 16 && p ≤ l.length && (l.drop (l.length - p)).all (·.toNat == p) then some p else none

/-- PKCS#7 padding of a payload. -/
def padded (l : List Byte) : List Byte :=
  let p := 16 - l.length % 16
  l ++ List.replicate p (BitVec.ofNat 8 p)

/-- A MAC over AAD and payload. -/
def macOf (j : CJob) (aad l : List Byte) (n : Nat) : List Byte :=
  (Config.crypto "CIPHER_MAC" j.key [slice j.desc 22 1, slice j.blk 16 16, leBytes 8 (j.iv.getD 0), aad, l] 16).take n

/-- A running job has processed its last block (R370-R376): `src` is its source as memory gives it. -/
def jobDone (m : Chip) (now : Nat) (j : CJob) (src : List Byte) : Chip :=
  let d := j.desc
  let md := jMode d
  let n := jLen d
  let a := jAad d
  let all := jobSrc m j src (a + n + bTag j.blk)
  let aad := slice all 0 a
  let pay := slice all a n
  let tag := slice all (a + n) (bTag j.blk)
  let m := bump m A.read_bytes (a + n - j.done0 + if jDec d && (md = 3 || md = 5) then bTag j.blk else 0)
  let m := match j.core with
    | some c => bump m (A.core_blocks c) (cdiv (n - j.done0) (blockLen d))
    | none => m
  let put := fun (o : Nat) (l : List Byte) => mintPut m j.ring (jDst d + o) l
  let rest := pay.drop j.written
  if 8 ≤ md then
    let k := if md = 8 then 32 else bOut j.blk
    let h := Config.crypto "HASH" j.key [slice d 22 1, slice j.blk 72 (byteAt j.blk 6), pay] k
    endJob (put 0 h) now j 0 n false false
  else if md = 4 || md = 6 then
    if jDec d then
      if macOf j [] pay (bTag j.blk) = tag then endJob m now j 0 n false false else endJob m now j 0x02 n false true
    else endJob (put 0 (macOf j [] pay (bTag j.blk))) now j 0 n false false
  else if md = 3 || md = 5 then
    if jDec d then
      if macOf j aad pay (bTag j.blk) = tag then endJob (put j.written (segOut j j.written rest)) now j 0 n false false
      else endJob m now j 0x02 n false true
    else
      let ct := segOut j j.written rest
      endJob (put j.written (ct ++ macOf j aad pay (bTag j.blk))) now j 0 n false false
  else if (md = 0 || md = 1) && !jLegacy d then
    if jDec d then
      let o := segOut j j.written rest
      match padding o with
      | some p => endJob (put j.written (o.take (o.length - p))) now j 0 n false false
      | none => endJob m now j 0x80 n false true
    else endJob (put j.written (segOut j j.written (padded pay |>.drop j.written))) now j 0 n false false
  else endJob (put j.written (segOut j j.written rest)) now j 0 n false false

/-- A provisional completion (R375): another `note_every` chunks of 16 KiB have been written. -/
def provisional (m : Chip) (now : Nat) (j : CJob) (src : List Byte) : Chip :=
  let p := j.written / 16384 * 16384 + fld m A.MINT_STREAM_CFG 0 7 * 16384
  let md := jMode j.desc
  if !((md = 3 || md = 5) && jDec j.desc && jFlag j.desc 0) || jLen j.desc ≤ p || !cplFree m j.ring then m
  else
    let m := cplReserve (writeTo m j src p) j.ring
    postCpl m now j.ring (cipherRec now j.ring j.idx 0 (1 + jFlags j false false) (j.core.getD 0) p (j.iv.getD 0)) false

/-! ### Preemption, slow cores, faults -/

/-- The running job of lowest priority among the units of a class, longest run first (R355). -/
def victim (m : Chip) (kecc : Bool) : Option CJob :=
  let l := m.mint.jobs.filter fun j =>
    match j.core with
    | some c => isKecc j.desc == kecc && !(coreOf m c).resv && !unpreemptable j
    | none => false
  (l.mergeSort fun a b => ringMintPri m a.ring < ringMintPri m b.ring || (ringMintPri m a.ring == ringMintPri m b.ring && a.since ≤ b.since)).head?

/-- Highest priority at which a ring, or a suspended job of a unit class, waits. -/
def waitingPri (m : Chip) (kecc : Bool) : Option Nat :=
  [3, 2, 1, 0].find? fun p => (waitersAt m p).any fun w =>
    match w.2 with
    | some i => m.mint.jobs.any fun j => jobKey j == (w.1, i) && isKecc j.desc == kecc
    | none => true

/-- The Teller preempts for a waiting job of priority `p` (R355-R357). -/
def tellerPreempt (m : Chip) (kecc : Bool) (p blocks : Nat) (src : List Byte) : Chip :=
  if (idleUnit m kecc).isSome then m
  else
    match victim m kecc with
    | none => m
    | some j =>
      let v := ringMintPri m j.ring
      if v < p || (v = p && fld m A.MINT_TELLER_CFG 16 16 ≤ blocks) then
        if slotTaken m j then bump m A.ctx_slot_busy 1 else preempt m j blocks src
      else m

/-- A core has a new rate estimate (R358): it is slow where that falls below `slow_pct` (R359). -/
def declareSlow (m : Chip) (now c est blocks : Nat) (src : List Byte) : Chip :=
  if 8 ≤ c || (coreOf m c).slow || (coreOf m c).quar then m
  else if fld m A.MINT_TELLER_CFG 8 7 ≤ est then updCore m c fun x => { x with rate := min 100 est }
  else
    let was := (coreOf m c).resv
    let m := updCore m c fun x => { x with slow := true, rate := est, resv := false }
    let m := emit (setIrq m .mint 2) 0x0503 (srcId 5 c) now [(1, 1), (1, est)]
    let m := match jobOn m c with
      | some j => if unpreemptable j || slotTaken m j then m else preempt m j blocks src
      | none => m
    if was then refillPool m now else m

/-- A known-answer job on a slow core (R360). -/
def slowKat (m : Chip) (now c rate : Nat) : Chip :=
  if !(coreOf m c).slow then m
  else
    let m := updCore m c fun x => { x with rate := min 100 rate }
    if rate < fld m A.MINT_TELLER_CFG 8 7 + 10 then m
    else emit (setIrq (updCore m c fun x => { x with slow := false }) .mint 2) 0x0503 (srcId 5 c) now [(1, 0), (1, min 100 rate)]

/-- MINT_MISMATCH and its strike (R362, R363): `client` 0 MACsec, 1 ring, 2 SGE, 3 Vault or context; `nth` 1 first, 2 retry. -/
def mismatch (m : Chip) (now c client nth who block : Nat) : Chip :=
  let m := if nth = 1 then updCore m c fun x => { x with strikes := sat 8 (x.strikes + 1) } else m
  emit (setIrq (bump m (A.core_mismatches c) 1) .mint 0) 0x0501 (srcId 5 c) now [(1, client), (1, nth), (2, who), (4, block)]

/-- A first mismatch (R362). -/
def firstMismatch (m : Chip) (now c client who block : Nat) : Chip :=
  match jobOn m c with
  | some j =>
    if j.retried then m
    else
      let m := bump (mismatch m now c 1 1 j.ring block) A.retries 1
      match retryUnit m (isKecc j.desc) c with
      | some u =>
        coreEnds (updJob m (jobKey j) fun x =>
          { x with core := some u, since := now, done := 0, done0 := 0, written := 0, retried := true, saved := false }) now (some c)
      | none => endJob (setIrq m .mint 8) now j 0x83 0 false true
  | none => if client = 1 then m else bump (mismatch m now c client 1 who block) A.retries 1

/-- A mismatch on the retry (R363): the job or the frame `fid` ends; `out` tells the direction of the frame's port `who`. -/
def retryMismatch (m : Chip) (now c client who block : Nat) (out : Bool) (fid : Nat) : Chip :=
  let was := (coreOf m c).resv
  let fin := fun (m : Chip) =>
    let m := quarantine m now c 1
    if was then refillPool m now else m
  match jobOn m c with
  | some j =>
    if !j.retried then m
    else fin (endJob (mismatch m now c 1 2 j.ring block) now { j with core := none } 0x09 0 false true)
  | none =>
    if client = 1 then m
    else
      let m := mismatch m now c client 2 who block
      let m := if client = 0 then
          if out then
            match m.tm.copies.find? fun x => x.fid == fid && x.port == who with
            | some x => discardGrant (bump m (A.out_mint_drop who) 1) now x
            | none => bump m (A.out_mint_drop who) 1
          else killFrame (bump m (A.in_mint_drop who) 1) now fid
        else m
      fin m

/-- Jobs when MINT powers down (R384): each that may be preempted posts ABORT_PWR; `all` takes the others too. -/
def mintDown (m : Chip) (now : Nat) (all : Bool) : Chip :=
  (m.mint.jobs.filter fun j => all || j.core.isNone || !unpreemptable j).foldl (fun m j =>
    let blocks := (now - j.since) / cyc
    let done := if j.core.isSome then min (jLen j.desc) (j.done0 + blocks * blockLen j.desc) else j.done
    let m := match j.core with
      | some c => bump (if streams j.desc then writeSome m j [] done else m) (A.core_blocks c) blocks
      | none => m
    let out := j.core.isSome && streams j.desc
    let j := { j with done := done, written := if out then done else j.written, reach := if out then max j.reach done else j.reach }
    if bCtxAddr j.blk ≠ 0 && !(all && unpreemptable j) then
      let m := memStore (bump m A.ctx_save_wrapped 1) (ringSpace m j.ring) (bCtxAddr j.blk) (ctxWrap m j)
      endJob (updMint m fun x => { x with ctxIv := x.ctxIv + 1 }) now j 0x05 done true false
    else endJob m now j 0x05 done false (jDec j.desc)) m

/-! ### Register writes -/

/-- Core and offset of a core register. -/
def corePage (a : Nat) : Option (Nat × Nat) :=
  if 0x40B00200 ≤ a && a < 0x40B00340 then some ((a - 0x40B00200) / 0x20, (a - 0x40B00200) % 0x20) else none

/-- Why a write to a MINT register is refused beyond its field ranges. -/
def mintCheck (m : Chip) (a old new data : Nat) : Nat :=
  match corePage a with
  | some (c, off) => if off = 4 && bit data 0 && !(coreOf m c).quar then 4 else 0
  | none =>
    if 0x40B00100 ≤ a && a < 0x40B00180 then
      let g := (a - 0x40B00100) / 16
      if a % 16 = 0 then (if bit old 0 && old / 2 ≠ new / 2 then 5 else 0)
      else if a % 16 = 4 then (if flag m (A.MINT_IVGEN_CFG g) 0 then 5 else 0)
      else 0
    else 0

/-- What a write to a MINT register does beside storing its fields (R364). -/
def mintEffect (m : Chip) (now a data : Nat) : Chip :=
  match corePage a with
  | some (c, off) =>
    if off ≠ 4 then m
    else
      let m := wrN m a (b2n (bit data 0 || (coreOf m c).test) + 2 * b2n (coreOf m c).forced)
      let m := if bit data 0 then updCore m c fun x => { x with test := true } else m
      if bit data 1 && !(coreOf m c).quar then
        if coreBusy m c then orR (updCore m c fun x => { x with forced := true }) a 2
        else
          let was := (coreOf m c).resv
          let m := quarantine m now c 2
          if was then refillPool m now else m
      else m
  | none => m

/-- The words of `MINT_POOL_STATUS` and `MINT_CORE_STATUS`. -/
def poolStatus (m : Chip) : Nat :=
  (List.range 8).foldl (fun a c =>
    let x := coreOf m c
    a + b2n x.resv * 2 ^ c + b2n (!x.resv && !x.quar) * 2 ^ (8 + c) + b2n x.quar * 2 ^ (16 + c) + b2n x.slow * 2 ^ (24 + c)) 0

def coreStatus (m : Chip) (c : Nat) : Nat :=
  let x := coreOf m c
  (if x.quar then 3 else if x.slow then 2 else b2n (coreBusy m c || (xmssUnits m (keccWaits m)).contains c)) + 4 * b2n x.resv + 256 * x.rate + 65536 * x.strikes

/-- The SA that an address of the association tables lies in, with the offset in it. -/
def saPage (a : Nat) : Option (Nat × Nat) :=
  if (0x40900000 ≤ a && a < 0x40901000) || (0x40902000 ≤ a && a < 0x40906000) then
    let o := a % 0x100
    if 0x20 ≤ o && o < 0xA0 then some (a - o % 0x20, o % 0x20) else none
  else none

/-- A write to a field of a valid association, but one that clears `valid`, is refused with cause 7 (R399). -/
def macsecCheck (m : Chip) (a old new : Nat) : Nat :=
  match saPage a with
  | some (sa, o) => if flag m sa 0 && !(o = 0 && new = old - 1) then 7 else 0
  | none => 0

/-- What a write to an association does beside storing its fields: a packet number of 0 is ignored (R389); an association that
becomes valid starts without marks, and its key comes over the key bus (R386, R388, R417). -/
def macsecEffect (m : Chip) (a old new : Nat) : Chip :=
  match saPage a with
  | some (sa, o) =>
    if o = 0 then (if bit new 0 && !bit old 0 then reshare (clrR m a 0x30000) (bits new 8 8) else m)
    else if (o = 4 || o = 8) && rd64 m (sa + 4) = 0 then wrN m a old
    else m
  | none => m

end Sys2Proof.Machine
end

