-- ==== Sys2Proof/Machine/CanLin.lean ====
section
/-! DEFINITION. The CAN and LIN channels (11): transmit FIFOs, arbitration, cancels, receive buffers and their window, error states
and recovery, CAN TX and CAN RX rings, and the LIN schedules. -/

namespace Sys2Proof.Machine

/-! ### Access -/

def canOf (m : Chip) (c : Nat) : CanCh := m.cl.can.getD c {}

def updCan (m : Chip) (c : Nat) (f : CanCh → CanCh) : Chip := { m with cl := { m.cl with can := lset m.cl.can c f } }

def linOf (m : Chip) (c : Nat) : LinCh := m.cl.lin.getD c {}

def updLin (m : Chip) (c : Nat) (f : LinCh → LinCh) : Chip := { m with cl := { m.cl with lin := lset m.cl.lin c f } }

/-- Set bit `i` of a channel's events. -/
def canEvt (m : Chip) (c i : Nat) : Chip := setEvt m (A.CAN_EVENT c) (A.CAN_EVENT_EN c) i .can c

def linEvt (m : Chip) (c i : Nat) : Chip := setEvt m (A.LIN_EVENT c) (A.LIN_EVENT_EN c) i .lin c

def canEn (m : Chip) (c : Nat) : Bool := flag m (A.CAN_CH_CFG c) 0

def linEn (m : Chip) (c : Nat) : Bool := flag m (A.LIN_CH_CFG c) 0

def canOpmode (m : Chip) (c : Nat) : Nat := fld m (A.CAN_CH_CFG c) 1 2

/-- A channel that a standby guards runs as in listen-only mode (R746, R762): channels 0-15 CAN, 16-23 LIN. -/
def chanGuarded (m : Chip) (ch : Nat) : Bool :=
  flag m A.PAIR_CFG 0 && flag m A.PAIR_CHANNELS ch && (!m.pair.active || m.pair.release.isSome)

/-- The channel may send frames (R463). -/
def canSends (m : Chip) (c : Nat) : Bool := (canOpmode m c == 0 || canOpmode m c == 2) && !chanGuarded m c

/-- CAN channels run while CORE does, and from their restore on at a wake (R691). -/
def canOn (m : Chip) : Bool := coreOn m || (m.pwr.mode == .waking && m.pwr.fclk && !m.pwr.held)

/-! ### Message RAM (R452-R455) -/

def canBase (m : Chip) (c : Nat) : Nat := fld m (A.CAN_RAM_PART c) 0 7 * 4096

def slotCode (m : Chip) (c : Nat) : Nat := fld m (A.CAN_LAYOUT c) 0 2

/-- Bytes of a slot (R453). -/
def slotBytes (m : Chip) (c : Nat) : Nat :=
  match slotCode m c with
  | 0 => 48
  | 1 => 96
  | _ => 2080

/-- Payload bytes that a slot holds (R454). -/
def slotRoom (m : Chip) (c : Nat) : Nat := slotBytes m c - 32

def rxBufs (m : Chip) (c : Nat) : Nat := fld m (A.CAN_LAYOUT c) 2 14

/-- Depth of a transmit FIFO (R453). -/
def fifoDepth (m : Chip) (c f : Nat) : Nat :=
  match f with
  | 0 => fld m (A.CAN_LAYOUT c) 16 8
  | 1 => fld m (A.CAN_LAYOUT c) 24 8
  | 2 => fld m (A.CAN_LAYOUT2 c) 0 8
  | _ => fld m (A.CAN_LAYOUT2 c) 8 8

def fifoOf (x : CanCh) (f : Nat) : List CMsg := x.fifos.getD f []

/-- A transmit FIFO has room (R458). -/
def fifoRoom (m : Chip) (c f : Nat) : Bool := (fifoOf (canOf m c) f).length < fifoDepth m c f

/-- Place a message at the end of a FIFO (R457). -/
def fifoPut (m : Chip) (c f : Nat) (x : CMsg) : Chip := updCan m c fun y => { y with fifos := lset y.fifos f fun l => l ++ [x] }

/-- Remove message `k` of a FIFO; the others keep their order. -/
def fifoDel (m : Chip) (c f k : Nat) : Chip := updCan m c fun y => { y with fifos := lset y.fifos f fun l => l.eraseIdx k }

/-- Payload lengths of each format (R497): Classical, FD, XL, LIN. -/
def canLenOk (fmt n : Nat) : Bool :=
  match fmt with
  | 0 => n ≤ 8
  | 1 => n ≤ 8 || [12, 16, 20, 24, 32, 48, 64].contains n
  | 2 => 1 ≤ n && n ≤ 2048
  | _ => 1 ≤ n && n ≤ 8

def RxBuf.valid (b : RxBuf) : Bool := b.host || b.sge

def bufOf (m : Chip) (c b : Nat) : RxBuf := (sget (canOf m c).bufs b).getD {}

def updBuf (m : Chip) (c b : Nat) (f : RxBuf → RxBuf) : Chip :=
  updCan m c fun x => { x with bufs := sput x.bufs b (f ((sget x.bufs b).getD {})) }

/-- Word `k` of an element (R455). -/
def elemWord (b : RxBuf) (k : Nat) : Nat :=
  match k with
  | 0 => b2n b.valid + 2 * b2n b.lock.isSome + 4 * b2n b.broken + b.gen * 256 + b.filter * 65536
  | 1 => b.ident + b2n b.ide * 2 ^ 29 + b2n b.rtr * 2 ^ 30
  | 2 => b.fmt + 4 * b2n b.brs + 8 * b2n b.esi + b.data.length * 16 + b.sdt * 65536 + b.vcid * 2 ^ 24
  | 3 => b.af
  | 4 => b.sof % 2 ^ 32
  | 5 => b.sof / 2 ^ 32 % 2 ^ 32
  | 6 => b.eof % 2 ^ 32
  | 7 => b.eof / 2 ^ 32 % 2 ^ 32
  | k => leNat (slice b.data ((k - 8) * 4) 4)

/-- The word of an element that holds the last payload byte, or word 7 (R475). -/
def lastWord (b : RxBuf) : Nat := if b.data.isEmpty then 7 else 8 + (b.data.length - 1) / 4

/-- Bus address of word `k` of receive buffer `b` in the window. -/
def elemAddr (m : Chip) (c b k : Nat) : Nat := A.CAN_RAM_WINDOW 0 + canBase m c + b * slotBytes m c + k * 4

/-- Discard a buffer whose element holds a double-symbol error (R456). -/
def bufEcc (m : Chip) (c b : Nat) : Chip :=
  canEvt (bump (updBuf m c b fun x => { x with host := false, sge := false, due := none, lock := none }) (A.rx_ecc c) 1) c 5

/-- What a window read of word `k` of a receive buffer does (R475): word 0 of a valid buffer locks it; the last word of a locked one
releases the lock and, in window mode, frees the buffer for the host. -/
def windowTouch (m : Chip) (now c b k : Nat) : Chip :=
  let x := bufOf m c b
  if k = 0 && x.valid && x.lock.isNone then updBuf m c b fun x => { x with lock := some now }
  else if k = lastWord x && x.lock.isSome then
    updBuf m c b fun x => { x with lock := none, host := x.host && !flag m (A.CAN_CH_CFG c) 6 }
  else m

/-- Receive buffers that wait for the host or for the SGE, the oldest EOF stamp first. -/
def oldestBuf (m : Chip) (c : Nat) (p : RxBuf → Bool) : Option (Nat × RxBuf) :=
  (canOf m c).bufs.foldl (fun a x =>
    if !p x.2 then a
    else match a with
      | some y => if x.2.eof < y.2.eof then some x else a
      | none => some x) none

/-- The word of `CAN_RX_HEAD` (R474). -/
def rxHead (m : Chip) (c : Nat) : Nat := ((oldestBuf m c (·.host)).map (·.1)).getD 0xFFFF

/-- The nominal bit time in LT counts (R450): CAN clock periods of 5 FCLK cycles. -/
def bitTime (m : Chip) (c : Nat) : Nat :=
  (fld m (A.CAN_NBT c) 0 8 + 1) * (3 + fld m (A.CAN_NBT c) 8 8 + fld m (A.CAN_NBT c) 16 7) * 5 * cyc

/-- The word of `CAN_STATUS` (R478): the sequences counted in RECOVERING come from the bus. -/
def canStatus (m : Chip) (c : Nat) : Nat :=
  let x := canOf m c
  (if canEn m c then x.st else 4) + sat 8 x.tec * 256 + sat 8 x.rec_ * 65536
    + (if x.st = 3 then freeVal m % 128 * 2 ^ 24 else 0)

/-! ### Completions and messages -/

/-- The 32 bytes of a CAN TX completion (R498). -/
def canRec (x : CMsg) (idx ring chan status eof : Nat) : List Byte :=
  packLe [(1, status), (1, b2n x.armed), (2, sat 16 x.attempts), (2, idx), (1, ring), (1, chan), (8, x.sof), (8, eof), (2, x.tag), (6, 0)]

/-- Complete a message of channel 0-23: to its ring, or inside the device where the SGE placed it (R528). -/
def msgDone (m : Chip) (now chan status eof : Nat) (x : CMsg) : Chip :=
  match x.ring with
  | some (r, i) => if r < 64 then postCpl m now r (canRec x i r chan status eof) x.irq else m
  | none => bump m (if status = 0 then A.sge_tx_ok else A.sge_tx_fail) 1

/-- Complete the head of a FIFO. -/
def headDone (m : Chip) (now c f status eof : Nat) : Chip :=
  match (fifoOf (canOf m c) f).head? with
  | some x => msgDone (fifoDel m c f 0) now c status eof x
  | none => m

/-- Complete every message of a channel's FIFOs that satisfies a condition, in FIFO order. -/
def fifosDone (m : Chip) (now c status : Nat) (p : CMsg → Bool) : Chip :=
  let gone := ((canOf m c).fifos.flatten).filter p
  let m := updCan m c fun y => { y with fifos := y.fifos.map fun l => l.filter fun x => !p x }
  gone.foldl (fun m x => msgDone m now c status 0 x) m

/-- PWR's request to power down, once a channel has no frame in progress (R501): queued ring messages complete with ABORT_PWR and
receive buffers are discarded. A message of the SGE ends with its channel. -/
def canParkCh (m : Chip) (now c : Nat) : Chip :=
  updCan (fifosDone m now c 0x05 fun _ => true) c fun _ => {}

/-- R501 for a LIN channel. -/
def linParkCh (m : Chip) (now c : Nat) : Chip :=
  let reqs := (linOf m c).pubs.filter fun p => p.2.ring.isSome
  let m := updLin m c fun x => { lastAct := x.lastAct, table := x.table, slot := x.slot }
  reqs.foldl (fun m p => msgDone m now (16 + c) 0x05 0 p.2) m

/-- R501 for every channel without a frame in progress, or with `all` for every channel. -/
def canPark (m : Chip) (now : Nat) (all : Bool) : Chip :=
  let m := (List.range 16).foldl (fun m c => if all || (canOf m c).begun.isNone then canParkCh m now c else m) m
  (List.range 8).foldl (fun m c => if all || (linOf m c).cur.isNone then linParkCh m now c else m) m

/-- A channel whose frame in progress has ended while the device parks goes down (R501). -/
def canSettlePark (m : Chip) (now c : Nat) : Chip :=
  if m.pwr.mode == .parking && (canOf m c).begun.isNone then canParkCh m now c else m

def linSettlePark (m : Chip) (now c : Nat) : Chip :=
  if m.pwr.mode == .parking && (linOf m c).cur.isNone then linParkCh m now c else m

/-! ### Arbitration (R459) -/

/-- The arbitration key as a 32-bit number: identifier, RTR or SRR, IDE, extension, RTR (R459). -/
def arbKey (x : CMsg) : Nat :=
  if x.ide then bits x.ident 18 11 * 2 ^ 21 + 2 ^ 20 + 2 ^ 19 + bits x.ident 0 18 * 2 + b2n x.rtr
  else bits x.ident 0 11 * 2 ^ 21 + b2n x.rtr * 2 ^ 20

/-- The candidate: the FIFO head with the lowest key, the lower FIFO on equal keys (R459). -/
def candidate (x : CanCh) : Option Nat :=
  ([0, 1, 2, 3].filterMap fun f => (fifoOf x f).head?.map fun y => (f, arbKey y)).foldl (fun a p =>
    match a with
    | some (g, k) => if p.2 < k then some p else some (g, k)
    | none => some p) none |>.map (·.1)

/-! ### Cancel (R464-R469) -/

/-- Carry out a latched cancel: channel [4:0], FIFO [6:5], tag [31:16]. Where it removes the candidate, the next SOF comes a nominal bit time
later at the earliest (R465). -/
def cancelLatch (m : Chip) (now data : Nat) : Chip :=
  let c := bits data 0 5
  let f := bits data 5 2
  let x := canOf m c
  let code := fun (m : Chip) v => wrN m A.CAN_CANCEL_STATUS (v * 256)
  match if c < 16 && bits data 16 16 ≠ 0xFFFF then (fifoOf x f).findIdx? fun y => y.tag == bits data 16 16 else none with
  | none => code m 0x84
  | some k =>
    if k = 0 && x.begun == some f then
      code (updCan m c fun y => { y with fifos := lset y.fifos f fun l => lset l 0 fun z => { z with armed := true } }) 0x0C
    else
      match (fifoOf x f)[k]? with
      | some y =>
        let m := if k = 0 && candidate x = some f then updCan m c fun z => { z with holdOff := now + bitTime m c } else m
        msgDone (fifoDel (code m 0x0F) c f k) now c 0x0F 0 y
      | none => m

/-- Latch a waiting cancel whose latch cycle, the one after its write, lies before `now`. -/
def canSettle (m : Chip) (now : Nat) : Chip :=
  match m.cl.cancel with
  | some (w, data) => if w + cyc < now then cancelLatch { m with cl := { m.cl with cancel := none } } (w + cyc) data else m
  | none => m

/-! ### Error states (R477-R481) -/

/-- A CAN_STATE record (R478, R483). -/
def canStateRec (m : Chip) (now c st : Nat) : Chip :=
  let x := canOf m c
  emit m 0x0701 (srcId 7 c) now [(1, st), (1, sat 8 x.tec), (1, sat 8 x.rec_)]

/-- Enter an error state with its record. -/
def canEnter (m : Chip) (now c st : Nat) : Chip := canEvt (canStateRec (updCan m c fun x => { x with st := st }) now c st) c 0

/-- RECOVERING starts (R478). -/
def canRecovering (m : Chip) (c : Nat) : Chip :=
  canEvt (clrR (updCan m c fun x => { x with st := 3 }) (A.CAN_CMD c) 1) c 0

/-- New error counters, and the error state that follows. -/
def canCounters (m : Chip) (now c tec rec_ : Nat) : Chip :=
  let x := canOf m c
  let m := updCan m c fun y => { y with tec := tec, rec_ := rec_ }
  let m := if (x.tec < 96 && 96 ≤ tec) || (x.rec_ < 96 && 96 ≤ rec_) then canEvt m c 1 else m
  if 2 ≤ x.st then m
  else if 255 < tec then
    let m := bump (canEnter m now c 2) (A.bus_off c) 1
    let m := fifosDone m now c 0x0D (·.oneShot)
    if flag m (A.CAN_CH_CFG c) 5 then m else canRecovering m c
  else if x.st = 0 && (128 ≤ tec || 128 ≤ rec_) then canEnter m now c 1
  else if x.st = 1 && tec < 128 && rec_ < 128 then canEnter m now c 0
  else m

/-- A passive channel that has sent waits the suspend-transmission time, 8 bit times (R481; PRESUMED, ISO 11898-1). -/
def suspendTx (m : Chip) (now c : Nat) : Chip :=
  if (canOf m c).st = 1 then updCan m c fun x => { x with holdOff := max x.holdOff (now + 8 * bitTime m c) } else m

/-- The message at hand loses arbitration or meets an error: withdrawn, failed or put back (R461, R462, R467, R480). -/
def msgBack (m : Chip) (now c : Nat) : Chip :=
  match (canOf m c).begun with
  | none => m
  | some f =>
    let m := suspendTx (updCan m c fun x => { x with begun := none }) now c
    match (fifoOf (canOf m c) f).head? with
    | none => m
    | some x => if x.armed then headDone m now c f 0x0F 0 else if x.oneShot then headDone m now c f 0x0E 0 else m

/-! ### Sending (R457-R463) -/

/-- The CAN or LIN message of a CAN TX descriptor (R497). -/
def canDesc (d data : List Byte) (r i : Nat) : CMsg :=
  let a := leNat (slice d 0 4)
  let b := byteAt d 4
  let n := leNat (slice d 6 2) % 4096
  { ident := bits a 0 29, ide := bit a 29, fmt := bits b 0 2, brs := bit b 2, oneShot := bit b 3, rtr := bit b 4, sec := bit b 5,
    irq := bit b 6, tag := leNat (slice d 8 2), sdt := byteAt d 10, vcid := byteAt d 11, af := leNat (slice d 12 4),
    data := if n ≤ 8 then slice d 24 n else slice data 0 n, ring := some (r, i) }

/-- Bytes 5 and 6-7 of the descriptor: channel, FIFO, length. -/
def descChan (d : List Byte) : Nat := byteAt d 5 % 32

def descFifo (d : List Byte) : Nat := byteAt d 5 / 32 % 4

/-- A CAN TX descriptor that completes with BAD_DESCRIPTOR (R454, R463, R497). -/
def canDescBad (m : Chip) (d : List Byte) : Bool :=
  let c := descChan d
  let fmt := bits (byteAt d 4) 0 2
  let n := leNat (slice d 6 2)
  d.length != 32 || bit (byteAt d 3) 7 || bit (byteAt d 3) 6 || bit (byteAt d 4) 7 || bit (byteAt d 5) 7
    || 24 ≤ c || 4096 ≤ n || (fmt == 3) != (16 ≤ c : Bool) || !canLenOk fmt n || leNat (slice d 8 2) = 0xFFFF
    || (bit (byteAt d 4) 4 && fmt != 0) || chanGuarded m c
    || (if fmt = 3 then 64 ≤ leNat (slice d 0 4) else !(bit (byteAt d 3) 5 && fmt != 2) && 2048 ≤ leNat (slice d 0 4))
    || (if c < 16 then
          (fmt = 1 && !flag m (A.CAN_CH_CFG c) 3) || (fmt = 2 && !flag m (A.CAN_CH_CFG c) 4) || slotRoom m c < n || !canSends m c
        else descFifo d != 0)

/-- The zone of a ring's owner: that of its host port (R496). -/
def ringZone (m : Chip) (r : Nat) : Nat := portZone m (20 + min 2 (ringOwner m r))

/-- The zone of channel 0-23. -/
def chanZone (m : Chip) (c : Nat) : Nat := if c < 16 then canZone m c else linZone m (c - 16)

/-- A LIN request loads its data (R492); the request that it replaces completes CANCELLED (log entry 20). -/
def linLoad (m : Chip) (now n : Nat) (x : CMsg) : Chip :=
  if flag m (A.LIN_STATUS n) 0 && x.ring.isSome then msgDone m now (16 + n) 0x83 0 x
  else
    let old := sget (linOf m n).pubs (x.ident % 64)
    let m := updLin m n fun y => { y with pubs := sput y.pubs (x.ident % 64) x }
    match old with
    | some o => if o.ring.isSome then msgDone m now (16 + n) 0x0F 0 o else m
    | none => m

/-- Place a judged message into its FIFO, or load it for LIN (R457, R479). -/
def canPlace (m : Chip) (now c f : Nat) (x : CMsg) : Chip :=
  if 16 ≤ c then linLoad m now (c - 16) x
  else if x.oneShot && 2 ≤ (canOf m c).st then msgDone m now c 0x0D 0 x
  else fifoPut m c f x

/-- Take the descriptor at the head of a CAN TX ring (R458, R496, R497): `readOk` tells whether a payload read of a host's memory
succeeded. -/
def canEnqueue (m : Chip) (now r : Nat) (d data : List Byte) (readOk : Bool) : Chip :=
  let inner := 2 ≤ ringOwner m r
  let d := if inner then innerRead m (slotAddr m r (ringOf m r).head) 32 else d
  let c := descChan d
  let n := leNat (slice d 6 2) % 4096
  let bad := canDescBad m d
  if ringType m r ≠ 2 || !ringRuns m r || (ringOf m r).stopping || ringFill m r = 0 || !cplFree m r || !spaceOk m (ringSpace m r)
      || m.pwr.mode ≠ .run then m
  else if !bad && c < 16 && !fifoRoom m c (descFifo d) then m
  else
    let i := (ringOf m r).head
    let data := if inner then innerRead m (leNat (slice d 16 8)) n else data
    let x := canDesc d data r i
    let m := cplReserve (passHead m r 1) r
    if bad then msgDone m now c 0x12 0 { x with tag := leNat (slice d 8 2) }
    else
      let (m, ok) := judgeCrossing m now ⟨ringZone m r, chanZone m c, x.ident, x.ide, x.fmt, if c < 16 then c else c - 16, 1⟩
      if !ok then msgDone m now c 0x11 0 x
      else if 8 < n && !readOk then msgDone (dmaErr m now false 0x07 r i (leNat (slice d 16 8))) now c 0x07 0 x
      else canPlace (if 8 < n then bump (bump m A.transfers 1) A.read_bytes n else m) now c (descFifo d) x

/-- The start of the FCLK cycle that an LT lies in, cycles being counted from that of `now`: bus stamps resolve 2.5 ns (R484). -/
def onCycle (now x : Nat) : Nat := if now ≤ x then now + (x - now) / cyc * cyc else now - cdiv (now - x) cyc * cyc

/-- The candidate begins (R460): `sof` is its SOF stamp, `ecc` a double-symbol error in its element (R456). -/
def canBegin (m : Chip) (now c sof : Nat) (ecc : Bool) : Chip :=
  let x := canOf m c
  if !canEn m c || !x.ready || 2 ≤ x.st || m.pwr.mode ≠ .run || x.begun.isSome || now < x.holdOff || !canSends m c then m
  else
    match candidate x with
    | none => m
    | some f =>
      if ecc then headDone m now c f 0x14 0
      else updCan m c fun y => { y with
        begun := some f
        fifos := lset y.fifos f fun l => lset l 0 fun z => { z with attempts := z.attempts + 1, sof := onCycle now sof } }

/-! ### Receiving (R470-R474) -/

/-- Filter `f` accepts an identifier. -/
def fltHit (m : Chip) (c f ident : Nat) (ide : Bool) : Bool :=
  let w := rdN m (A.CAN_FLT_ID c f)
  let k := fld m (A.CAN_FLT_MASK c f) 0 29
  bit w 30 && bit w 29 == ide && Nat.land (bits w 0 29) k == Nat.land ident k

/-- Destination of a frame and the filter that gave it (R470). -/
def canDest (m : Chip) (c ident : Nat) (ide : Bool) : Nat × Option Nat :=
  match (List.range 32).find? fun f => fltHit m c f ident ide with
  | some f => (fld m (A.CAN_FLT_MASK c f) 30 2, some f)
  | none => (fld m (A.CAN_CH_CFG c) 7 2, none)

/-- The next free buffer in ring order after the one filled last (R471). -/
def freeBuf (m : Chip) (c : Nat) : Option Nat :=
  let n := rxBufs m c
  ((List.range n).map fun k => ((canOf m c).next + k) % n).find? fun b => !(bufOf m c b).valid && (bufOf m c b).due.isNone && (bufOf m c b).lock.isNone

/-- A CAN_FRAME record (R485). -/
def canFrameRec (m : Chip) (c sent who : Nat) (ident : Nat) (ide : Bool) (fmt len sof eof : Nat) : Chip :=
  if flag m (A.CAN_CH_CFG c) 9 then
    emit m 0x0703 (srcId 7 c) eof
      [(4, ident + b2n ide * 2 ^ 29 + fmt * 2 ^ 30), (4, (eof - sof) % 2 ^ 32), (2, len), (1, sent), (1, who)]
  else m

/-- A frame in a receive buffer becomes valid for its destinations (R471). -/
def bufShow (m : Chip) (c i : Nat) : Chip :=
  match (bufOf m c i).due with
  | some d => updBuf m c i fun b => { b with host := d.1, sge := d.2, due := none }
  | none => m

/-- Take in a frame that ended without error (R454, R470-R472, R485): its buffer becomes valid in the cycle after that of its EOF stamp. -/
def canAccept (m : Chip) (now c : Nat) (b : RxBuf) : Chip :=
  let m := bump m (A.rx_ok c) 1
  let (dest, flt) := canDest m c b.ident b.ide
  let filter := flt.getD (freeVal m % 32)
  let m := if flt.isNone then useFree m else m
  let m := canFrameRec m c 0 filter b.ident b.ide b.fmt b.data.length b.sof b.eof
  if dest = 0 then m
  else if slotRoom m c < b.data.length then bump m (A.rx_too_long c) 1
  else
    match freeBuf m c with
    | none => canEvt (bump m (A.rx_overflow c) 1) c 2
    | some i =>
      let m := updBuf m c i fun o => { b with
        gen := (o.gen + 1) % 256, filter := filter, due := some (bit dest 0, bit dest 1), lock := none, broken := false }
      let m := updCan m c fun x => { x with next := i + 1 }
      let at_ := b.eof + cyc
      if now < at_ && coreOn m then later m at_ (.canRx c i) else bufShow m c i

/-- REC after a frame received without error, as ISO 11898-1 states: above 127 it takes a value from 119 to 127 (log entry 21). -/
def recDown (m : Chip) (rec_ : Nat) : Nat := if 127 < rec_ then 119 + freeVal m % 9 else rec_ - 1

/-- A frame from the bus ends (R471). -/
def canReceive (m : Chip) (now c : Nat) (b : RxBuf) : Chip :=
  let x := canOf m c
  if !canEn m c || !x.ready || 2 ≤ x.st || (canOpmode m c = 2 && !chanGuarded m c) || !canLenOk b.fmt b.data.length || b.fmt = 3
      || (b.fmt = 1 && !flag m (A.CAN_CH_CFG c) 3) || (b.fmt = 2 && !flag m (A.CAN_CH_CFG c) 4) then m
  else
    let m := canCounters m now c x.tec (recDown m x.rec_)
    canAccept (if 127 < x.rec_ then useFree m else m) now c { b with sof := onCycle now b.sof, eof := onCycle now b.eof }

/-- The message at hand has been sent without error (R468, R484, R528); in internal loopback the TX ball stays recessive (R463). -/
def canSent (m : Chip) (now c eof : Nat) : Chip :=
  let x := canOf m c
  match x.begun with
  | none => m
  | some f =>
    match (fifoOf x f).head? with
    | none => m
    | some y =>
      let m := suspendTx (updCan m c fun z => { z with begun := none }) now c
      let m := canCounters (bump m (A.tx_ok c) 1) now c (x.tec - 1) x.rec_
      let eof := onCycle now eof
      let m := if canOpmode m c = 2 then m else say m (.bus c (y.ident + b2n y.ide * 2 ^ 29 + b2n y.rtr * 2 ^ 30)
        (y.fmt + 4 * b2n y.brs + y.data.length * 16 + y.sdt * 65536 + y.vcid * 2 ^ 24 + b2n y.sec * 2 ^ 32) y.af y.data)
      let m := canFrameRec m c 1 f y.ident y.ide y.fmt y.data.length y.sof eof
      let m := headDone m now c f 0 eof
      if canOpmode m c = 2 then
        canAccept m now c
          { ident := y.ident, ide := y.ide, rtr := y.rtr, fmt := y.fmt, brs := y.brs, sdt := y.sdt, vcid := y.vcid, af := y.af
            data := y.data, sof := y.sof, eof := eof }
      else m

/-- Bytes 4-31 of a delivered element after status, filter and index (R499). -/
def canRxRec (b : RxBuf) (status idx : Nat) : List Byte :=
  packLe [(1, status), (1, b.filter), (2, idx), (4, elemWord b 1), (4, elemWord b 2), (4, b.af), (8, b.sof), (8, b.eof)]

/-- The host's frame of a channel that is the oldest, and the state in which it has been consumed (R473, R474). -/
def rxTakeHost (m : Chip) (c : Nat) (ecc : Bool) : Option (RxBuf × Chip) :=
  if c < 16 then
    match oldestBuf m c (·.host) with
    | some (i, b) => some (b, if ecc then bufEcc m c i else updBuf m c i fun x => { x with host := false })
    | none => none
  else
    match (linOf m (c - 16)).rx.findIdx? (·.host) with
    | some k =>
      ((linOf m (c - 16)).rx[k]?).map fun b =>
        (b, updLin m (c - 16) fun x => { x with rx := (lset x.rx k fun b => { b with host := false }).filter (·.valid) })
    | none => none

/-- Move the oldest frame of a channel into its CAN RX ring (R474, R496, R499). -/
def canDeliver (m : Chip) (now c r : Nat) (d : List Byte) (ecc : Bool) : Chip :=
  let d := if 2 ≤ ringOwner m r then innerRead m (slotAddr m r (ringOf m r).head) 32 else d
  if (c < 16 && (flag m (A.CAN_CH_CFG c) 6 || r ≠ fld m (A.CAN_CH_CFG c) 24 6)) || m.pwr.mode ≠ .run || ringType m r ≠ 3
      || !ringRuns m r || (ringOf m r).stopping || ringFill m r = 0 || !cplFree m r || !spaceOk m (ringSpace m r) then m
  else
    match rxTakeHost m c (ecc && c < 16) with
    | none => m
    | some (b, m) =>
      if ecc && c < 16 then m
      else
        let (m, ok) := judgeCrossing m now ⟨chanZone m c, ringZone m r, b.ident, b.ide, b.fmt, if c < 16 then c else c - 16, 0⟩
        if !ok then m
        else
          let i := (ringOf m r).head
          let m := cplReserve (passHead m r 1) r
          let pay := (if b.fmt = 2 then leBytes 4 b.af else []) ++ b.data
          if leNat (slice d 8 4) < pay.length || leNat (slice d 12 20) ≠ 0 then postCpl m now r (canRxRec b 0x12 i) false
          else
            let m := memStore (bump (bump m A.transfers 1) A.write_bytes pay.length) (ringSpace m r) (leNat (slice d 0 8)) pay
            postCpl m now r (canRxRec b 0 i) false

/-! ### Register writes -/

/-- CAN or LIN page and offset of an address. -/
def canPage (a : Nat) : Option (Nat × Nat) :=
  if 0x40D01000 ≤ a && a < 0x40D03000 then some ((a - 0x40D01000) / 0x200, (a - 0x40D01000) % 0x200) else none

def linPage (a : Nat) : Option (Nat × Nat) :=
  if 0x40E01000 ≤ a && a < 0x40E01800 then some ((a - 0x40E01000) / 0x100, (a - 0x40E01000) % 0x100) else none

/-- Why a write to a CAN register is refused beyond its field ranges, as in `CAN_ERR_CAPTURE` (R469, R504). -/
def canCheck (m : Chip) (a : Nat) : Nat :=
  if a = A.CAN_TX_CANCEL then (if m.cl.cancel.isSome then 4 else 0)
  else
    match canPage a with
    | some (c, off) => if (off = 4 || off = 8) && canEn m c then 3 else 0
    | none => 0

/-- What a write to a CAN register does beside storing its fields. -/
def canEffect (m : Chip) (now a old new data : Nat) : Chip :=
  if a = A.CAN_TX_CANCEL then wrN { m with cl := { m.cl with cancel := some (now, data) } } A.CAN_CANCEL_STATUS (Nat.lor 1 (rdN m A.CAN_CANCEL_STATUS))
  else
    match canPage a with
    | some (c, off) =>
      if off = 0 then
        if bit new 0 && !bit old 0 then updCan m c fun x => { x with st := 0, tec := 0, rec_ := 0, ready := false, begun := none, holdOff := 0 }
        else m
      else if off = 0x24 then
        if bit data 0 && (canOf m c).st = 2 && flag m (A.CAN_CH_CFG c) 5 then canRecovering m c else m
      else m
    | none => m

/-! ### LIN (R489-R495) -/

/-- A wake-up, or a sleep, with its record: 0 sleep entered, 1 wake sent, 2 wake received. -/
def linSleepRec (m : Chip) (now n kind : Nat) : Chip := emit m 0x0802 (srcId 8 n) now [(1, kind)]

/-- Set `asleep` (R494). -/
def linSleep (m : Chip) (now n : Nat) : Chip :=
  linSleepRec (linEvt (setF (updLin m n fun x => { x with running := false, cur := none }) (A.LIN_STATUS n) 0 1 1) n 1) now n 0

/-- An error in a LIN frame (R493). -/
def linErr (m : Chip) (now n err ident : Nat) : Chip :=
  let m := emit m 0x0801 (srcId 8 n) now [(1, err), (1, ident)]
  let m := bump m (if err = 3 then A.no_response n else A.lin_errors n) 1
  linEvt (setF m (A.LIN_STATUS n) 9 3 err) n 0

def linDir (m : Chip) (n i : Nat) : Nat := fld m (A.LIN_FRAME n i) 0 2

def linLen (m : Chip) (n i : Nat) : Nat := fld m (A.LIN_FRAME n i) 2 4

/-- The bytes a channel sends for an identifier: what was loaded; bytes beyond it are not stated (log entry 20). -/
def linBytes (m : Chip) (n i : Nat) (x : CMsg) : List Byte :=
  (List.range (linLen m n i)).map fun k => x.data.getD k (BitVec.ofNat 8 (freeVal m / 256 ^ k))

/-- The protected identifier of LIN, with its two parity bits (R490; PRESUMED, ISO 17987). -/
def linPid (i : Nat) : Nat :=
  let p := fun l => (l.foldl (fun a k => a + b2n (bit i k)) 0) % 2
  i + p [0, 1, 2, 4] * 64 + (1 - p [1, 3, 4, 5]) * 128

/-- The checksum of a LIN response: the inverted sum with carry of the data, with the protected identifier in the enhanced model; 60-63 take
the classic model (R491; the sums PRESUMED, ISO 17987). -/
def linSum (m : Chip) (n i : Nat) (data : List Byte) : Nat :=
  let pid := if flag m (A.LIN_FRAME n i) 6 && i < 60 then linPid i else 0
  let s := data.foldl (fun a b => a + b.toNat) pid
  255 - (if s = 0 then 0 else (s - 1) % 255 + 1)

/-- A LIN response on the bus: the data and its checksum. -/
def linSay (m : Chip) (n i : Nat) (data : List Byte) : Chip := say m (.bus (16 + n) i 3 0 (data ++ [BitVec.ofNat 8 (linSum m n i data)]))

/-- The commander's header: break, sync byte and protected identifier (R490). -/
def linHead (m : Chip) (n i : Nat) : Chip := say m (.linHeader n (fld m (A.LIN_CH_CFG n) 21 5 + 3) (linPid i))

/-- A header is out, its break having fallen at `sof`: send the published response, or wait for the one of another node (R490, R492). -/
def linHeader (m : Chip) (now sof n i : Nat) : Chip :=
  let m := updLin m n fun x => { x with lastAct := now }
  match if linDir m n i = 1 && !chanGuarded m (16 + n) then sget (linOf m n).pubs i else none with
  | some x =>
    let m := linSay m n i (linBytes m n i x)
    let m := if x.data.length < linLen m n i then useFree m else m
    updLin m n fun y => { y with cur := some (i, sof, true), pubs := sput y.pubs i { x with attempts := x.attempts + 1, sof := sof } }
  | none => updLin m n fun y => { y with cur := some (i, sof, false) }

/-- The request that loaded the data just sent completes (R492); the data stays loaded. -/
def linReqDone (m : Chip) (now n i status eof : Nat) : Chip :=
  match sget (linOf m n).pubs i with
  | some x =>
    if x.ring.isSome then
      msgDone (updLin m n fun y => { y with pubs := sput y.pubs i { x with ring := none } }) now (16 + n) status eof x
    else m
  | none => m

/-- The next slot of a table after slot `k` (R489). -/
def linNext (k : Nat) : Nat := (k + 1) % 64

/-- A slot starts (R489, R494). -/
def linSlot (m : Chip) (now n : Nat) : Chip :=
  let x := linOf m n
  let cmd := rdN m (A.LIN_SCHED_CMD n)
  if !linEn m n || !flag m (A.LIN_CH_CFG n) 1 || m.pwr.mode ≠ .run || !x.running || now < x.nextAt then m
  else if !bit cmd 2 then updLin m n fun y => { y with running := false }
  else
    let change := x.table ≠ bits cmd 0 2
    let tb := bits cmd 0 2
    let m := if change then linEvt m n 3 else m
    let k := if change || fld m (A.LIN_SLOT n tb x.slot) 8 8 = 0 then 0 else x.slot
    let w := rdN m (A.LIN_SLOT n tb k)
    let m := updLin m n fun y => { y with table := tb, slot := linNext k, nextAt := now + bits w 8 8 * ms, cur := none }
    let m := setF (setF m (A.LIN_STATUS n) 1 2 tb) (A.LIN_STATUS n) 3 6 k
    if bits w 8 8 = 0 || chanGuarded m (16 + n) then m
    else if bits w 6 2 = 3 then
      let m := linSay (linHead m n 0x3C) n 0x3C (0x00 :: List.replicate 7 0xFF)
      linSleep (updLin m n fun y => { y with lastAct := now }) now n
    else
      let i := if bits w 6 2 = 1 then 0x3C else if bits w 6 2 = 2 then 0x3D else bits w 0 6
      linHeader (linHead m n i) now now n i

/-- The error of the frame in progress: what the receiver saw, 0, 1 bit or 4 framing, or 2 where the checksum of a response that the channel
receives is not that of its data. -/
def linFault (m : Chip) (n err sum : Nat) (data : List Byte) : Nat :=
  match (linOf m n).cur with
  | some (i, _, false) => if err = 0 && linSum m n i data ≠ sum then 2 else err
  | _ => err

/-- The frame in progress ends (R493, R494): the error is 0, 1 bit, 2 checksum or 4 framing. -/
def linEnd (m : Chip) (now n err : Nat) (data : List Byte) (eof : Nat) : Chip :=
  match (linOf m n).cur with
  | none => m
  | some (i, sof, pub) =>
    let m := updLin m n fun x => { x with cur := none, lastAct := now }
    let eof := onCycle now eof
    if err ≠ 0 then
      let m := linErr m now n err i
      if pub && err = 1 then linReqDone m now n i 0x82 0 else m
    else if pub then linReqDone (bump m (A.frames_ok n) 1) now n i 0 eof
    else
      let dest := if linDir m n i = 2 && data.length = linLen m n i then fld m (A.LIN_FRAME n i) 7 2 else 0
      let m := if linDir m n i = 2 && data.length = linLen m n i then bump m (A.frames_ok n) 1 else m
      let m := if dest = 0 then m
        else updLin m n fun x => { x with rx := x.rx ++ [{ ident := i, fmt := 3, data := data, sof := sof, eof := eof, host := bit dest 0, sge := bit dest 1 }] }
      if i = 0x3C && data = 0x00 :: List.replicate 7 0xFF && !flag m (A.LIN_CH_CFG n) 1 then linSleep m now n else m

/-- LT after which a response has not ended in time (R493): 1.4 times the nominal 34 + 10 (n + 1) bits. -/
def linLimit (m : Chip) (n i : Nat) : Nat :=
  cdiv (14 * (34 + 10 * (linLen m n i + 1)) * 2000000000) (10 * fld m (A.LIN_CH_CFG n) 7 14)

/-- Send a wake-up signal (R495). -/
def linWake (m : Chip) (now n : Nat) : Chip :=
  let e := now + fld m (A.LIN_CH_CFG n) 26 6 * 250 * us
  let m := updLin m n fun x => { x with wakeEnd := e, lastAct := now, resumeAt := if flag m (A.LIN_CH_CFG n) 1 then some (e + 100 * ms) else none }
  let m := setF (say m (.pin "LIN_WAKE" n)) (A.LIN_STATUS n) 0 1 0
  linSleepRec m now n 1

/-- What a write to a LIN register does beside storing its fields: the schedule (R489), the wake-up, the channel enable. -/
def linEffect (m : Chip) (now a old new data : Nat) : Chip :=
  match linPage a with
  | some (n, off) =>
    if off = 0 then
      if bit new 0 && !bit old 0 then updLin m n fun x => { x with lastAct := now, cur := none, running := false } else m
    else if off = 4 then
      let m := if bit data 3 then clrR m a 8 else m
      let m := if bit new 2 && !(linOf m n).running && !flag m (A.LIN_STATUS n) 0 then
          updLin m n fun x => { x with running := true, table := bits new 0 2, slot := 0, nextAt := now }
        else m
      if bit data 3 && linEn m n && !chanGuarded m (16 + n) then linWake m now n else m
    else m
  | none => m

/-- The word of `LIN_SCHED_CMD`: `wake` clears when the signal has been sent. -/
def linSched (m : Chip) (now n : Nat) : Nat := rdN m (A.LIN_SCHED_CMD n) + 8 * b2n (now < (linOf m n).wakeEnd)

end Sys2Proof.Machine
end

