-- ==== Sys2Proof/Machine/Sge.lean ====
section
/-! DEFINITION. The signal gateway engine (12): PDU matching, signal routes, frame routes, emission, Ethernet framing, SecOC and the
SGE's tables; and the end of a copy's transmission, which brings frames to it. -/

namespace Sys2Proof.Machine

/-! ### Tables -/

def updSge (m : Chip) (f : SgeSt → SgeSt) : Chip := { m with sge := f m.sge }

/-- The SGE tables of a bank. -/
def sgeTabs (m : Chip) (bank : Nat) : SgeTabs := if bank = 0 then m.sge.tabA else m.sge.tabB

/-- The SGE tables in force. -/
def sgeNow (m : Chip) : SgeTabs := sgeTabs m m.cfg.active

/-- A table by its number in `SGE_TBL_CMD`. -/
def SgeTabs.get (t : SgeTabs) : Nat → List (Nat × Nat)
  | 0 => t.pdu | 1 => t.route | 3 => t.froute | 4 => t.tmpl | 5 => t.prof | 7 => t.bus | _ => []

def SgeTabs.set (t : SgeTabs) (k : Nat) (l : List (Nat × Nat)) : SgeTabs :=
  match k with
  | 0 => { t with pdu := l } | 1 => { t with route := l } | 3 => { t with froute := l } | 4 => { t with tmpl := l }
  | 5 => { t with prof := l } | 7 => { t with bus := l } | _ => t

/-- Entries of a table, and bytes of an entry. -/
def sgeCount (k : Nat) : Nat := [2048, 8192, 8192, 1024, 256, 1024, 16384, 32].getD k 0

def sgeBytes (k : Nat) : Nat := [32, 64, 32, 8, 96, 16, 16, 4].getD k 0

def sgeEnt (l : List (Nat × Nat)) (i : Nat) : Nat := (sget l i).getD 0

def pduOf (m : Chip) (i : Nat) : Nat := sgeEnt (sgeNow m).pdu i

/-! Fields of a PDU definition (R507). -/

def pValid (e : Nat) : Bool := bit e 0

def pTx (e : Nat) : Bool := bit e 1

def pKind (e : Nat) : Nat := bits e 2 3

def pChan (e : Nat) : Nat := bits e 5 5

def pIde (e : Nat) : Bool := bit e 10

def pFmt (e : Nat) : Nat := if pKind e = 1 then 3 else bits e 11 2

def pBrs (e : Nat) : Bool := bit e 13

def pFifo (e : Nat) : Nat := bits e 14 2

def pSecoc (e : Nat) : Bool := bit e 16

def pKey0 (e : Nat) : Nat := bits e 32 29

def pKey1 (e : Nat) : Nat := bits e 64 32

def pLen (e : Nat) : Nat := bits e 96 12

def pImg (e : Nat) : Nat := bits e 112 14 * 16

def pPeriod (e : Nat) : Nat := bits e 128 32

def pPhase (e : Nat) : Nat := bits e 160 32

def pGap (e : Nat) : Nat := bits e 192 16

def pTmpl (e : Nat) : Nat := bits e 208 8

def pProf (e : Nat) : Nat := bits e 224 10

/-! Fields of a SecOC profile. -/

def sKey (e : Nat) : Nat := bits e 0 8

def sMac (e : Nat) : Nat := bits e 8 8

def sFv (e : Nat) : Nat := bits e 16 8

def sValid (e : Nat) : Bool := bit e 24

def sId (e : Nat) : Nat := bits e 32 16

def sWindow (e : Nat) : Nat := bits e 64 32

/-- Bytes of a PDU before its SecOC trailer (R535). -/
def authLen (t : SgeTabs) (e : Nat) : Nat :=
  let p := sgeEnt t.prof (pProf e)
  if pSecoc e then pLen e - (sFv p + sMac p) else pLen e

/-! ### Signals (R509-R511) -/

/-- The bits of a signal in LSB0 positions, the least significant first (R509). -/
def sigBits (start : Nat) (bigEndian msb0 : Bool) (n : Nat) : List Nat :=
  let p0 := if msb0 then start / 8 * 8 + (7 - start % 8) else start
  if bigEndian then ((List.range n).foldl (fun (a : List Nat × Nat) _ => (a.2 :: a.1, if a.2 % 8 = 0 then a.2 + 15 else a.2 - 1)) ([], p0)).1
  else (List.range n).map (p0 + ·)

/-- Source and destination bits of a route. -/
def rSrcBits (e : Nat) : List Nat := sigBits (bits e 32 14) (bit e 46) (bit e 47) (bits e 48 7)

def rDstBits (e : Nat) : List Nat := sigBits (bits e 64 14) (bit e 78) (bit e 79) (bits e 56 7)

def rSrc (e : Nat) : Nat := bits e 1 11

def rDst (e : Nat) : Nat := bits e 12 11

def rTmo (e : Nat) : Nat := bits e 384 32

def rFlagEn (e : Nat) : Bool := bit e 430

def rFlag (e : Nat) : Nat := bits e 416 14

/-- All of some bits lie within `n` bytes. -/
def bitsWithin (l : List Nat) (n : Nat) : Bool := l.all fun p => p / 8 < n

/-- The number that bits of a payload spell. -/
def extract (data : List Byte) (l : List Nat) : Nat :=
  l.foldr (fun p a => b2n (bit (byteAt data (p / 8)) (p % 8)) + 2 * a) 0

/-- The raw destination value of a route, with `saturated` and `invalid` (R511). -/
def rescale (e raw : Nat) : Nat × Bool × Bool :=
  let n := bits e 56 7
  if bit e 25 && raw = bits e 192 64 then (bits e 256 64 % 2 ^ n, false, true)
  else
    let x : Int := if bit e 23 then sgn raw (bits e 48 7) else (raw : Int)
    let y := x * sgn (bits e 96 32) 32 / ((2 ^ bits e 80 6 : Nat) : Int) + sgn (bits e 128 64) 64
    let lo : Int := if bit e 24 then -((2 ^ (n - 1) : Nat) : Int) else 0
    let hi : Int := if bit e 24 then ((2 ^ (n - 1) : Nat) : Int) - 1 else ((2 ^ n : Nat) : Int) - 1
    let z := if y < lo then lo else if hi < y then hi else y
    (enc z n, y < lo || hi < y, false)

/-- Bytes of the image RAM. -/
def imgRead (m : Chip) (o n : Nat) : List Byte := (List.range n).map fun i => (sget m.sge.img (o + i)).getD 0

def imgWrite (m : Chip) (o : Nat) (l : List Byte) : Chip := updSge m fun s => { s with img := memPut s.img o l }

/-- Put one bit at a position of an image. -/
def imgBit (m : Chip) (o p : Nat) (b : Bool) : Chip :=
  let a := o + p / 8
  updSge m fun s =>
    { s with img := sputD s.img 0 a (BitVec.ofNat 8 (setBits ((sget s.img a).getD 0).toNat (p % 8) 1 (b2n b))) }

/-- Insert a value at some bits of an image. -/
def imgInsert (m : Chip) (o : Nat) (l : List Nat) (v : Nat) : Chip :=
  (l.zipIdx).foldl (fun m x => imgBit m o x.1 (bit v x.2)) m

/-- The image of a PDU. -/
def image (m : Chip) (i : Nat) : List Byte := imgRead m (pImg (pduOf m i)) (pLen (pduOf m i))

def addNew (l : List Nat) (i : Nat) : List Nat := if l.contains i then l else l ++ [i]

def rtOf (m : Chip) (r : Nat) : RtSt := (sget m.sge.rt r).getD {}

def updRt (m : Chip) (r : Nat) (f : RtSt → RtSt) : Chip :=
  updSge m fun s => { s with rt := sputD s.rt {} r (f ((sget s.rt r).getD {})), rtDirty := addNew s.rtDirty r }

def txOf (m : Chip) (i : Nat) : SgeTx := (sget m.sge.tx i).getD {}

def updTx (m : Chip) (i : Nat) (f : SgeTx → SgeTx) : Chip :=
  updSge m fun s => { s with tx := sputD s.tx {} i (f ((sget s.tx i).getD {})) }

/-! ### Freshness (R536, R540) -/

def freshOf (m : Chip) (i : Nat) : Nat × Bool := (sget m.sge.fresh i).getD (0, false)

def setFresh (m : Chip) (i : Nat) (x : Nat × Bool) : Chip :=
  updSge m fun s => { s with fresh := sputD s.fresh (0, false) i x, frDirty := addNew s.frDirty i }

/-- A counter serves a transmit PDU. -/
def freshTx (m : Chip) (i : Nat) : Bool := (sgeNow m).pdu.any fun p => pValid p.2 && pTx p.2 && pSecoc p.2 && pProf p.2 = i

/-- Raise and arm a counter; it never reaches 2^64 - 1 (R540). -/
def raiseFresh (m : Chip) (i v : Nat) : Chip := setFresh m i (min (2 ^ 64 - 2) (max (freshOf m i).1 v), true)

/-- The transmit counters in use. -/
def txCounters (m : Chip) : List Nat :=
  (((sgeNow m).pdu.filter fun p => pValid p.2 && pTx p.2 && pSecoc p.2).map fun p => pProf p.2).dedup

/-- Raise every transmit counter by an amount at a takeover (R542, R761). -/
def freshSkip (m : Chip) (k : Nat) : Chip :=
  (txCounters m).foldl (fun m i => setFresh m i (min (2 ^ 64 - 2) ((freshOf m i).1 + k), (freshOf m i).2)) m

/-! ### SecOC (R535-R539) -/

/-- Why the Mint cannot compute a CMAC for a profile, as its status; 0 if it can (R412, R368). -/
def secKey (m : Chip) (p : Nat) (tx : Bool) : Nat :=
  match if sValid p then slotOf m (sKey p) else none with
  | none => 0x03
  | some k =>
    if !domOn m 15 then 0x05
    else if !bit k.policy (20 + m.life) then 0x15
    else if !bit k.policy 30 || !bit k.policy 9 || !bit k.policy (if tx then 14 else 15) || bits k.policy 1 2 = 3 then 0x11
    else 0

/-- An authentication waits in the Teller: cores are healthy and none of the general pool may take it (R32). -/
def secWaits (m : Chip) : Bool := poolEmpty m && !noUnit m false

/-- Why a MAC cannot be computed: the key's reason, or NO_CORE (R365). -/
def secUnit (m : Chip) (p : Nat) (tx : Bool) : Nat :=
  let st := secKey m p tx
  if st = 0 && noUnit m false then 0x83 else st

/-- The truncated CMAC of a profile over an authentic part and a freshness value (R535). -/
def secMac (m : Chip) (p : Nat) (auth : List Byte) (c : Nat) : List Byte :=
  (Config.crypto "AES-CMAC" (((slotOf m (sKey p)).map (·.key)).getD []) [beBytes 2 (sId p) ++ auth ++ beBytes 8 c] 16).take (sMac p)

/-- A record that `SGE_LOG` limits (R549). -/
def sgeLog (m : Chip) (now typ src : Nat) (pay : List (Nat × Nat)) : Chip :=
  if logFits m.sge.logWin now (fld m A.SGE_LOG 0 16) then
    emit (updSge m fun s => { s with logWin := logCount s.logWin now }) typ src now pay
  else setIrq (bump m A.sge_log_lost 1) .sge 6

/-- A SECOC_FAIL record. -/
def secFail (m : Chip) (now i cause status c : Nat) : Chip := sgeLog m now 0x0902 0x0901 [(2, i), (1, cause), (1, status), (8, c)]

/-- Refuse a secured transmit PDU (R537). -/
def macUnavail (m : Chip) (now i cause status c : Nat) : Chip :=
  secFail (setIrq (bump m A.mac_unavail 1) .sge 2) now i cause status c

/-- The freshness value of a received PDU (R538). -/
def freshValue (l fv r : Nat) : Nat :=
  if fv = 8 then r
  else if fv = 0 then l + 1
  else
    let n := 8 * fv
    let c := l / 2 ^ n * 2 ^ n + r
    if l < c then c else c + 2 ^ n

/-! ### Ethernet framing (R529, R530) -/

/-- Offset of the UDP header after an IPv6 header, extension headers included. -/
def v6Off (l : List Byte) : Nat → Nat → Nat → Nat
  | 0, _, o => o
  | k + 1, nh, o =>
    if nh ∈ [0, 43, 44, 60] then v6Off l k (byteAt l o) (o + if nh = 44 then 8 else (byteAt l (o + 1) + 1) * 8) else o

/-- Offset of a frame's transport header. -/
def l4Off (l : List Byte) (p : Parsed) : Nat :=
  if p.h.v6 then v6Off l 2 (byteAt l (p.h.mac + 6)) (p.h.mac + 40) else p.h.mac + byteAt l p.h.mac % 16 * 4

/-- Replace bytes at an offset. -/
def splice (l : List Byte) (o : Nat) (b : List Byte) : List Byte := l.take o ++ b ++ l.drop (o + b.length)

/-- One's complement sum of 16-bit words in network byte order. -/
def sum1c : List Byte → Nat
  | a :: b :: r => add1c (a.toNat * 256 + b.toNat) (sum1c r)
  | [a] => a.toNat * 256
  | [] => 0

/-- The header of a template, and whether it is of kind 3. -/
def tmplHdr (e : Nat) : List Byte := slice (leBytes 96 e) 4 (bits e 0 16)

/-- The parse of a template's header, as of a frame whose payload follows. -/
def tmplParse (m : Chip) (e : Nat) : Parsed := parse m (tmplHdr e ++ List.replicate 256 0) false

/-- Frames handed to the fabric are padded to the least Ethernet frame. -/
def leastFrame (l : List Byte) : List Byte := l ++ List.replicate (60 - l.length) 0

/-- A SOME/IP frame of a template (R529): identification and session ID are those of this frame. -/
def someipFrame (m : Chip) (e ident session : Nat) (pay : List Byte) : List Byte :=
  let h := tmplHdr e
  let p := tmplParse m e
  let u := l4Off h p
  let o := p.h.mac
  let n := h.length + pay.length
  let h := splice h (u + 12) (beBytes 4 (8 + pay.length))
  let h := splice h (u + 18) (beBytes 2 session)
  let h := splice h (u + 4) (beBytes 2 (n - u) ++ [0, 0])
  if p.h.v6 then
    let h := splice h (o + 4) (beBytes 2 (n - o - 40))
    let s := 65535 - sum1c (slice h (o + 8) 32 ++ beBytes 4 (n - u) ++ beBytes 4 17 ++ h.drop u ++ pay)
    splice h (u + 6) (beBytes 2 (if s = 0 then 65535 else s)) ++ pay
  else
    let h := splice (splice h (o + 2) (beBytes 2 (n - o))) (o + 4) (beBytes 2 ident)
    let h := splice h (o + 10) [0, 0]
    splice h (o + 10) (beBytes 2 (65535 - sum1c (slice h o (u - o)))) ++ pay

/-- An NTSCF frame with one ACF CAN message (R530): layout of IEEE 1722 (log entry 10). -/
def ntscfFrame (m : Chip) (e seq : Nat) (x : SgeMsg) (bus : Nat) (ts : Nat) : List Byte :=
  let h := tmplHdr e
  let o := (tmplParse m e).h.mac
  let pad := (4 - x.data.length % 4) % 4
  let n := 16 + x.data.length + pad
  let h := splice h (o + 1) [BitVec.ofNat 8 (byteAt h (o + 1) / 8 * 8 + n / 256), BitVec.ofNat 8 n, BitVec.ofNat 8 seq]
  let fl := pad * 64 + 32 + 16 * b2n x.rtr + 8 * b2n x.ide + 4 * b2n (x.fmt = 1 && x.brs) + 2 * b2n (x.fmt = 1)
  h ++ beBytes 2 (1 * 512 + n / 4) ++ beBytes 1 fl ++ beBytes 1 bus ++ beBytes 8 ts ++ beBytes 4 x.ident ++ x.data
    ++ List.replicate pad 0

/-! ### Emission (R522-R528) -/

/-- The SGE runs, and the standby state (R542, R546). -/
def sgeRuns (m : Chip) : Bool := flag m A.SGE_CTRL 0 && m.pwr.mode == .run

def sgeStandby (m : Chip) : Bool := flag m A.PAIR_CFG 0 && !m.pair.active

/-- A PDU has an emission pending, its Mint job included. -/
def isPending (m : Chip) (i : Nat) : Bool :=
  (m.sge.pend.any fun p => p.pdu == i && p.frame.isNone) || m.sge.macs.any fun x => x.pdu == i

/-- The SGE's queue of 64 frames to port 23 is full (R527). -/
def fabricFull (m : Chip) : Bool := 64 ≤ (m.tm.frames.filter fun f => f.port == 23 && f.phase == .arriving && !f.dead).length

/-- Place a CAN message that the SGE builds, or end it where the channel refuses it (R454, R463, R528). -/
def sgeCan (m : Chip) (now c f : Nat) (x : SgeMsg) : Option Chip :=
  if !fifoRoom m c f then none
  else
    let msg : CMsg := { ident := x.ident, ide := x.ide, rtr := x.rtr, fmt := x.fmt, brs := x.brs, tag := 0xFFFF, data := x.data,
                        ring := none }
    if slotRoom m c < x.data.length || !canSends m c || (x.fmt = 1 && !flag m (A.CAN_CH_CFG c) 3)
        || (x.fmt = 2 && !flag m (A.CAN_CH_CFG c) 4) then
      some (msgDone m now c 0x12 0 msg)
    else some (canPlace m now c f msg)

/-- Hand a frame towards the fabric over at port 23 (R526). -/
def sgeFabric (m : Chip) (now : Nat) (l : List Byte) : Chip := hostFrame m now 23 (leastFrame l) false

/-- The next identification and sequence number of a template. -/
def tmplNext (m : Chip) (k : Nat) (kind3 : Bool) : Nat × Chip :=
  let x := (sget m.sge.tmpl k).getD (0, 0)
  let y := if kind3 then (x.1, (x.2 + 1) % 256) else ((x.1 + 1) % 65536, x.2)
  (if kind3 then x.2 else x.1, updSge m fun s => { s with tmpl := sputD s.tmpl (0, 0) k y })

/-- Hand off a transmit PDU with a payload, if its place has room (R526, R527): `x` is the frame for kinds 0, 1 and 3. -/
def handOff (m : Chip) (now i : Nat) (x : SgeMsg) : Option Chip :=
  let e := pduOf m i
  match pKind e with
  | 0 => sgeCan m now x.chan (pFifo e) x
  | 1 =>
    some (linLoad m now (x.chan - 16) { ident := x.ident % 64, fmt := 3, tag := 0xFFFF, data := x.data, ring := none })
  | 2 =>
    if fabricFull m then none else
    let (ident, m) := tmplNext m (pTmpl e) false
    let ses := (txOf m i).session % 65535 + 1
    let m := updTx m i fun t => { t with session := ses }
    some (sgeFabric m now (someipFrame m (sgeEnt (sgeNow m).tmpl (pTmpl e)) ident ses x.data))
  | _ =>
    if fabricFull m then none else
    let (seq, m) := tmplNext m (pTmpl e) true
    let ts := workNs m x.stamp % 2 ^ 64
    some (sgeFabric m now (ntscfFrame m (sgeEnt (sgeNow m).tmpl (pTmpl e)) seq x (bits (pKey1 e) 0 5) ts))

/-- The frame that a PDU's payload makes. -/
def pduMsg (m : Chip) (now i : Nat) (data : List Byte) : SgeMsg :=
  let e := pduOf m i
  { kind := pKind e, chan := pChan e, ident := if pKind e = 1 then pKey0 e % 64 else pKey0 e, ide := pIde e, fmt := pFmt e, brs := pBrs e,
    data := data, stamp := now }

/-- A hand-off was made: it is the PDU's last emission and satisfies a pending trigger (R523, R524). -/
def emitted (m : Chip) (now i : Nat) : Chip := updTx (bump m A.emitted 1) i fun t => { t with last := some now, due := none }

/-- Place a PDU's emission, or leave it pending (R527). -/
def placePdu (m : Chip) (now i : Nat) (data : List Byte) : Chip :=
  match handOff m now i (pduMsg m now i data) with
  | some m => emitted m now i
  | none => updTx (bump (updSge m fun s => { s with pend := s.pend ++ [⟨i, none⟩] }) A.fifo_wait 1) i fun t => { t with due := none }

/-- There is room for a PDU's emission now. -/
def hasRoom (m : Chip) (e : Nat) : Bool :=
  if pKind e = 0 then fifoRoom m (pChan e) (pFifo e) else pKind e = 1 || !fabricFull m

/-- Start the Mint job of a secured emission (R536, R537): its authentic part is read here. -/
def startMac (m : Chip) (now i : Nat) : Chip :=
  let e := pduOf m i
  let (v, armed) := freshOf m (pProf e)
  let m := updTx m i fun t => { t with due := none }
  if !armed then macUnavail m now i 5 0 v
  else if 2 ^ 64 - 2 ≤ v then macUnavail m now i 4 0 v
  else
    updSge (setFresh m (pProf e) (v + 1, true)) fun s =>
      { s with macs := s.macs ++ [⟨i, v + 1, imgRead m (pImg e) (authLen (sgeNow m) e)⟩] }

/-- Emit a PDU now (R522, R526, R527). -/
def emitNow (m : Chip) (now i : Nat) : Chip :=
  let e := pduOf m i
  if m.sge.bad.contains i then m
  else if pSecoc e then
    if hasRoom m e then startMac m now i
    else updTx (bump (updSge m fun s => { s with pend := s.pend ++ [⟨i, none⟩] }) A.fifo_wait 1) i fun t => { t with due := none }
  else placePdu m now i (image m i)

/-- A PDU's emission ends the present cycle: triggers due in the same cycle give one (R524). -/
def emitLater (m : Chip) (i : Nat) : Chip := updSge m fun s => { s with dueNow := addNew s.dueNow i }

/-- A PDU is due (R522, R527): nothing while the SGE is stopped or standing by. -/
def pduDue (m : Chip) (i : Nat) : Chip :=
  if !sgeRuns m || sgeStandby m then m
  else if isPending m i then bump m A.coalesced 1
  else emitLater m i

/-- The emissions that end the cycle `now`, in the order in which their triggers came. -/
def emissions (m : Chip) (now : Nat) : Chip :=
  if m.sge.dueNow.isEmpty then m
  else
    m.sge.dueNow.foldl (fun m i => if !sgeRuns m || sgeStandby m then m else if isPending m i then bump m A.coalesced 1 else emitNow m now i)
      (updSge m fun s => { s with dueNow := [] })

/-- An on-change trigger (R522, R523). -/
def changeTrig (m : Chip) (now i : Nat) : Chip :=
  let e := pduOf m i
  let x := txOf m i
  if !bit e 17 || !sgeRuns m || sgeStandby m then m
  else if isPending m i || x.due.isSome then bump m A.coalesced 1
  else
    match x.last with
    | some l => if now < l + pGap e * us then updTx m i fun t => { t with due := some (l + pGap e * us) } else emitLater m i
    | none => emitLater m i

/-! ### Routes (R510-R515) -/

/-- Apply one route to a frame (R510-R512, R515); the answer tells whether it changed the image so as to trigger. -/
def applyRoute (m : Chip) (r e : Nat) (x : SgeMsg) : Chip × Bool :=
  if !bitsWithin (rSrcBits e) x.data.length then (bump m A.short_src 1, false)
  else
    let (out, sat_, inv) := rescale e (extract x.data (rSrcBits e))
    let d := rDst e
    let o := pImg (pduOf m d)
    let before := image m d
    let m := imgInsert m o (rDstBits e) out
    let m := if rFlagEn e then imgBit m o (rFlag e) false else m
    let m := if sat_ then bump m A.saturated 1 else m
    let m := if inv then bump m A.invalid_mapped 1 else m
    let m := updRt m r fun s =>
      { last := x.stamp, value := out, timedOut := false, saturated := sat_, invalid := inv, never := false,
        updates := sat 64 (s.updates + 1) }
    let m := updSge m fun s => { s with bad := s.bad.filter (· != d) }
    (m, bit e 26 && image m d ≠ before)

/-- The routes of a source frame in ascending order, and the PDUs whose images they changed (R512, R520). -/
def applyRoutes (m : Chip) (j : SgeJob) : Chip × List Nat :=
  ((sgeNow m).route.filter fun p => bit p.2 0 && rSrc p.2 = j.pdu && !j.deny.contains (rDst p.2)).foldl (fun (a : Chip × List Nat) p =>
    let (m, ch) := applyRoute a.1 p.1 p.2 j.msg
    (m, if ch then addNew a.2 (rDst p.2) else a.2)) (m, [])

/-! ### Frame routes (R532-R534) -/

/-- The channel that the bus map gives a bus ID. -/
def busChan (m : Chip) (b : Nat) : Option Nat :=
  let e := sgeEnt (sgeNow m).bus b
  if bit e 5 && bits e 0 5 < 24 then some (bits e 0 5) else none

/-- The frame that a frame route sends; `none` where it cannot be carried (R533). -/
def frouteMsg (m : Chip) (e : Nat) (x : SgeMsg) : Option SgeMsg :=
  let d := pduOf m (rDst e)
  let k := pKind d
  let fmt := if bit e 24 then x.fmt else pFmt d
  let fmt := if k = 1 then 3 else fmt
  let n := x.data.length
  let chan := if x.kind = 3 && k < 2 then (busChan m x.chan).getD (pChan d) else pChan d
  let ident := if bit e 23 then x.ident else pKey0 d
  let y : SgeMsg :=
    { kind := k, chan := chan, ident := if k = 1 then ident % 64 else ident, ide := if bit e 23 then x.ide else pIde d,
      rtr := x.rtr && fmt = 0, fmt := fmt, brs := fmt = 1 && (if bit e 24 then x.brs else pBrs d), data := x.data, stamp := x.stamp }
  if k = 1 then (if canLenOk 3 n && 16 ≤ chan then some y else none)
  else if fmt = 3 || !canLenOk fmt n || (k = 3 && fmt = 2) || (k = 0 && 16 ≤ chan) then none
  else some y

/-- Hand off a frame-routed emission (R532): `k` is the frame route. -/
def sendFroute (m : Chip) (now k d : Nat) (y : SgeMsg) : Chip :=
  match handOff m now d y with
  | some m => bump m A.emitted 1
  | none =>
    if m.sge.pend.any fun p => p.frame.any fun f => f.1 == k then bump m A.coalesced 1
    else bump (updSge m fun s => { s with pend := s.pend ++ [⟨d, some (k, y)⟩] }) A.fifo_wait 1

/-- The frame routes of a source frame in ascending order. -/
def applyFroutes (m : Chip) (now : Nat) (j : SgeJob) : Chip :=
  if !sgeRuns m || sgeStandby m then m
  else
    ((sgeNow m).froute.filter fun p => bit p.2 0 && rSrc p.2 = j.pdu && !j.deny.contains (4096 + p.1)).foldl (fun m p =>
      match frouteMsg m p.2 j.msg with
      | some y => sendFroute m now p.1 (rDst p.2) y
      | none => bump m A.fmt_drop 1) m

/-- Do something with given tables in force, and put the present ones back. -/
def withTabs (m : Chip) (t : SgeTabs) (f : Chip → Chip) : Chip :=
  let set := fun (m : Chip) (t : SgeTabs) => updSge m fun s => if m.cfg.active = 0 then { s with tabA := t } else { s with tabB := t }
  set (f (set m t)) (sgeNow m)

/-- Complete a source frame with the tables that it found (R521): its image, its routes, the emissions they trigger, its frame routes (R520,
R532). -/
def sgeApply (m : Chip) (now : Nat) (j : SgeJob) : Chip := withTabs m j.tabs fun m =>
  let e := pduOf m j.pdu
  let used := (sgeNow m).route.any fun p => bit p.2 0 && rSrc p.2 = j.pdu
  let m := if used then imgWrite m (pImg e) (j.msg.data.take (pLen e)) else m
  let (m, changed) := applyRoutes m j
  let m := changed.foldl (fun m i => changeTrig m now i) m
  applyFroutes m now j

/-- Complete source frames in order up to the first that waits for its SecOC check (R519). -/
def sgeFlush (now : Nat) : Nat → Chip → Chip
  | 0, m => m
  | k + 1, m =>
    match m.sge.jobs with
    | [] => m
    | j :: r =>
      if pSecoc (sgeEnt j.tabs.pdu j.pdu) then m
      else sgeFlush now k (sgeApply (updSge m fun s => { s with jobs := r }) now j)

/-! ### Source frames (R505, R506, R519) -/

/-- A receive PDU matches a frame (R505). -/
def pduMatches (e : Nat) (x : SgeMsg) : Bool :=
  pValid e && !pTx e && pKind e == x.kind &&
  (match x.kind with
   | 0 => pChan e == x.chan && pKey0 e == x.ident && pIde e == x.ide
   | 1 => pChan e == x.chan && pKey0 e == x.ident
   | 2 => bits (pKey0 e) 0 16 == x.ident && pKey1 e == x.key1
   | _ => bits (pKey1 e) 0 5 == x.chan && pKey0 e == x.ident && pIde e == x.ide)

/-- The ACF CAN messages of an NTSCF payload, in order (R506); the first argument bounds them. -/
def acfMsgs (stamp : Nat) : Nat → List Byte → List SgeMsg
  | 0, _ => []
  | k + 1, l =>
    let n := be l 0 2 % 512 * 4
    let ty := byteAt l 0 / 2
    if l.length < 4 || n = 0 || l.length < n then []
    else
      let h := if ty = 1 then 16 else 8
      let fl := byteAt l 2
      let rest := acfMsgs stamp k (l.drop n)
      if (ty ≠ 1 && ty ≠ 2) || n < h + fl / 64 then rest
      else
        { kind := 3, chan := byteAt l 3 % 32, ident := be l (h - 4) 4 % 2 ^ 29, ide := bit fl 3, rtr := bit fl 4,
          fmt := if bit fl 1 then 1 else 0, brs := bit fl 2, data := slice l h (n - h - fl / 64), stamp := stamp } :: rest

/-- The messages of a frame from port 23 (R506): none where it is neither SOME/IP over UDP nor NTSCF. -/
def fabricMsgs (m : Chip) (stamp : Nat) (l : List Byte) : List SgeMsg :=
  let p := parse m l false
  if p.l4 = 2 && !p.frag then
    let u := l4Off l p
    let n := min (be l (u + 4) 2 - 8) (l.length - (u + 8))
    let len := be l (u + 12) 4
    if n < 16 || len < 8 || n < len + 8 then []
    else [{ kind := 2, chan := 0, ident := p.h.dport, key1 := be l (u + 8) 4, data := slice l (u + 24) (len - 8), stamp := stamp }]
  else if p.app ≥ 2 && p.h.subtype = 0x82 then
    let o := p.h.mac
    acfMsgs stamp l.length (slice l (o + 12) (min (byteAt l (o + 1) % 8 * 256 + byteAt l (o + 2)) (l.length - (o + 12))))
  else []

/-- The destination of a crossing: channel 0-23, or 24 for the zone of port 23. -/
def dstChan (m : Chip) (d : Nat) : Nat := if pKind (pduOf m d) < 2 then pChan (pduOf m d) else 24

/-- Judge the crossings of a frame that matched a PDU (R215): what is denied. -/
def sgeJudge (m : Chip) (now p : Nat) (x : SgeMsg) : Chip × List Nat :=
  let t := sgeNow m
  let rs := (t.route.filter fun r => bit r.2 0 && rSrc r.2 = p).map fun r => rDst r.2
  let fs := t.froute.filter fun r => bit r.2 0 && rSrc r.2 = p
  let z23 := portZone m 23
  if x.kind < 2 then
    let dests := (rs.map (dstChan m) ++ fs.map fun r => dstChan m (rDst r.2)).dedup
    let (m, bad) := dests.foldl (fun (a : Chip × List Nat) c =>
      let ch := if x.kind = 1 then x.chan - 16 else x.chan
      let (m, ok) := judgeCrossing a.1 now ⟨chanZone a.1 x.chan, if c = 24 then z23 else chanZone a.1 c, x.ident, x.ide, x.fmt, ch, 0⟩
      (m, if ok then a.2 else c :: a.2)) (m, [])
    (m, (rs.filter fun d => bad.contains (dstChan m d)) ++ (fs.filter fun r => bad.contains (dstChan m (rDst r.2))).map fun r => 4096 + r.1)
  else
    let out := (rs.dedup.filter fun d => dstChan m d < 24).map (fun d => (d, pduMsg m now d [])) ++
      fs.filterMap fun r => if dstChan m (rDst r.2) < 24 then (frouteMsg m r.2 x).map fun y => (4096 + r.1, y) else none
    out.foldl (fun (a : Chip × List Nat) o =>
      let y := o.2
      let ch := if 16 ≤ y.chan then y.chan - 16 else y.chan
      let (m, ok) := judgeCrossing a.1 now ⟨z23, chanZone a.1 y.chan, y.ident, y.ide, y.fmt, ch, 1⟩
      (m, if ok then a.2 else o.1 :: a.2)) (m, [])

/-- A message of a source frame is matched and judged (R505, R534): an NTSCF message bound for a channel needs its bus map entry. -/
def sgeMsg (m : Chip) (now : Nat) (x : SgeMsg) : Chip :=
  match (sgeNow m).pdu.find? fun p => pduMatches p.2 x with
  | none => bump m A.rx_nomatch 1
  | some (p, _) =>
    let lost := x.kind = 3 && (busChan m x.chan).isNone
    let fs := (sgeNow m).froute.filter fun r => bit r.2 0 && rSrc r.2 = p && dstChan m (rDst r.2) < 24
    let (m, deny) := sgeJudge m now p x
    let m := if lost && !fs.isEmpty then bump m A.rx_nomatch 1 else m
    let deny := if lost then deny ++ fs.map (fun r => 4096 + r.1) else deny
    updSge m fun s => { s with jobs := s.jobs ++ [⟨p, x, deny, sgeNow m⟩] }

/-- Where the next source frame lies (R519): availability, then CAN0-CAN15, LIN0-LIN7, port 23. -/
inductive SgeFrom where
  | can (c b : Nat) (x : RxBuf)
  | lin (c k : Nat) (x : RxBuf)
  | fabric (stamp : Nat) (l : List Byte)
deriving DecidableEq, Repr

/-- The source frames that wait, one of each source, with their availability. -/
def sgeWaiting (m : Chip) : List (Nat × SgeFrom) :=
  ((List.range 16).filterMap fun c => (oldestBuf m c (·.sge)).map fun p => (p.2.eof + cyc, .can c p.1 p.2)) ++
  ((List.range 8).filterMap fun c =>
    match (linOf m c).rx.findIdx? (·.sge) with
    | some k => ((linOf m c).rx[k]?).map fun b => (b.eof + cyc, .lin c k b)
    | none => none) ++
  (m.sge.q23.take 1).map fun q => (q.1, .fabric q.2.1 q.2.2)

/-- The source frame that the SGE takes next, of those that are available. -/
def sgeNext (m : Chip) (now : Nat) : Option SgeFrom :=
  (((sgeWaiting m).filter (·.1 ≤ now)).foldl (fun (a : Option (Nat × SgeFrom)) x =>
    match a with
    | some y => if x.1 < y.1 then some x else a
    | none => some x) none).map (·.2)

/-- The device once the SGE has read a source frame (R473), and the frame's messages. -/
def sgeConsume (m : Chip) : SgeFrom → Chip × List SgeMsg
  | .can c b x =>
    (updBuf m c b fun y => { y with sge := false },
      [{ kind := 0, chan := c, ident := x.ident, ide := x.ide, rtr := x.rtr, fmt := x.fmt, brs := x.brs, data := x.data, stamp := x.eof }])
  | .lin c k x =>
    (updLin m c fun y => { y with rx := (lset y.rx k fun b => { b with sge := false }).filter (·.valid) },
      [{ kind := 1, chan := 16 + c, ident := x.ident, fmt := 3, data := x.data, stamp := x.eof }])
  | .fabric stamp l => (updSge m fun s => { s with q23 := s.q23.drop 1 }, fabricMsgs m stamp l)

/-- A double-symbol error in a table or an image word (R543): table 6 is the image RAM, whose code words hold 16
bytes (R36): the PDUs that it belongs to emit nothing. -/
def sgeEcc (m : Chip) (now tbl idx : Nat) : Chip :=
  if tbl = 6 then
    let m := imgWrite m (idx * 16) (List.replicate 16 0)
    let hit := ((sgeNow m).pdu.filter fun p => pValid p.2 && pImg p.2 < idx * 16 + 16 && idx * 16 < pImg p.2 + pLen p.2).map (·.1)
    setIrq (bump (updSge m fun s => { s with bad := hit.foldl addNew s.bad }) A.sge_ecc 1) .sge 3
  else setIrq (report m now 0x0900 0x09F0 1 (tbl * 2 ^ 16 + idx)) .sge 3

/-- Take the next source frame (R519, R546): `elem` is a double-symbol error in its CAN element, `ecc` one in a table entry. -/
def sgeTake (m : Chip) (now : Nat) (elem : Bool) (ecc : Option (Nat × Nat)) : Chip :=
  match if m.pwr.mode = .run && m.sge.jobs.length < 16 then sgeNext m now else none with
  | none => m
  | some src =>
    match elem, src with
    | true, .can c b _ => bufEcc m c b
    | _, _ =>
      let (m, l) := sgeConsume m src
      if !sgeRuns m then bump m A.stopped 1
      else
        let m := bump m A.src_frames 1
        let m := match ecc with
          | some (t, i) => sgeEcc m now t i
          | none => m
        if ecc.any (·.1 != 6) then m
        else
          let m := if l.isEmpty then bump m A.rx_nomatch 1 else l.foldl (fun m x => sgeMsg m now x) m
          sgeFlush now (m.sge.jobs.length + 1) m

/-- The SecOC check of the oldest source frame ends (R538, R539): `fault` is a Mint fault. -/
def sgeVerify (m : Chip) (now : Nat) (fault : Bool) : Chip :=
  match m.sge.jobs with
  | [] => m
  | j :: r =>
    let e := sgeEnt j.tabs.pdu j.pdu
    if !pSecoc e || secWaits m then m
    else
      let m := updSge m fun s => { s with jobs := r }
      let p := sgeEnt j.tabs.prof (pProf e)
      let n := j.msg.data.length
      let tr := sFv p + sMac p
      let auth := j.msg.data.take (n - tr)
      let l := (freshOf m (pProf e)).1
      let c := freshValue l (sFv p) (be j.msg.data (n - tr) (sFv p))
      let st := if fault then 0x09 else secUnit m p false
      let m := reshare m (sKey p)
      let refused := fun (m : Chip) ctr cause st => secFail (setIrq (bump m ctr 1) .sge 1) now j.pdu cause st c
      let m :=
        if tr ≤ n && (c ≤ l || sWindow p < c - l || 2 ^ 64 ≤ c) then refused m A.fresh_reject 2 0
        else if st ≠ 0 then refused m A.auth_fail 3 st
        else if n < tr || secMac m p auth c ≠ slice j.msg.data (n - sMac p) (sMac p) then refused m A.auth_fail 1 0
        else sgeApply (setFresh m (pProf e) (c, (freshOf m (pProf e)).2)) now j
      sgeFlush now (m.sge.jobs.length + 1) m

/-! ### Triggers by time (R516, R522-R525) -/

/-- The scanner finds a route timed out (R516, R517). -/
def sgeTimeout (m : Chip) (now r : Nat) : Chip :=
  let e := sgeEnt (sgeNow m).route r
  let s := rtOf m r
  if !bit e 0 || rTmo e = 0 || s.timedOut || now - s.last ≤ rTmo e * us then m
  else
    let d := rDst e
    let o := pImg (pduOf m d)
    let before := image m d
    let m := imgInsert m o (rDstBits e) (bits e 320 64)
    let m := if rFlagEn e then imgBit m o (rFlag e) true else m
    let m := updRt m r fun x => { x with timedOut := true, value := bits e 320 64 % 2 ^ bits e 56 7 }
    let m := setIrq (bump (updSge m fun x => { x with bad := x.bad.filter (· != d) }) A.timeouts 1) .sge 0
    let m := sgeLog m now 0x0901 0x0900 [(2, r), (2, d), (8, s.last)]
    if image m d ≠ before then changeTrig m now d else m

/-- An instant of working time, in clock units, has just come: within the cycle that ends now. -/
def justNow (m : Chip) (now : Nat) (t : Int) : Bool := t ≤ workU m now && workU m now - t < slotU

/-- Emission by a schedule: `n` instants have passed since the latest one, and the last of them came on time or in a step (R525). -/
def schedEmit (m : Chip) (i n : Nat) (onTime : Bool) : Chip :=
  pduDue (if onTime then bump m A.late (n - 1) else bump m A.late n) i

/-- A periodic instant (R522). -/
def periodic (m : Chip) (now i : Nat) : Chip :=
  let e := pduOf m i
  let w := workNs m now
  if !pValid e || !pTx e || !bit e 18 || pPeriod e = 0 || w < pPhase e * 1000 then m
  else
    let k := (w - pPhase e * 1000) / (pPeriod e * 1000)
    let onTime := justNow m now (((k * pPeriod e + pPhase e) * 1000 : Nat) * nsU)
    let set := fun (m : Chip) => updTx m i fun t => { t with lastK := some k }
    match (txOf m i).lastK with
    | none => if onTime then schedEmit (set m) i 1 true else m
    | some l => if l < k then schedEmit (set m) i (k - l) onTime else m

/-- Openings of a class's gate in a list of segments with their start times; `prev` is the state before the first. -/
def openings (c : Nat) : Bool → List (Int × Seg) → List Int
  | _, [] => []
  | prev, p :: r => if bit p.2.states c && !prev then p.1 :: openings c true r else openings c (bit p.2.states c) r

/-- A gate opening comes in `gate_lead` µs (R522). -/
def gateDue (m : Chip) (now i : Nat) : Chip :=
  let e := pduOf m i
  let n := bits e 20 5
  let c := bits e 25 3
  let lead := ((fld m A.SGE_CFG 0 10 * 1000 : Nat) : Int) * nsU
  let tm := workU m now + lead
  let g := gateOf m n
  if !pValid e || !pTx e || !bit e 19 then m
  else
    let prev := ((operSegs g).getLast?.map fun s => bit s.states c).getD true
    let all := openings c prev (timeline m n tm)
    let l := all.filter (· ≤ tm)
    match l.getLast? with
    | none => m
    | some o =>
      let onTime := justNow m now (o - lead)
      let set := fun (m : Chip) => updTx m i fun t => { t with lastOpen := some o }
      match (txOf m i).lastOpen with
      | none => if onTime then schedEmit (set m) i 1 true else m
      | some x =>
        if o ≤ x then m
        else
          let cyU := (g.cycle : Int) * slotU
          let whole := (o - x - 1) / cyU
          let per := (openings c prev ((operSegs g).map fun s => ((s.start : Int) * slotU, s))).length
          schedEmit (set m) i (whole.toNat * per + (l.filter fun y => x + whole * cyU < y).length) onTime

/-- A deferred on-change trigger comes due (R523). -/
def gapDue (m : Chip) (now i : Nat) : Chip :=
  match (txOf m i).due with
  | some d => if d ≤ now then pduDue (updTx m i fun t => { t with due := none }) i else m
  | none => m

/-- Place pending emission `k` when it has room (R527). -/
def placePending (m : Chip) (now k : Nat) : Chip :=
  match m.sge.pend[k]? with
  | none => m
  | some p =>
    if !sgeRuns m || sgeStandby m then m
    else
      let m' := updSge m fun s => { s with pend := s.pend.eraseIdx k }
      match p.frame with
      | some (_, y) =>
        match handOff m' now p.pdu y with
        | some m => bump m A.emitted 1
        | none => m
      | none => if hasRoom m (pduOf m p.pdu) then emitNow m' now p.pdu else m

/-- The Mint job of a secured emission ends (R535, R537). -/
def macDone (m : Chip) (now i : Nat) (fault : Bool) : Chip :=
  match m.sge.macs.find? fun x => x.pdu == i with
  | none => m
  | some x =>
    if secWaits m then m else
    let e := pduOf m i
    let p := sgeEnt (sgeNow m).prof (pProf e)
    let m := updSge m fun s => { s with macs := s.macs.eraseP fun y => y.pdu == i }
    let st := if fault then 0x09 else secUnit m p true
    let m := reshare m (sKey p)
    if st ≠ 0 then macUnavail m now i 3 st x.fresh
    else if !sgeRuns m || sgeStandby m then m
    else placePdu m now i (x.auth ++ beBytes (sFv p) (x.fresh % 2 ^ (8 * sFv p)) ++ secMac m p x.auth x.fresh)

/-- The SGE at a request to power down (R544): pending emissions are discarded and counted; source frames in progress complete. -/
def sgePark (m : Chip) : Chip :=
  bump (updSge m fun s => { s with pend := [], macs := [], dueNow := [], tx := s.tx.map fun p => (p.1, { p.2 with due := none }) })
    A.coalesced (m.sge.pend.length + m.sge.macs.length + m.sge.dueNow.length + (m.sge.tx.filter (·.2.due.isSome)).length)

/-- R518 for some routes: at the commit, or bank swap, that makes them valid, and at a wake. -/
def routesFrom (m : Chip) (now : Nat) (rs : List Nat) (never : Bool) : Chip :=
  rs.foldl (fun m r => updRt m r fun x => { x with last := now, never := x.never || never }) m

/-! ### Table commands (R172-R175, R508, R514, R531, R547) -/

/-- Whether some bits of a number are all 0. -/
def zeroBits (e : Nat) (l : List (Nat × Nat)) : Bool := l.all fun p => bits e p.1 p.2 == 0

/-- A PDU definition is acceptable (R508). -/
def pduOk (e : Nat) : Bool :=
  let k := pKind e
  let n := pLen e
  zeroBits e [(28, 4), (61, 3), (108, 4), (126, 2), (216, 8), (234, 22)] && k < 4 && bits e 11 2 < 3
    && (k != 0 || (pChan e < 16 && (if pTx e then canLenOk (bits e 11 2) n else canLenOk 1 n || canLenOk 2 n)))
    && (k != 1 || (16 ≤ pChan e && pChan e < 24 && canLenOk 3 n)) && (k != 2 || (1 ≤ n && n ≤ 1024)) && (k != 3 || canLenOk 1 n)
    && pImg e + n ≤ 262144 && !(pTx e && k < 2 && bit e 19) && (!bit e 18 || pPhase e < pPeriod e)

/-- A route is acceptable among the tables of its bank (R514). -/
def routeOk (t : SgeTabs) (e : Nat) : Bool :=
  let s := sgeEnt t.pdu (rSrc e)
  let d := sgeEnt t.pdu (rDst e)
  zeroBits e [(27, 5), (55, 1), (63, 1), (86, 10), (431, 81)] && (!bit e 0 ||
    (pValid s && !pTx s && pValid d && pTx d && 1 ≤ bits e 48 7 && bits e 48 7 ≤ 64 && 1 ≤ bits e 56 7 && bits e 56 7 ≤ 64
      && bitsWithin (rSrcBits e) (authLen t s) && bitsWithin (rDstBits e) (authLen t d)
      && (!rFlagEn e || rFlag e / 8 < authLen t d)))

/-- A header template is acceptable (R531). -/
def tmplOk (m : Chip) (e : Nat) : Bool :=
  let n := bits e 0 16
  let p := tmplParse m e
  zeroBits e [(18, 14)] && n ≤ 92 && (n = 0 ||
    (if bit e 17 then p.h.etype == 0x22F0 && p.h.subtype == 0x82 && p.h.mac + 12 == n
     else (p.h.v6 == bit e 16) && (if bit e 16 then p.l3 == 2 else p.l3 == 1) && p.h.proto == 17
       && l4Off (tmplHdr e) p + 24 == n))

/-- An entry is acceptable for an SGE table. -/
def sgeEntOk (m : Chip) (bank k e : Nat) : Bool :=
  match k with
  | 0 => pduOk e
  | 1 => routeOk (sgeTabs m bank) e
  | 3 => zeroBits e [(25, 39)]
  | 4 => tmplOk m e
  | 5 => zeroBits e [(25, 7), (48, 16), (96, 32)] && (!sValid e || (1 ≤ sMac e && sMac e ≤ 16 && sFv e ≤ 8 && 1 ≤ sWindow e))
  | 7 => zeroBits e [(6, 26)]
  | _ => true

/-- Write an entry of a bank. A write to the active bank that makes a route valid starts its timer (R518), and is a delta for the
pair (R750): tables are numbered from 16 on. -/
def sgeWrite (m : Chip) (now bank k i e : Nat) : Chip :=
  let old := sgeEnt ((sgeTabs m bank).get k) i
  let f := fun (t : SgeTabs) => t.set k (sputD (t.get k) 0 i e)
  let m := updSge m fun s => if bank = 0 then { s with tabA := f s.tabA } else { s with tabB := f s.tabB }
  if bank ≠ m.cfg.active then m
  else
    let m := if k = 1 && bit e 0 && !bit old 0 then routesFrom m now [i] true else m
    updPrs m fun p => { p with tblDirty := addNew p.tblDirty ((16 + k) * 2 ^ 16 + i) }

/-- A route's state as table 2 shows it (R515). -/
def rtNum (s : RtSt) : Nat :=
  leNat (packLe [(8, s.last), (8, s.value), (1, b2n s.timedOut + 2 * b2n s.saturated + 4 * b2n s.invalid + 8 * b2n s.never), (7, 0),
    (8, s.updates)])

/-- Why a table command is refused before it starts, as `SGE_TBL_STATUS.code` (R844, R547); 0 when it starts. -/
def sgeTblJudge (m : Chip) (k op : Nat) (staged : Bool) : Nat :=
  let bank := if staged then 1 - m.cfg.active else m.cfg.active
  if 8 ≤ k then 9
  else if 2 ≤ op || (op = 1 && (k = 2 || k = 6)) then 6
  else if sgeCount k ≤ fld m A.SGE_TBL_INDEX 0 14 then 5
  else if staged && m.cfg.bank.getD bank .empty = .loading then 4
  else if op = 1 && !sgeEntOk m bank k (dataNum m (A.SGE_TBL_DATA 0) (sgeBytes k / 4)) then 8
  else 0

/-- A table command that commits in the cycle `now`. -/
def sgeTblRun (m : Chip) (now k op : Nat) (staged : Bool) : Chip :=
  let i := fld m A.SGE_TBL_INDEX 0 14
  let bank := if staged then 1 - m.cfg.active else m.cfg.active
  let w := sgeBytes k / 4
  if op = 0 then
    setData m (A.SGE_TBL_DATA 0) w (if k = 2 then rtNum (rtOf m i) else if k = 6 then leNat (imgRead m (i * 16) 16)
      else sgeEnt ((sgeTabs m bank).get k) i)
  else sgeWrite m now bank k i (dataNum m (A.SGE_TBL_DATA 0) w)

/-- A table command ends. -/
def sgeTblEnd (m : Chip) (code : Nat) : Chip := setIrq (wrN (clrR m A.SGE_TBL_CMD (2 ^ 31)) A.SGE_TBL_STATUS (code * 16)) .sge 4

/-- A write to `SGE_TBL_CMD` with `go`: a command that is not refused runs, for a time that the manual does not state. -/
def sgeTblCommand (m : Chip) (now : Nat) (flt : Bool) : Chip :=
  let w := rdN m A.SGE_TBL_CMD
  match sgeTblJudge m (bits w 0 4) (bits w 4 3) (bit w 7) with
  | 0 => useFree (later (wrN m A.SGE_TBL_STATUS 1) (commitAt m now) (.sgeTable now (flt && bits w 4 3 = 0)))
  | c => sgeTblEnd m c

/-- The table command accepted at LT `acc` has committed in the cycle before `now`: a bank swap since then ends it with SWAPPED (R174), a
double-symbol error that it meets with ECC. -/
def sgeTblCommit (m : Chip) (now acc : Nat) (flt : Bool) : Chip :=
  let w := rdN m A.SGE_TBL_CMD
  if acc < m.cfg.actLt then sgeTblEnd m 3
  else if flt then sgeTblEnd m 7
  else sgeTblEnd (sgeTblRun m (now - cyc) (bits w 0 4) (bits w 4 3) (bit w 7)) 0

/-- A write to `SGE_FRESH_CMD` with `go` (R540): the command runs, for a time that the manual does not state. -/
def freshCommand (m : Chip) (now : Nat) : Chip := useFree (later (wrN m A.SGE_FRESH_STATUS 1) (commitAt m now) .sgeFresh)

/-- The freshness command ends. -/
def freshCommit (m : Chip) : Chip :=
  let w := rdN m A.SGE_FRESH_CMD
  let i := bits w 0 10
  let v := rd64 m A.SGE_FRESH_VAL_LO
  let (m, st) :=
    match bits w 10 2 with
    | 0 => (wr64 m A.SGE_FRESH_VAL_LO (freshOf m i).1, 2 * b2n (freshOf m i).2 + 4 * b2n (freshTx m i))
    | 1 => (raiseFresh m i v, 0)
    | 2 => ((txCounters m).foldl (fun m i => raiseFresh m i v) m, 0)
    | _ => (m, 6 * 256)
  setIrq (wrN (clrR m A.SGE_FRESH_CMD (2 ^ 31)) A.SGE_FRESH_STATUS st) .sge 5

/-- A command or data register of the table interface, and of the freshness counters. -/
def sgeTblReg (a : Nat) : Bool := a = A.SGE_TBL_CMD || a = A.SGE_TBL_INDEX || (A.SGE_TBL_DATA 0 ≤ a && a ≤ A.SGE_TBL_DATA 23)

def sgeFreshReg (a : Nat) : Bool := a = A.SGE_FRESH_CMD || a = A.SGE_FRESH_VAL_LO || a = A.SGE_FRESH_VAL_LO + 4

/-- Why a write to an SGE register is refused beyond its field ranges: a command runs. -/
def sgeCheck (m : Chip) (a : Nat) : Nat :=
  if sgeTblReg a && flag m A.SGE_TBL_STATUS 0 then 4
  else if sgeFreshReg a && flag m A.SGE_FRESH_STATUS 0 then 4
  else 0

/-- What a write to an SGE register does beside storing its fields; `flt` tells that a table command meets a double-symbol error. -/
def sgeEffect (m : Chip) (now a data : Nat) (flt : Bool) : Chip :=
  if a = A.SGE_TBL_CMD then (if bit data 31 then sgeTblCommand m now flt else m)
  else if a = A.SGE_FRESH_CMD then (if bit data 31 then freshCommand m now else m)
  else m

/-- The word of `SGE_STATUS`. -/
def sgeStatus (m : Chip) : Nat :=
  b2n (sgeRuns m) + 2 * b2n (sgeStandby m) + min 64 (m.sge.pend.length + m.sge.macs.length + m.sge.dueNow.length) * 256

/-! ### The end of a transmission (R236, R519) -/

/-- The copy whose transmission on a port began first. -/
def oldestTx (m : Chip) (n : Nat) : Option Copy :=
  (m.tm.copies.filter fun c => c.port == n && c.st == .sending).foldl (fun a c =>
    match a with
    | some x => if c.start < x.start then some c else a
    | none => some c) none

/-- A copy's transmission ends: on a front port once it has been sent and verified, on port 23 with its hand-over to the SGE. -/
def copyEnd (m : Chip) (now n : Nat) : Chip :=
  match oldestTx m n with
  | none => m
  | some c =>
    match frameOf m c.fid with
    | none => dropCopy m c.fid n
    | some f =>
      if !f.verified then m
      else if n < 20 then (if c.start + txLt m c ≤ now then endTx m now c else m)
      else
        let m := updSge m fun s => { s with q23 := s.q23 ++ [(now + cyc, f.stamp, copyBytes f c)] }
        gcFrame (dropCopy m c.fid n) now c.fid

/-! ### Commands -/

/-- Run a timed trigger of a PDU, unless a table or image word shows a double-symbol error (R543). -/
def sgeTrig (m : Chip) (now : Nat) (ecc : Option (Nat × Nat)) (f : Chip → Chip) : Chip :=
  let m := canSettle m now
  match ecc with
  | some (t, k) => if t = 6 then f (sgeEcc m now t k) else sgeEcc m now t k
  | none => f m

end Sys2Proof.Machine
end

