-- ==== Sys2Proof/Machine/Brg.lean ====
section
/-! DEFINITION. The peripheral bridge's error queue and monitors, the SAFE collector's commands and the FAULT pin (14). -/

namespace Sys2Proof.Machine

/-! ### Posted-write errors (R616-R621) -/

/-- Change the bridge. -/
def updBrg (m : Chip) (f : BrgSt → BrgSt) : Chip := { m with brg := f m.brg }

/-- An agent's entries, oldest first. -/
def pweOf (m : Chip) (ag : Nat) : List PweEnt := m.brg.pwe.filter fun e => agentOf e.who == ag

/-- The oldest entry of an agent (R619). -/
def pweHead (m : Chip) (ag : Nat) : Option PweEnt := (pweOf m ag).head?

/-- Lost-entry counter of an agent. -/
def lostCnt (ag : Nat) : Nat := A.lost_h0 + 8 * ag

/-- A posted write failed (R618, R620): the entry, or its loss; the interrupt, the record and the report. -/
def pweAdd (m : Chip) (now who addr : Nat) (data : Word) (code : Nat) : Chip :=
  let ag := agentOf who
  let seq := m.brg.seq + 1
  let m := updBrg m fun b => { b with seq := seq }
  let m :=
    if m.brg.pwe.length < 32 then updBrg m fun b => { b with pwe := b.pwe ++ [⟨now, addr, data, who, code, seq % 2 ^ 16⟩] }
    else setIrq (bump m (lostCnt ag) 1) .brg 4
  let m := emit (setIrq m .brg ag) 0x0C01 (0x0C00 + who) now [(1, code), (1, ag), (2, seq), (4, addr), (4, data.toNat)]
  report m now (0x0C00 + who) 0x0C01 1 addr

/-- Count an access that failed; codes as in `BRG_PWE_INFO.code`. -/
def countErr (m : Chip) (code : Nat) : Chip :=
  if code = 1 then bump m A.err_decode 1
  else if code = 4 then bump (bump m A.err_target 1) A.tgt_timeout 1
  else bump m A.err_target 1

/-- A write of an initiator is open (R616): the debug port's always, an agent's while its bit in `BRG_SYNC_WR` is 1. -/
def openWrite (m : Chip) (who : Nat) : Bool := 4 ≤ agentOf who || flag m A.BRG_SYNC_WR (agentOf who)

/-- An access failed: an open one returns the error, a posted write makes an entry. -/
def brgFail (m : Chip) (now who addr : Nat) (data : Word) (code : Nat) (write : Bool) : Chip :=
  let m := countErr m code
  if write && !openWrite m who then pweAdd m now who addr data code
  else say m (.busError who addr (if code = 1 then 1 else 2))

/-- An agent has gone: its entries are removed and counted as lost (R621). -/
def agentGone (m : Chip) (ag : Nat) : Chip :=
  let n := (pweOf m ag).length
  if n = 0 then m
  else setIrq (bump (updBrg m fun b => { b with pwe := b.pwe.filter fun e => agentOf e.who != ag }) (lostCnt ag) n) .brg 4

/-! ### Semaphore monitors (R622-R625) -/

/-- Clear the monitors on a word (R623). -/
def monClear (m : Chip) (addr : Nat) : Chip :=
  updBrg m fun b => { b with monitors := b.monitors.filter fun x => x.addr != addr }

/-- Release a hart's monitor. -/
def monDrop (m : Chip) (hart : Nat) : Chip :=
  updBrg m fun b => { b with monitors := b.monitors.filter fun x => x.hart != hart }

/-- A monitor is armed until `excl_tmo` µs have passed (R623). -/
def monLive (m : Chip) (now : Nat) (x : Monitor) : Bool := x.locked || now < x.armed + fld m A.BRG_CFG 16 16 * us

/-- The hart holds an armed monitor on the word. -/
def monHas (m : Chip) (now hart addr : Nat) : Bool :=
  m.brg.monitors.any fun x => x.hart == hart && x.addr == addr && monLive m now x

/-- Arm a monitor. -/
def monArm (m : Chip) (now hart addr : Nat) : Chip :=
  updBrg (monDrop m hart) fun b => { b with monitors := b.monitors ++ [⟨hart, addr, now, false⟩] }

/-- The 32-bit AMO operations, in the order of the RISC-V A extension: swap, add, xor, and, or, min, max, minu, maxu. -/
def amoResult (op : Nat) (x y : Word) : Word :=
  match op with
  | 0 => y
  | 1 => x + y
  | 2 => x ^^^ y
  | 3 => x &&& y
  | 4 => x ||| y
  | 5 => if x.toInt ≤ y.toInt then x else y
  | 6 => if x.toInt ≤ y.toInt then y else x
  | 7 => if x.toNat ≤ y.toNat then x else y
  | _ => if x.toNat ≤ y.toNat then y else x

/-- The words of the BRG status registers as an agent reads them. -/
def brgMonStatus (m : Chip) (now : Nat) : Nat := ones (min 16 (m.brg.monitors.filter (monLive m now)).length)

def brgPweStatus (m : Chip) (ag : Nat) : Nat := m.brg.pwe.length + (pweOf m ag).length * 256

def brgPweWord (m : Chip) (ag k : Nat) : Nat :=
  match pweHead m ag with
  | none => 0
  | some e =>
    if k = 0 then e.lt % 2 ^ 32 else if k = 1 then e.lt / 2 ^ 32 else if k = 2 then e.addr else if k = 3 then e.data.toNat
    else e.who + 8 + e.code * 16 + e.seq * 2 ^ 16

/-! ### The SAFE collector and FAULT (R627-R637) -/

/-- Change the SAFE block. -/
def updSafe (m : Chip) (f : SafeSt → SafeSt) : Chip := { m with safe := f m.safe }

/-- Acknowledge the head (R628, R629). -/
def safeAck (m : Chip) (now : Nat) : Chip :=
  let m := bump (updSafe m fun s => { s with q := s.q.tail }) A.acks 1
  match m.safe.q.head? with
  | none => m
  | some h => let m := setIrq m .safe 0; if h.reacted then m else react m now h.sev

/-- FAULT may be released (R634, R729). -/
def faultFree (m : Chip) (now : Nat) : Bool :=
  m.safe.fault && !m.triad.split && !m.safe.overflow && (m.safe.since + fld m A.SAFE_FAULT_CFG 0 16 * us ≤ now)
  && m.safe.q.all fun e => !flag m (reactReg e.sev) 3

/-- Deassert FAULT (R634, R635). -/
def faultDrop (m : Chip) (now : Nat) : Chip :=
  say (setIrq (emit (updSafe m fun s => { s with fault := false }) 0x0E02 0x0E01 now [(1, 0), (1, 5)]) .safe 3) (.pin "FAULT" 0)

/-- The words of `SAFE_EC_STATUS`, `SAFE_EC_ENTRY0`-`3` and `SAFE_FAULT_STATUS`. -/
def safeStatus (m : Chip) : Nat :=
  m.safe.q.length + 128 * b2n m.safe.overflow + 256 * ((m.safe.q.head?.map (·.sev)).getD 0)
    + 1024 * m.safe.q.foldl (fun a e => max a e.sev) 0

def safeEntry (m : Chip) (k : Nat) : Nat :=
  match m.safe.q.drop (fld m A.SAFE_EC_IDX 0 6) with
  | [] => 0
  | e :: _ =>
    if k = 0 then e.lt % 2 ^ 32 else if k = 1 then e.lt / 2 ^ 32 else if k = 2 then e.src + e.code * 2 ^ 16
    else e.sev + 4 * b2n e.reacted + 256 * e.info

def faultStatus (m : Chip) : Nat := b2n m.safe.fault + 16 * m.safe.cause

end Sys2Proof.Machine
end

