-- ==== Sys2Proof/Machine/Triad.lean ====
section
/-! DEFINITION. The Currant triad, its watchdogs and load window, debug and the lifecycle (17, R776, R777). -/

namespace Sys2Proof.Machine

/-- Change the triad. -/
def updTriad (m : Chip) (f : TriadSt → TriadSt) : Chip := { m with triad := f m.triad }

/-- The voter lets the triad's accesses out (R715, R726); the copies are stopped in the stall of a resynchronisation (R711). -/
def triadOut (m : Chip) : Bool := m.triad.mode ≠ 3 && m.triad.stall.isNone && (if m.triad.split then !bit m.triad.halted 0 else m.triad.halted = 0)

/-! ### Mismatches (R708-R716) -/

/-- Record and report a mismatch: copies as a mask, kind, output group, voted PC and severity. -/
def triadMismatch (m : Chip) (now copies kind group pc sev : Nat) : Chip :=
  let m := wrN (wr64 m A.TRIAD_MM_LT_LO now) A.TRIAD_MM_INFO (copies + kind * 8 + group % 256 * 256)
  let m := emit m 0x0E03 0x0E02 now [(1, copies), (1, kind), (2, group), (4, pc)]
  report m now 0x0E02 0x0E03 sev (copies + kind * 8 + group % 256 * 256)

/-- Hold the three copies in reset with FAULT asserted (R715, R716). -/
def triadHold (m : Chip) (now : Nat) : Chip :=
  updTriad (assertFault m now 4) fun x => { x with
    mode := 3, stall := none, halted := 0, pause := none,
    restartAt := if flag m A.TRIAD_CFG 0 then some (now + fld m A.TRIAD_CFG 16 16 * ms) else none }

/-- A double mismatch (R715). -/
def doubleMismatch (m : Chip) (now copies group pc : Nat) : Chip :=
  if 2 ≤ m.triad.mode then m
  else setIrq (bump (triadMismatch (triadHold m now) now copies 2 group pc 3) A.doubles 1) .safe 18

/-- The lowest-numbered copy other than `c`. -/
def otherCopy (c : Nat) : Nat := if c = 0 then 1 else 0

/-- A single mismatch of copy `c` of kind 1, or of kind 3 for its TCM (R709, R710); during resynchronisation a running copy
that disagrees makes a double mismatch (R712). When the stall begins the manual does not say: the cycle is free. -/
def singleMismatch (m : Chip) (now c kind group pc : Nat) : Chip :=
  if m.triad.mode = 0 then
    let m := updTriad m fun x => { x with mode := 1, odd := c, src := otherCopy c, syncAt := now }
    let m := useFree (later m (now + cyc * (1 + freeVal m)) (.stall now))
    let m := setIrq (bump (triadMismatch m now (2 ^ c) kind group pc 1) A.mismatches 1) .safe 16
    if kind = 3 then setIrq m .safe 21 else m
  else if m.triad.mode = 1 && c ≠ m.triad.odd then
    let m := doubleMismatch m now (2 ^ c) group pc
    if kind = 3 then setIrq m .safe 21 else m
  else m

/-- All three copies run again in lock step (R711, R714). -/
def rejoin (m : Chip) (now : Nat) : Chip :=
  let x := m.triad
  let k := (if x.win.1 = now / sec then x.win.2 else 0) + 1
  let m := updTriad m fun x => { x with mode := 0, stall := none, win := (now / sec, k) }
  let m := emit m 0x0E04 0x0E02 now [(1, x.odd), (1, x.src), (2, 0), (4, (now - x.syncAt) / cyc), (4, k)]
  let m := setIrq (bump m A.resyncs 1) .safe 17
  if fld m A.TRIAD_CFG 8 8 < k then report m now 0x0E02 0x0E04 2 k else m

/-- The word of `TRIAD_STATUS`. -/
def triadStatus (m : Chip) (now : Nat) : Nat :=
  let x := m.triad
  x.mode + 4 * (if x.mode = 1 then x.odd + 1 else 0) + 16 * b2n (x.halted ≠ 0) + 256 * (if x.win.1 = now / sec then sat 8 x.win.2 else 0)

/-! ### Reload and watchdogs (R716-R719, R736, R777) -/

/-- Whether a watchdog that runs from `k` with a pause has been without a kick for `d` counts. -/
def lapsed (k p : Option Nat) (d now : Nat) : Bool :=
  match k, p with
  | some k, none => k + d ≤ now
  | _, _ => false

/-- A watchdog's kick time after its pause ends. -/
def resumed (k p : Option Nat) (now : Nat) : Option Nat :=
  match k, p with
  | some k, some p => some (k + (now - p))
  | k, _ => k

/-- Reload the TCMs from the triad image and start the copies; an image with an error holds them (R716, R736, R777). -/
def triadReload (m : Chip) (now : Nat) (ecc : Bool) : Chip :=
  if ecc then
    report (updTriad (triadHold m now) fun x => { x with restartAt := none }) now 0x0E02 0x0EF2 3 0
  else
    let on := fld m A.TRIAD_WDT_CFG 0 16 ≠ 0
    updTriad m fun x => { x with
      mode := if x.split then 2 else 0, restartAt := none, halted := 0, pause := none, tcm := x.image, kick := if on then some now else none }

/-- An expiry of the triad watchdog (R717). -/
def wdtExpire (m : Chip) (now : Nat) : Chip :=
  if m.triad.mode = 3 then m
  else report (setIrq (bump (triadHold m now) A.wdt_expiries 1) .safe 19) now 0x0E02 0x0EF0 3 0

/-- A write to `TRIAD_WDT_KICK` (R717). -/
def wdtKick (m : Chip) (now data : Nat) : Chip :=
  match m.triad.kick with
  | none => m
  | some k =>
    if data % 256 ≠ 0xA5 || now < k + fld m A.TRIAD_WDT_CFG 16 16 * us
        || (m.triad.pause.isNone && k + fld m A.TRIAD_WDT_CFG 0 16 * us < now) then wdtExpire m now
    else updTriad m fun x => { x with kick := some now }

/-- Start or stop the watchdogs as their registers say. -/
def wdtSet (m : Chip) (now : Nat) : Chip :=
  let on := fld m A.TRIAD_WDT_CFG 0 16 ≠ 0
  let con := flag m A.TRIAD_CWDT_CFG 31
  updTriad m fun x => { x with
    kick := if on then some (x.kick.getD now) else none, ckick := if con then some (x.ckick.getD now) else none }

/-! ### Debug (R720-R729) -/

/-- SERVICE-class debug is permitted (R720). -/
def svcDebug (m : Chip) : Bool := m.life = 0 || m.life = 3 || (m.life = 2 && m.triad.session.isSome)

/-- The debug class of BMR3 and the records: 0 none, 1 SERVICE, 2 LAB. -/
def debugClass (m : Chip) : Nat := if m.life = 3 then 2 else if m.triad.session.isSome then 1 else 0

/-- Extend BMR3 with the lifecycle, a debug class and a session number (R723). -/
def bootExtend (m : Chip) (now cls num : Nat) : Chip :=
  extendBmr m 3 (packLe [(1, m.life), (1, cls), (2, num), (8, now), (20, 0)])

/-- Write DEBUG_SESSION. -/
def debugRec (m : Chip) (now ev cls num secs : Nat) : Chip := emit m 0x0E05 0x0E03 now [(1, ev), (1, cls), (2, num), (4, secs)]

/-- Open a SERVICE session (R722, R723). -/
def sessionOpen (m : Chip) (now secs : Nat) : Chip :=
  let num := (rdN m A.DBG_SESSION_NUM + 1) % 2 ^ 16
  let m := wrN (updTriad m fun x => { x with session := some (now + secs * sec), sessLen := secs }) A.DBG_SESSION_NUM num
  setIrq (debugRec (bootExtend (bump m A.sessions 1) now 1 num) now 1 1 num secs) .dbg 1

/-- The triad's copies run again; the watchdog goes on from where it paused (R726). -/
def triadResume (m : Chip) (now : Nat) : Chip :=
  updTriad m fun x => { x with halted := 0, kick := resumed x.kick x.pause now, pause := none }

/-- End the SERVICE session, if one is open (R722, R723, R726). -/
def sessionClose (m : Chip) (now : Nat) : Chip :=
  if m.triad.session.isNone then m
  else
    let num := rdN m A.DBG_SESSION_NUM
    let len := m.triad.sessLen
    let m := triadResume (updTriad m fun x => { x with session := none, sessLen := 0 }) now
    setIrq (debugRec (bootExtend m now 0 num) now 2 1 num len) .dbg 2

/-- The split of the triad in LAB (R728). -/
def debugSplit (m : Chip) (now : Nat) : Chip :=
  if m.triad.split then m
  else
    let m := tokenRelease (updTriad m fun x => { x with split := true, mode := if x.mode = 3 then 3 else 2, stall := none }) now 3
    let m := say (assertFault m now 4) (.link 0x40 [])
    setIrq (debugRec (bump m A.splits 1) now 3 2 (rdN m A.DBG_SESSION_NUM) 0) .dbg 3

/-- DM1 refuses a halt while the device holds the token (R725). -/
def haltRefused (m : Chip) : Bool := m.pair.active

/-- The record of a refused halt: class LAB in LAB, else SERVICE (R723, R725). -/
def haltDenied (m : Chip) (now : Nat) : Chip :=
  debugRec m now 4 (if m.life = 3 then 2 else 1) (rdN m A.DBG_SESSION_NUM) m.triad.sessLen

/-- An answer of the debug transport. -/
def dmiAnswer (m : Chip) (status : Nat) : Chip := say m (.pin "DMI_STATUS" status)

/-- Run a debug operation on harts of a module: cluster harts, or the triad as one hart or as three (R724, R727). -/
def debugOp (m : Chip) (now dm harts : Nat) (cluster : Chip → Chip) (triad : Nat → Chip → Chip) : Chip :=
  if !svcDebug m then dmiAnswer m 2
  else if dm = 0 then cluster (dmiAnswer m 0)
  else if m.life ≠ 3 then if bit harts 0 then triad 7 (dmiAnswer m 0) else dmiAnswer m 0
  else
    let k := harts % 8
    if k = 0 then dmiAnswer m 0 else triad k (dmiAnswer (if k = 7 then m else debugSplit m now) 0)

/-- Halt copies of the triad. -/
def triadHalt (m : Chip) (now k : Nat) : Chip :=
  if haltRefused m then haltDenied m now
  else if m.triad.mode = 3 then m
  else updTriad m fun x => { x with halted := Nat.lor x.halted k, pause := some (x.pause.getD now) }

/-- Resume copies of the triad. -/
def triadRun (m : Chip) (now k : Nat) : Chip :=
  if m.triad.halted = 0 then m
  else if clearMask m.triad.halted k = 0 then triadResume m now
  else updTriad m fun x => { x with halted := clearMask x.halted k }

/-- Halt cluster harts: the cluster watchdog pauses (R718, R726). -/
def clusterHalt (m : Chip) (now k : Nat) : Chip :=
  let h := Nat.lor m.triad.harts (k % 16)
  if h = 0 then m else updTriad m fun x => { x with harts := h, cpause := some (x.cpause.getD now) }

/-- Resume cluster harts. -/
def clusterRun (m : Chip) (now k : Nat) : Chip :=
  let h := clearMask m.triad.harts (k % 16)
  updTriad m fun x =>
    if h = 0 then { x with harts := 0, ckick := resumed x.ckick x.cpause now, cpause := none } else { x with harts := h }

/-! ### Lifecycle (R730-R735) -/

/-- The lifecycle state that OTP and the service flag give (R730). -/
def lifeOf (m : Chip) : Nat :=
  if bit m.otp 2 then 4 else if bit m.otp 1 then 3 else if bit m.otp 0 then (if m.service then 2 else 1) else 0

/-- The nonce, and word `k` of it (R735). -/
def nonce (m : Chip) : List Byte := leBytes 32 (Config.freeNat m.triad.nonce)

def nonceWord (m : Chip) (k : Nat) : Nat := leNat (slice (nonce m) (4 * k) 4)

/-- Draw a new nonce. -/
def nonceNew (m : Chip) : Chip := useFree (updTriad m fun x => { x with nonce := m.free })

/-- A request ends with a code (R734). -/
def lcEnd (m : Chip) (code : Nat) : Chip := setIrq (wrN m A.DBG_AUTH_STATUS (code * 256)) .dbg 0

/-- Write LC_CHANGE: performed, or refused with a code. -/
def lcRec (m : Chip) (now target code : Nat) : Chip :=
  emit m 0x0E06 0x0E04 now [(1, m.life), (1, target), (1, if code = 0 then 1 else 2), (1, code), (8, leNat ((nonce m).take 8))]

/-- Perform a transition (R731, R732): record, erasure, OTP or NVM, and a cold reset whose latch is now. -/
def lcGo (m : Chip) (now target : Nat) : Chip :=
  let m := sessionClose (lcRec m now target 0) now
  let m := if target = 3 then eraseAll m now 1 else if target = 4 then eraseAll m now 2 else m
  let otp := if target = 3 then Nat.lor m.otp 2 else if target = 4 then Nat.lor m.otp 4 else if target = 1 then Nat.lor m.otp 1 else m.otp
  let m := { m with otp := otp, service := if target = 2 then true else if target = 1 then false else m.service }
  { m with pwr := { m.pwr with rstAt := some (now, 4) } }

/-- A refused request. -/
def lcRefuse (m : Chip) (now target code : Nat) : Chip := lcEnd (lcRec m now target code) code

/-- `deploy` (R731, R734). -/
def lcDeploy (m : Chip) (now : Nat) : Chip :=
  if m.life = 0 then
    if (rowOf m 0).isSome && (rowOf m 1).isSome && m.vault.keygen then lcEnd (lcGo m now 1) 0 else lcRefuse m now 1 0x83
  else if m.life = 2 then lcEnd (lcGo m now 1) 0
  else lcRefuse m now 1 0x15

/-- The transition that a token may command (R731). -/
def lcAllowed (life target root : Nat) : Bool :=
  (life == 1 && target == 2 && root == 1) || (life < 3 && target == 3 && root == 0) || (life < 4 && target == 4 && root < 2)

/-- Judge a token (R734): 0 passes. -/
def tokenJudge (m : Chip) (st pk sig : List Byte) : Nat :=
  let op := byteAt st 2
  let secs := leNat (slice st 56 4)
  if leNat (slice st 0 2) ≠ 1 || (op ≠ 1 && op ≠ 2) || leNat (slice st 5 3) ≠ 0 || leNat (slice st 60 4) ≠ 0
      || (op = 1 && secs ≠ 0) || (op = 2 && (secs = 0 || 86400 < secs || byteAt st 3 ≠ 0)) then 0x12
  else if slice st 8 16 ≠ deviceId || slice st 24 32 ≠ nonce m then 0x80
  else if (op = 1 && !lcAllowed m.life (byteAt st 3) (byteAt st 4)) || (op = 2 && (m.life ≠ 2 || byteAt st 4 ≠ 1)) then 0x15
  else
    let v := xmssVerify m (byteAt st 4) pk st sig
    if v = 0x83 then 0x82 else if v = 0x82 then 0x81 else v

/-- `submit` (R734, R735). -/
def tokenSubmit (m : Chip) (now : Nat) : Chip :=
  let a := rd64 m A.DBG_AUTH_ADDR_LO
  let st := innerRead m a 64
  let pk := innerRead m (a + 64) 68
  let code := tokenJudge m st pk (innerRead m (a + 192) (xmssSigLen pk))
  let m := lcEnd (bump m (if code = 0 then A.tokens_ok else A.tokens_refused) 1) code
  let m :=
    if byteAt st 2 = 2 then (if code = 0 then sessionOpen (sessionClose m now) now (leNat (slice st 56 4)) else m)
    else if code = 0 then lcGo m now (byteAt st 3)
    else lcRec m now (byteAt st 3) code
  nonceNew m

/-- Why a write to a DBG register is refused beyond its field ranges (R733). -/
def dbgCheck (who a : Nat) : Nat :=
  if (a = A.DBG_LC_CMD || a = A.DBG_AUTH_ADDR_LO || a = A.DBG_AUTH_ADDR_HI) && agentOf who ≠ 2 && who ≠ 0 then 5 else 0

/-- What a write to a DBG register does beside storing its fields. -/
def dbgEffect (m : Chip) (now a data : Nat) : Chip :=
  if a = A.DBG_LC_CMD then
    let m := rstR m a
    let m := if bit data 2 then sessionClose m now else m
    let m := if bit data 0 then lcDeploy m now else m
    if bit data 1 then tokenSubmit m now else m
  else m

/-- The words of `DBG_LC_STATUS` and `DBG_SESSION_LEFT`. -/
def lcStatus (m : Chip) : Nat :=
  m.life + 8 * (m.otp % 8) + 64 * b2n m.service + 128 * debugClass m + 512 * b2n m.triad.split

def sessionLeft (m : Chip) (now : Nat) : Nat := match m.triad.session with | some e => cdiv (e - now) sec | none => 0

/-! ### SAFE register writes (R631, R634, R637, R719, R776) -/

/-- The load window's offset of an address (R776). -/
def windowOff (a : Nat) : Option Nat := if 0x41240000 ≤ a && a < 0x41260000 then some (a - 0x41240000) else none

/-- The queue had a head at the start of the cycle: a report of the cycle itself is not yet acknowledged in it (R628). -/
def ackable (m : Chip) (now : Nat) : Bool :=
  match m.safe.q.head? with
  | some e => e.lt < now
  | none => false

/-- Why a write to a SAFE register is refused beyond its field ranges. -/
def safeCheck (m : Chip) (now who a data : Nat) : Nat :=
  if (windowOff a).isSome then (if agentOf who ≠ 2 then 5 else if m.triad.go then 4 else 0)
  else if a = A.TRIAD_CWDT_KICK then (if agentOf who ≠ 2 then 5 else 0)
  else if who ≠ 6 then 5
  else if a = A.SAFE_EC_ACK then (if bit data 0 && !ackable m now then 4 else 0)
  else if a = A.SAFE_FAULT_CTRL then (if bit data 1 && !faultFree m now then 4 else 0)
  else 0

/-- What a write to a SAFE register does beside storing its fields. -/
def safeEffect (m : Chip) (now a data : Nat) : Chip :=
  match windowOff a with
  | some o => updTriad m fun x => { x with tcm := memPut x.tcm o (leBytes 4 data) }
  | none =>
    if a = A.SAFE_EC_ACK then if bit data 0 then safeAck m now else m
    else if a = A.SAFE_EC_OVF_CLR then
      if bit data 0 && m.safe.q.length < 64 then updSafe m fun s => { s with overflow := false } else m
    else if a = A.SAFE_FAULT_CTRL then
      let m := rstR m a
      let m := if bit data 1 then faultDrop m now else m
      if bit data 0 then assertFault m now 3 else m
    else if a = A.TRIAD_WDT_KICK then wdtKick m now data
    else if a = A.TRIAD_CWDT_KICK then
      if bit data 0 && m.triad.ckick.isSome then updTriad m fun x => { x with ckick := some now } else m
    else if a = A.TRIAD_WDT_CFG || a = A.TRIAD_CWDT_CFG then wdtSet m now
    else m

/-- `CFG_TRIAD_GO` (R776, R777). -/
def triadGo (m : Chip) : Chip :=
  if m.triad.go then m
  else setF (updTriad m fun x => { x with go := true, image := x.tcm }) A.CFG_BOOT_STATUS 6 1 1

end Sys2Proof.Machine
end

