-- ==== Sys2Proof/Machine/Pair.lean ====
section
/-! DEFINITION. Redundant pairing (18): the token, the pair cycle, bundles, digests, the self-check and takeover; and the base-cycle
boundary (R310). How elements of a section are laid out where the manual leaves it open is log entry 23. -/

namespace Sys2Proof.Machine

/-- PAIR_ID, and whether pairing is enabled. -/
def pairId (m : Chip) : Nat := fld m A.GLB_STRAP 1 1

def pairEn (m : Chip) : Bool := flag m A.PAIR_CFG 0

/-- `PAIR_STATUS.role`. -/
def pairRole (m : Chip) : Nat := if !pairEn m then 0 else if m.pair.active then 2 else 1

/-- Version of the active bank. -/
def cfgVer (m : Chip) : Nat := m.cfg.ver.getD m.cfg.active 0

/-! ### Sections (R749, R750) -/

/-- A section, where it has elements. -/
def section_ (ty : Nat) (els : List (List Byte)) : List (Nat × List Byte) :=
  if els.isEmpty then [] else [(ty, els.flatten)]

/-- TIME: the mappings of D0 and DA, `w` and `holdover`, in 96 bytes. -/
def timeElement (m : Chip) : List Byte :=
  let dom := fun (c : DomClk) => packLe [(8, c.L), (16, enc c.T 128), (8, enc c.rho 64)]
  dom (domain m 0) ++ dom (domain m 1) ++ packLe [(16, enc m.time.w 128), (1, b2n m.time.holdover), (15, 0)]

/-- PN: every valid association, of transmit SCs and of receive SCs. -/
def pnElements (m : Chip) : List (List Byte) :=
  (List.range 16).flatMap fun n =>
    let el := fun (sc an sa pn : Nat) => if flag m sa 0 then [packLe [(1, n), (1, sc), (1, an), (5, 0), (8, rd64 m pn)]] else []
    ((List.range 4).flatMap fun sc => (List.range 4).flatMap fun an => el sc an (A.MACSEC_RXSC_SA n sc an) (A.MACSEC_RXSC_SA_PN_LO n sc an))
      ++ (List.range 4).flatMap fun an => el 4 an (A.MACSEC_TXSC_SA n an) (A.MACSEC_TXSC_SA_PN_LO n an)

/-- The key of a TBL element: block 1 PRS or 2 SGE, table, bank, 1 for run-time state, index. -/
def tblKey (m : Chip) (blk k run i : Nat) : List Byte := packLe [(1, blk), (1, k), (1, m.cfg.active), (1, run), (4, i)]

/-- TBL: an entry of the active bank, by table number (16 on: SGE) and index. -/
def tblElement (m : Chip) (key : Nat) : List Byte :=
  let k := key / 2 ^ 16
  let i := key % 2 ^ 16
  if k < 16 then tblKey m 1 k 0 i ++ leBytes (tblBits k / 8) (entryAt ((tablesOf m m.cfg.active).get k) i)
  else tblKey m 2 (k - 16) 0 i ++ leBytes (sgeBytes (k - 16)) (sgeEnt ((sgeNow m).get (k - 16)) i)

/-- The run-time states of R176 that are set, by table and index: the state bit, and a meter's levels and stamp. -/
def runStates (m : Chip) : List (Nat × Nat) :=
  let a := (m.prs.blocked.map fun i => (3 * 2 ^ 16 + i, 1)) ++ m.prs.latched.map fun i => (4 * 2 ^ 16 + i, 1)
  let red := fun (i : Nat) => b2n (m.prs.allRed.contains i)
  a ++ (m.prs.meters.map fun p => (5 * 2 ^ 16 + p.1, red p.1 + p.2.c * 2 ^ 64 + p.2.p * 2 ^ 128 + p.2.last * 2 ^ 192))
    ++ (m.prs.allRed.filter fun i => (sget m.prs.meters i).isNone).map fun i => (5 * 2 ^ 16 + i, 1)

/-- The elements of run-time states that differ from those last sent. -/
def runElements (m : Chip) : List (List Byte) :=
  let now := runStates m
  let el := fun (key v : Nat) => tblKey m 1 (key / 2 ^ 16) 1 (key % 2 ^ 16) ++ leBytes 32 v
  ((now.filter fun p => !m.pair.sentRun.contains p).map fun p => el p.1 p.2)
    ++ (m.pair.sentRun.filter fun p => !now.any fun q => q.1 == p.1).map fun p => el p.1 0

/-- CT: an entry, or state 0 for a free one. -/
def ctElement (m : Chip) (i : Nat) : List Byte :=
  packLe [(4, i), (4, 0)] ++ leBytes 64 (match sget m.prs.ct i with | some e => numOfCt e | none => 0)

/-- SGE: a route's state, and a freshness counter. -/
def rtElement (m : Chip) (r : Nat) : List Byte := packLe [(4, 0), (4, r)] ++ leBytes 32 (rtNum (rtOf m r))

def frElement (m : Chip) (i : Nat) : List Byte := packLe [(4, 1), (4, i), (8, (freshOf m i).1), (1, b2n (freshOf m i).2), (7, 0)]

/-- COUNTERS: a counter by block and position in the block. -/
def cntElement (p : Nat × Nat) : List Byte :=
  match blkOf p.1 with
  | some b => let k := (p.1 - b.base) / 8; packLe [(2, b.irqBit + 32 * (k / 2 ^ 16)), (2, k), (4, 0), (8, p.2)]
  | none => []

/-- Counters that differ from those last sent. -/
def cntElements (m : Chip) : List (List Byte) :=
  ((m.cnts.filter fun p => sget m.pair.sentCnts p.1 != some p.2).map cntElement)
    ++ ((m.pair.sentCnts.filter fun p => (sget m.cnts p.1).isNone).map fun p => cntElement (p.1, 0))

/-- LEDGER: event records of the cycle (R662). -/
def ledgerElements (m : Chip) : List (List Byte) := m.ledger.cycleRecs.map fun p => recBytes p.1 p.2

/-- The full state that a standby needs, one element a section (R752). -/
def fullState (m : Chip) : List (Nat × List Byte) :=
  let tbl := (List.range 9).flatMap fun k => ((tablesOf m m.cfg.active).get k).map fun p => (5, tblElement m (k * 2 ^ 16 + p.1))
  let sg := (List.range 8).flatMap fun k => ((sgeNow m).get k).map fun p => (5, tblElement m ((16 + k) * 2 ^ 16 + p.1))
  tbl ++ sg ++ ((runStates m).map fun p => (5, tblKey m 1 (p.1 / 2 ^ 16) 1 (p.1 % 2 ^ 16) ++ leBytes 32 p.2))
    ++ (m.prs.ct.map fun p => (6, ctElement m p.1)) ++ (m.sge.rt.map fun p => (7, rtElement m p.1))
    ++ (m.sge.fresh.map fun p => (7, frElement m p.1)) ++ m.cnts.map fun p => (8, cntElement p)

/-- What is left of a full sync `l` as it stands now: the elements of the same keys, the first 8 bytes of each; one that is gone went out
as a delta (R752). -/
def syncRefresh (now l : List (Nat × List Byte)) : List (Nat × List Byte) :=
  l.filterMap fun s => now.find? fun x => x.1 == s.1 && x.2.take 8 == s.2.take 8

/-- The snapshot of a boundary (R749, R750): what the next bundle carries. -/
def snapshot (m : Chip) : Chip :=
  let led := section_ 9 (ledgerElements m)
  let secs :=
    if m.pair.active then
      [(3, timeElement m)] ++ section_ 4 (pnElements m) ++ section_ 5 (m.prs.tblDirty.map (tblElement m) ++ runElements m)
        ++ section_ 6 (m.prs.ctDirty.map (ctElement m)) ++ section_ 7 (m.sge.rtDirty.map (rtElement m) ++ m.sge.frDirty.map (frElement m))
        ++ section_ 8 (cntElements m) ++ led
    else led
  let left := m.pair.fullLeft.map (syncRefresh (fullState m))
  let m := updPair m fun p => { p with secs := secs, fullLeft := left, sentCnts := m.cnts, sentRun := runStates m }
  let m := updPrs m fun p => { p with ctDirty := [], tblDirty := [] }
  updLedger (updSge m fun s => { s with rtDirty := [], frDirty := [] }) fun l => { l with cycleRecs := [] }

/-! ### The base-cycle boundary (R310, R742, R749, R788) -/

/-- The pair snapshot of boundary `k`, and what else a boundary does to the pair. -/
def pairBoundary (m : Chip) (now k : Nat) : Chip :=
  if !pairEn m then updLedger m fun l => { l with cycleRecs := [] }
  else
    let m := snapshot m
    updPair m fun p => { p with
      snap := if k = 0 then p.snap else some (k - 1, now), lease := if p.active then now else p.lease,
      since := if p.active then p.since else p.since + 1 }

/-- Boundary `k` is the one that a pending activation waits for (R788, R789). -/
def CfgPend.reached (p : CfgPend) (now k : Nat) : Bool := p.due || (decide (p.cycle ≤ k) && (p.cycle != 0 || p.notBefore ≤ now))

/-- Raise boundary `k`. The snapshot of a boundary at which a bank becomes active is taken after that (R789). -/
def boundary (m : Chip) (now k : Nat) : Chip :=
  let m := updTime m fun t => { t with bcount := k, braised := true, bnext := k + 1 }
  let m := updCfg m fun c => { c with pend := c.pend.map fun p => { p with due := p.reached now k } }
  if (m.cfg.pend.map (·.due)) = some true then m else pairBoundary m now k

/-! ### Digests and disagreement (R756-R760) -/

/-- The digest of a cycle (R756). -/
def digestOf (m : Chip) (k : Nat) : List Byte × Nat :=
  let d := (m.pair.dig.find? fun d => d.cycle == k).getD { cycle := k }
  (shake (packLe [(8, k), (8, d.n), (16, d.sum), (16, d.xor)]) 16, d.n)

/-- Judge a cycle of which both digests are held (R757-R759). -/
def digestJudge (m : Chip) (now k : Nat) : Chip :=
  match sget m.pair.own k, sget m.pair.partner k with
  | some a, some b =>
    if a = b then updPair m fun p => { p with unresolved := 0 }
    else if m.pair.check.isSome then m
    else bump (updPair m fun p => { p with check := some (k, now), ownRes := none, parRes := none }) A.pair_mismatches 1
  | _, _ => m

/-- Another pair cycle without the partner's digest (R757, R760). -/
def digestMissing (m : Chip) (now : Nat) : Chip :=
  let n := m.pair.missing + 1
  let m := bump (updPair m fun p => { p with missing := n }) A.missing 1
  if n < 3 || m.pair.lost then m
  else
    let m := setIrq (updPair m fun p => { p with lost := true }) .pair 3
    let m := emit m 0x0F03 0x0F01 now [(1, 1), (1, sat 8 n)]
    if m.pair.active then setIrq m .pair 2 else m

/-- The outcome of a mismatch whose two results are known (R759). -/
def outcome (m : Chip) (now : Nat) : Chip :=
  match m.pair.check, m.pair.ownRes, m.pair.parRes with
  | some (k, _), some own, some par =>
    let act := m.pair.active
    let a := if act then own else par
    let b := if act then par else own
    let open_ := a == b
    let n := m.pair.unresolved + b2n open_
    let m := updPair m fun p => { p with check := none, ownRes := none, parRes := none, unresolved := n }
    let m := setIrq (emit m 0x0F02 0x0F00 now [(8, k), (1, b2n !a), (1, b2n !b), (1, sat 8 n)]) .pair 1
    let m := if open_ then bump m A.unresolved_total 1 else m
    let m := if open_ && 3 ≤ n then setIrq m .pair 2 else m
    let m := if a && !b && !act then updPair m fun p => { p with fit := false } else m
    let m := if !a && b && act then tokenRelease m now 4 else m
    if (!a && !b) || (!a && b && act) || (a && !b && !act) then report m now 0x0F00 0x0F02 2 (sat 24 k) else m
  | _, _, _ => m

/-! ### Sending a bundle (R749-R752) -/

/-- Bytes of a section on the link. -/
def secBytes (s : Nat × List Byte) : Nat := 8 + s.2.length

/-- Split sections at the first that does not fit. -/
def fitSecs : Nat → List (Nat × List Byte) → List (Nat × List Byte) × List (Nat × List Byte) × Nat
  | room, [] => ([], [], room)
  | room, s :: r =>
    if secBytes s ≤ room then
      let x := fitSecs (room - secBytes s) r
      (s :: x.1, x.2)
    else ([], s :: r, 0)

/-- The header's flags. -/
def pairFlags (m : Chip) (now : Nat) (current : Bool) : Nat :=
  let p := m.pair
  b2n p.active + 2 * b2n p.fit + 4 * b2n current + 8 * b2n p.needSync + 16 * b2n (p.accept.any (now < ·)) + 32 * b2n (p.handing ≠ 0)
    + 64 * b2n m.triad.split

/-- A bundle's header. -/
def pairHeader (m : Chip) (flags k lt n : Nat) : List Byte :=
  packLe [(2, 1), (1, flags), (1, pairId m), (4, cfgVer m), (8, k), (8, lt), (4, bcycLen m), (4, n)]

/-- Bytes that the link carries from now to 10 µs before the boundary after LT `b`, less header and CRC. -/
def linkRoom (m : Chip) (now b : Nat) : Nat := (b + 4 * bcycLen m - 10 * us - now) * 1250 / us - 36

/-- Send the bundle of cycle `k`: a standby sends its digest and its Ledger records alone (R750). -/
def sendBundle (m : Chip) (now k b : Nat) (dig : Nat × List Byte) : Chip :=
  let mine := fun (l : List (Nat × List Byte)) => if m.pair.active then l else l.filter fun s => s.1 == 9
  let secs := mine m.pair.secs
  let first := [((1 : Nat), packLe [(8, k), (8, dig.1)] ++ dig.2)] ++ secs.filter fun s => s.1 ≤ 4
  let used := first.foldl (fun a s => a + secBytes s) 0
  let opt := mine m.pair.deferred ++ secs.filter fun s => 4 < s.1
  let (go, left, room) := fitSecs (linkRoom m now b - used) opt
  let full := m.pair.fullLeft.map fun l => fitSecs (room - 8) l
  let chunk := match full with
    | some ([], _ :: _, _) => []
    | some (l, _, _) =>
      if left.isEmpty then [((10 : Nat), l.flatMap fun s => packLe [(2, s.1), (2, 0), (4, s.2.length)] ++ s.2)] else []
    | none => []
  let done := !chunk.isEmpty && match full with | some (_, [], _) => true | _ => false
  let rest := if chunk.isEmpty then m.pair.fullLeft else match full with | some (_, y :: ys, _) => some (y :: ys) | _ => none
  let all := first ++ go ++ chunk
  let cur := if m.pair.active then left.isEmpty && rest.isNone else m.pair.current
  let flags := pairFlags m now cur
  let m := say m (.link 0 (pairHeader m flags k b all.length))
  let m := all.foldl (fun m s => say m (.link s.1 s.2)) m
  let m := if done then bump m A.full_syncs 1 else m
  bump (updPair m fun p => { p with
    deferred := left, secs := [], fullLeft := rest, handing := if p.handing = 0 then 0 else 2
    syncFrom := if chunk.isEmpty || p.syncFrom.isSome then p.syncFrom else some k }) A.bundles_sent 1

/-- The close of a pair cycle (R749, R757). -/
def cycleClose (m : Chip) (now k b : Nat) : Chip :=
  let d := digestOf m k
  let m := updPair m fun p => { p with
    dig := p.dig.filter (fun x => k < x.cycle), own := (sput p.own k d.1).filter (fun x => k < x.1 + 3), partner := p.partner.filter (fun x => k < x.1 + 3) }
  let m := if 0 < k && (sget m.pair.own (k - 1)).isSome && (sget m.pair.partner (k - 1)).isNone then digestMissing m now else m
  digestJudge (sendBundle m now k b (d.2, d.1)) now k

/-! ### Receiving a bundle (R739, R752-R754) -/

/-- Fold over elements of a fixed size. -/
def eachElement (n : Nat) (f : Chip → List Byte → Chip) : Nat → List Byte → Chip → Chip
  | 0, _, m => m
  | k + 1, l, m => if l.length < n || n = 0 then m else eachElement n f k (l.drop n) (f m (l.take n))

/-- Apply a PN element. -/
def applyPn (now : Nat) (m : Chip) (l : List Byte) : Chip :=
  let n := byteAt l 0
  let sc := byteAt l 1
  let an := byteAt l 2 % 4
  let v := leNat (slice l 8 8)
  if 16 ≤ n || 4 < sc then m
  else if sc = 4 then pnMarks (wr64 m (A.MACSEC_TXSC_SA_PN_LO n an) v) now n an
  else wr64 m (A.MACSEC_RXSC_SA_PN_LO n sc an) v

/-- Apply a run-time state. -/
def applyRun (m : Chip) (k i v : Nat) : Chip :=
  let set := fun (l : List Nat) => if v % 2 = 1 then addNew l i else l.filter (· != i)
  if k = 3 then updPrs m fun p => { p with blocked := set p.blocked }
  else if k = 4 then updPrs m fun p => { p with latched := set p.latched }
  else if k = 5 then updPrs m fun p => { p with
    allRed := set p.allRed, meters := sput p.meters i ⟨bits v 64 64, bits v 128 64, bits v 192 64⟩ }
  else m

/-- Apply the TBL elements: each has the size of its table's entry (R747). -/
def applyTbl (now : Nat) : Nat → List Byte → Chip → Chip
  | 0, _, m => m
  | fuel + 1, l, m =>
    if l.length < 9 then m
    else
      let blk := byteAt l 0
      let k := byteAt l 1
      let i := leNat (slice l 4 4)
      let run := byteAt l 3 = 1
      let n := if run then 32 else if blk = 1 then tblBits k / 8 else sgeBytes k
      let v := leNat (slice l 8 n)
      let m := if run then applyRun m k i v else if blk = 1 then writeEntry m now m.cfg.active k i v else sgeWrite m now m.cfg.active k i v
      applyTbl now fuel (l.drop (8 + n)) m

/-- Apply a CT element. -/
def applyCt (m : Chip) (l : List Byte) : Chip :=
  let e := ctOfNum (leNat (slice l 8 64))
  ctSet m (leNat (slice l 0 4) % 65536) (if e.state = 0 then none else some e)

/-- Apply the SGE elements: a route's state, or a freshness counter. -/
def applySge : Nat → List Byte → Chip → Chip
  | 0, _, m => m
  | fuel + 1, l, m =>
    if l.length < 9 then m
    else
      let i := leNat (slice l 4 4)
      if leNat (slice l 0 4) = 0 then
        let b := slice l 8 32
        let f := byteAt b 16
        let x : RtSt := { last := leNat (slice b 0 8), value := leNat (slice b 8 8), timedOut := bit f 0, saturated := bit f 1,
                          invalid := bit f 2, never := bit f 3, updates := leNat (slice b 24 8) }
        applySge fuel (l.drop 40) (updRt m i fun _ => x)
      else applySge fuel (l.drop 24) (setFresh m i (leNat (slice l 8 8), byteAt l 16 = 1))

/-- Apply a COUNTERS element. -/
def applyCnt (m : Chip) (l : List Byte) : Chip :=
  let b := leNat (slice l 0 2)
  match Blk.all.find? fun x => x.irqBit == b % 32 with
  | some x => setCnt m (x.base + 8 * (leNat (slice l 2 2) + b / 32 * 2 ^ 16)) (leNat (slice l 8 8))
  | none => m

/-- Apply a section that the active sends, other than FULL_SYNC. -/
def applyDelta (now : Nat) (m : Chip) (s : Nat × List Byte) : Chip :=
  let l := s.2
  let n := l.length
  match s.1 with
  | 3 => updPair m fun p => { p with heldTime := l }
  | 4 => updPair (eachElement 16 (applyPn now) n l m) fun p => { p with since := 0 }
  | 5 => applyTbl now n l m
  | 6 => eachElement 72 applyCt n l m
  | 7 => applySge n l m
  | 8 => eachElement 16 applyCnt n l m
  | _ => m

/-- The sections inside a FULL_SYNC chunk. -/
def chunkSecs : Nat → List Byte → List (Nat × List Byte)
  | 0, _ => []
  | k + 1, l =>
    if l.length < 8 then []
    else
      let n := leNat (slice l 4 4)
      (leNat (slice l 0 2), slice l 8 n) :: chunkSecs k (l.drop (8 + n))

/-- Partner records join the Ledger (R663). -/
def applyLedger (m : Chip) (l : List Byte) : Chip :=
  eachElement 32 (fun m e =>
    mergeIn m m.pair.delta (leNat (slice e 8 8), ⟨leNat (slice e 18 2), leNat (slice e 16 2), leNat (slice e 0 8), slice e 20 12⟩)) l.length l m

/-- Apply a section of a whole bundle; `all` permits sections other than LEDGER (R753). -/
def applySection (now : Nat) (all : Bool) (m : Chip) (s : Nat × List Byte) : Chip :=
  if s.1 = 9 then (if flag m A.LEDGER_CFG 0 then applyLedger m s.2 else m)
  else if !all then m
  else if s.1 = 1 then updPair m fun p => { p with partner := sput p.partner (leNat (slice s.2 0 8)) (slice s.2 16 16) }
  else if s.1 = 2 then
    match m.pair.check with
    | some (k, _) => if leNat (slice s.2 0 8) = k then updPair m fun p => { p with parRes := some (byteAt s.2 8 = 0) } else m
    | none => m
  else if m.pair.active then m
  else if s.1 = 10 then
    (chunkSecs s.2.length s.2).foldl (applyDelta now) (updPair m fun p => { p with needSync := false })
  else applyDelta now m s

/-- A bundle that fails its CRC is discarded (R752). -/
def bundleBad (m : Chip) (now : Nat) : Chip :=
  let m := setIrq (bump m A.link_crc_err 1) .pair 4
  emit (updPair m fun p => { p with needSync := true, current := false }) 0x0F03 0x0F01 now [(1, 2), (1, sat 8 m.pair.missing)]

/-- Both devices hold the token (R739). -/
def dualActive (m : Chip) (now : Nat) : Chip :=
  let m := if pairId m = 1 then tokenRelease m now 8 else m
  report m now 0x0F00 0x0FF0 3 0

/-- A partner that asks for the full state in its bundle of cycle `k` is to be sent it: no full sync is under way, or the partner has not
taken the chunks of one whose first went out in an earlier cycle (R752). -/
def syncDue (m : Chip) (k : Nat) : Bool :=
  match m.pair.syncFrom with
  | some f => f < k
  | none => m.pair.fullLeft.isNone

/-- A whole bundle: header fields and sections in order (R739, R752-R754, R757, R760). -/
def bundleGood (m : Chip) (now flags ver k lt len : Nat) (secs : List (Nat × List Byte)) : Chip :=
  let m := wrN (updPair m fun p => { p with pFlags := flags }) A.PAIR_PARTNER_VER ver
  let m := if m.pair.lost then emit (updPair m fun p => { p with lost := false }) 0x0F03 0x0F01 now [(1, 0), (1, 0)] else m
  let m := updPair m fun p => { p with
    missing := 0, delta := match p.snap with | some (j, b) => if j = k then (lt : Int) - b else p.delta | none => p.delta }
  let m := if m.pair.active && bit flags 0 then dualActive m now else m
  let differs := ver ≠ cfgVer m || len ≠ bcycLen m
  let stop := !m.pair.active && differs
  let m := updPair m fun p => { p with cfgMismatch := stop, fit := p.fit && !stop }
  let m := secs.foldl (applySection now !stop) m
  let m := if m.pair.active && bit flags 3 && syncDue m k then updPair m fun p => { p with fullLeft := some (fullState m), syncFrom := none } else m
  let cur := !m.pair.active && bit flags 0 && bit flags 2 && !m.pair.needSync && !stop
  let m := if cur && !m.pair.current then setIrq (updPair m fun p => { p with current := true }) .pair 5 else m
  outcome (digestJudge (bump m A.bundles_applied 1) now k) now

/-! ### Takeover (R738, R761) -/

/-- The new active's packet numbers (R761). -/
def pnSkip (m : Chip) (now k : Nat) : Chip :=
  (List.range 16).foldl (fun m n => (List.range 4).foldl (fun m an =>
    if flag m (A.MACSEC_TXSC_SA n an) 0 then
      pnMarks (wr64 m (A.MACSEC_TXSC_SA_PN_LO n an) (min (pnMax m n) (rd64 m (A.MACSEC_TXSC_SA_PN_LO n an) + k))) now n an
    else m) m) m

/-- Claim the token (R738, R761). -/
def tokenClaim (m : Chip) (now : Nat) : Chip :=
  let k := 1 + m.pair.since
  let m := updPair m fun p => { p with active := true, lease := now, release := some (now + 20 * us), accept := none }
  let m := freshSkip (pnSkip m now (rd64 m A.PAIR_PN_SKIP_LO * k)) (rd64 m A.PAIR_FRESH_SKIP_LO * k)
  let m := bump { m with rcvy := [] } A.takeovers 1
  say (setIrq (emit m 0x0F01 0x0F00 now [(1, 2), (1, 1)]) .pair 0) (.pin "PAIR_ACT" 0)

/-- The device may claim (R738): FAULT of the partner is an input. -/
def mayClaim (m : Chip) (now : Nat) (fltIn : Bool) : Bool :=
  let p := m.pair
  pairEn m && !p.active && flag m A.PAIR_CTRL 0 && !m.safe.fault && !m.triad.split && committed m
  && (match p.holdoff with | some d => d ≤ now | none => true) && (p.fit || fltIn || p.lost)

/-! ### Registers -/

/-- Why a write to a PAIR register is refused beyond its field ranges (R765, R766). -/
def pairCheck (m : Chip) (a data : Nat) : Nat :=
  if a = A.PAIR_CMD then
    let f := m.pair.pFlags
    if bit data 0 && !(m.pair.active && bit f 1 && bit f 2 && bit f 4) then 4
    else if bit data 1 && pairRole m ≠ 1 then 4
    else 0
  else 0

/-- What a write to a PAIR register does beside storing its fields. -/
def pairEffect (m : Chip) (now a data : Nat) : Chip :=
  if a = A.PAIR_CMD then
    let m := rstR m a
    let m := if bit data 0 then updPair m fun p => { p with handing := 1 } else m
    let ms10 := fld m A.PAIR_TIMING 24 8
    let m := if bit data 1 then updPair m fun p => { p with accept := some (now + if ms10 = 0 then sec else ms10 * 10 * ms) } else m
    if bit data 2 then updPair m fun p => { p with fit := true } else m
  else if a = A.PAIR_CFG && !pairEn m then tokenRelease m now 7
  else m

/-- The word of `PAIR_STATUS`; the two levels that the device does not drive are inputs and read free. -/
def pairStatus (m : Chip) (now : Nat) : Nat :=
  let p := m.pair
  pairRole m + 4 * pairId m + 8 * b2n p.fit + 16 * b2n p.current + (if p.active then 0 else 32 * (freeVal m % 2))
    + 64 * (freeVal (useFree m) % 2) + 128 * b2n p.lost + 256 * b2n p.cfgMismatch + 512 * b2n (p.holdoff.any (now < ·))
    + 1024 * min 3 p.unresolved + 4096 * min 3 p.missing

end Sys2Proof.Machine
end

