-- ==== Sys2Proof/Machine/Cfg.lean ====
section
/-! DEFINITION. CFG and the boot ROM (19): signed objects, image records, the checks of a commit, the bank states, activation,
control firmware restart, and boot. Commands that apply registers and tables stand in `Image.lean`. -/

namespace Sys2Proof.Machine

/-! ### Signed objects (R772, R773) -/

/-- A signed object as read: header, payload, public key, signature. -/
structure SObj where
  hdr : List Byte
  body : List Byte
  pk : List Byte
  sig : List Byte
deriving DecidableEq, Repr

/-- The payload length that a header declares, and what the payload takes in the object. -/
def hdrLen (h : List Byte) : Nat := leNat (slice h 16 4)

def hdrRoom (h : List Byte) : Nat := cdiv (hdrLen h) 64 * 64

def hdrVersion (h : List Byte) : Nat := leNat (slice h 8 4)

def hdrSec (h : List Byte) : Nat := leNat (slice h 12 4)

def hdrLoad (h : List Byte) : Nat := leNat (slice h 20 4)

/-- An object in the internal address space. -/
def objAt (m : Chip) (a : Nat) : SObj :=
  let h := innerRead m a 64
  let k := a + 64 + hdrRoom h
  let pk := innerRead m k 68
  { hdr := h, body := innerRead m (a + 64) (hdrLen h), pk := pk, sig := innerRead m (k + 128) (xmssSigLen pk) }

/-- An object in flash, as the bytes that the boot ROM reads. -/
def objOf (l : List Byte) : SObj :=
  let h := slice l 0 64
  let k := 64 + hdrRoom h
  let pk := slice l k 68
  { hdr := h, body := slice l 64 (hdrLen h), pk := pk, sig := slice l (k + 128) (xmssSigLen pk) }

/-- Step 1 of R773 fails. -/
def hdrBad (ty : Nat) (h : List Byte) : Bool :=
  leNat (slice h 0 4) != 0x30475856 || leNat (slice h 4 2) != 1 || byteAt h 6 != ty ||
  (if ty = 4 then hdrSec h != 0 || hdrLoad h != 0 || 2 ≤ leNat (slice h 28 4) || 3145728 < hdrLen h
   else leNat (slice h 28 4) != 0)

/-- Judge an object as a type (R773), as `CFG_STATUS.code`; `ecc` tells that its read met a double-symbol error. -/
def SObj.judge (m : Chip) (ty : Nat) (ecc : Bool) (o : SObj) : Nat :=
  let root := byteAt o.hdr 7
  if ecc then 0x14
  else if hdrBad ty o.hdr then 0x12
  else if 2 ≤ root || (root = 1 && (rowOf m 1).isNone) then 0x81
  else
    let v := xmssVerify m root o.pk o.hdr o.sig
    if v = 0x83 then 0x81
    else if v ≠ 0 then 0x80
    else if sha3 o.body ≠ slice o.hdr 32 32 then 0x82
    else if (if ty = 4 then hdrVersion o.hdr < (ctrOf m 2).next else hdrSec o.hdr < (ctrOf m 3).next) then 0x83
    else 0

/-- The measurement of an object. -/
def SObj.measure (o : SObj) : List Byte := sha3 o.hdr

/-! ### The checks of a commit (R784); `v` is the device with the bank active -/

/-- Line rate of a port's configured mode in kb/s. -/
def cfgRate (v : Chip) (n : Nat) : Nat := rateOf (linkSpeed v n (if laneMode v n = 3 then 6 else 3))

/-- Check 1: MACsec line rate in both directions within the Mint reservation (R32). -/
def checkMacsec (v : Chip) : Bool :=
  let ps := (List.range 16).filter fun n => macsecTx v n || macsecRx v n
  2 * ps.foldl (fun a n => a + cfgRate v n) 0 ≤ 51200000 * fld v A.MINT_TELLER_CFG 0 4

/-- Members of a group. -/
def lagPorts (v : Chip) (g : Nat) : List Nat := bitList (lagMembers v g) 16

/-- Checks 2 and 3: members of one kind and speed (R109), in one zone (R188). -/
def checkLag (v : Chip) : Bool :=
  (List.range 8).all fun g =>
    let l := lagPorts v g
    (l.all isB || l.all isE) && l.all fun p => cfgRate v p == cfgRate v (l.headD 0)

def checkLagZone (v : Chip) : Bool :=
  (List.range 8).all fun g => (lagPorts v g).all fun p => portZone v p == portZone v ((lagPorts v g).headD 0)

/-- Checks 4 and 5: headroom and pool (R231), Purse burst (R288). -/
def checkPool (v : Chip) : Bool := 256 ≤ hdrm v && 8192 ≤ poolSize v

def checkPurse (v : Chip) : Bool :=
  (List.range 24).all fun n =>
    match (schOf v n).purse with
    | none => true
    | some p => purseBound v n (rdN v (A.TM_SCH_PORT_CFG n)) ≤ (p.burst : Int)

/-- Whether no two spans of a list, each a start and a length, share a place. -/
def disjoint : List (Nat × Nat) → Bool
  | [] => true
  | x :: r => (r.all fun y => x.1 + x.2 ≤ y.1 || y.1 + y.2 ≤ x.1 || x.2 == 0 || y.2 == 0) && disjoint r

/-- Check 6: CAN partitions and slots (R452). -/
def checkCan (v : Chip) : Bool :=
  let part := fun c => (fld v (A.CAN_RAM_PART c) 0 7, fld v (A.CAN_RAM_PART c) 8 8)
  disjoint ((List.range 16).map part) && (List.range 16).all fun c =>
    (part c).1 + (part c).2 ≤ 128 &&
      slotBytes v c * (rxBufs v c + (List.range 4).foldl (fun a f => a + fifoDepth v c f) 0) ≤ (part c).2 * 4096

/-- Check 7: images of two PDUs (R508); check 8: a counter serves one direction (R540). -/
def checkImages (v : Chip) : Bool := disjoint (((sgeNow v).pdu.filter fun p => pValid p.2).map fun p => (pImg p.2, pLen p.2))

def checkFresh (v : Chip) : Bool :=
  let sec := (sgeNow v).pdu.filter fun p => pValid p.2 && pSecoc p.2
  sec.all fun a => sec.all fun b => pTx a.2 == pTx b.2 || pProf a.2 != pProf b.2

/-- A ring whose type, owner or completion ring is set; others are left out of the checks. -/
def ringSet (v : Chip) (r : Nat) : Bool := Nat.land (rdN v (A.HIF_RING_CFG r)) 0x3F03E != 0

/-- Check 9: completion rings (R568). -/
def checkCpl (v : Chip) : Bool :=
  let work := (List.range 64).filter fun r => ringSet v r && ringType v r != 5
  work.all fun r =>
    ringType v (ringCpl v r) == 5 && ringOwner v (ringCpl v r) == ringOwner v r &&
      ((ringType v r != 3 && ringType v r != 6) || work.all fun q => q == r || ringCpl v q != ringCpl v r)

/-- Check 10: frame RX map (R585); check 11: pairing needs the base cycle (R748); check 12: rings of the triad (R809). -/
def checkRxMap (v : Chip) : Bool :=
  (List.range 3).all fun p => (List.range 8).all fun tc =>
    let e := rxMap v p tc
    !bit e 7 || (ringType v (e % 64) == 1 && (if p < 2 then ringOwner v (e % 64) == p else 2 ≤ ringOwner v (e % 64)))

def checkPair (v : Chip) : Bool := !pairEn v || flag v A.TIME_BCYC_CFG 31

def checkTriad (v : Chip) : Bool := (List.range 52).all fun r => !(ringSet v r && ringOwner v r == 3)

/-- The first check that fails; 0 when all pass. -/
def failedCheck (v : Chip) : Nat :=
  if !checkMacsec v then 1 else if !checkLag v then 2 else if !checkLagZone v then 3 else if !checkPool v then 4
  else if !checkPurse v then 5 else if !checkCan v then 6 else if !checkImages v then 7 else if !checkFresh v then 8
  else if !checkCpl v then 9 else if !checkRxMap v then 10 else if !checkPair v then 11 else if !checkTriad v then 12 else 0

/-! ### Bank states (R787) -/

def bankOf (m : Chip) (b : Nat) : Bank := m.cfg.bank.getD b .empty

def setBank (m : Chip) (b : Nat) (s : Bank) : Chip := updCfg m fun c => { c with bank := lset c.bank b fun _ => s }

/-- End a command with a code; a failure sets `refused`. -/
def cfgCode (m : Chip) (code : Nat) : Chip :=
  let m := updCfg m fun c => { c with code := code }
  if code = 0 then m else setIrq m .cfg 2

/-- Write CFG_LOAD for a bank. -/
def loadRec (m : Chip) (now bank ok code check ver : Nat) (meas : List Byte) : Chip :=
  emit m 0x1001 (srcId 0x10 bank) now [(1, ok), (1, code), (1, check), (1, 0), (4, ver), (4, leNat (slice meas 0 4))]

/-- A load has failed or was cancelled (R783, R784, R787): a loading bank is left empty, the open bank A stays open. -/
def loadFail (m : Chip) (now code check : Nat) (l : CfgLoad) : Chip :=
  let m := bump (cfgCode (updCfg m fun c => { c with load := none }) code) A.load_fail 1
  let m := if code = 0x84 then wrN m A.CFG_CHECK check else m
  if bankOf m l.bank = .loading then
    loadRec (setBank m l.bank .empty) now l.bank 0 code check (hdrVersion l.hdr) (sha3 l.hdr)
  else m

/-- Write CFG_ACTIVATE for a bank. -/
def actRec (m : Chip) (now bank outcome k : Nat) (rollback : Bool) : Chip :=
  emit m 0x1002 (srcId 0x10 bank) now [(1, b2n rollback), (1, outcome), (2, 0), (8, k)]

/-- What follows whenever a bank becomes active (R785): the reserved pool (R349), the host ports (R589), the watchdogs (R717). -/
def bankActs (m : Chip) (now : Nat) : Chip := wdtSet (hostPorts (fillPool m) now) now

/-- A bank has become active: records, events and LT. -/
def bankActive (m : Chip) (now bank k : Nat) (rollback : Bool) : Chip :=
  let m := if m.cfg.meas.getD bank [] = [] then m else extendBmr m 2 (m.cfg.meas.getD bank [])
  let m := actRec (wr64 m A.CFG_ACT_LT_LO now) now bank 0 k rollback
  let m := setIrq (bump m (if rollback then A.rollbacks else A.activations) 1) .cfg 1
  updCfg m fun c => { c with gclDue := true }

/-- Valid routes of a table. -/
def validRoutes (t : SgeTabs) : List Nat := (t.route.filter fun p => bit p.2 0).map (·.1)

/-- Commit the open bank A (R780, R781): the hash seed and configuration are loaded (R90), and every valid route starts (R518). -/
def commitOpen (m : Chip) (now ver : Nat) (meas : List Byte) : Chip :=
  let m := setBank m 0 .active
  let m := updCfg m fun c => { c with done := true, load := none, ver := lset c.ver 0 fun _ => ver, meas := lset c.meas 0 fun _ => meas }
  let m := updPrs m fun p => { p with seed := rdN m A.PRS_HASH_SEED, hashCfg := rdN m A.PRS_HASH_CFG }
  let m := routesFrom m now (validRoutes (sgeNow m)) true
  bankActive (bankActs m now) now 0 0 false

/-- `CFG_CMD.commit` (R780, R784). -/
def cfgCommit (m : Chip) (now : Nat) : Chip :=
  if m.life ≠ 0 && m.life ≠ 3 then cfgCode m 0x15
  else
    let k := failedCheck m
    if k ≠ 0 then cfgCode (wrN m A.CFG_CHECK k) 0x84
    else cfgCode (commitOpen m now 0 []) 0

/-- The bank that a load goes to (R781). -/
def loadBank (m : Chip) : Nat := if bankOf m m.cfg.active = .opened then m.cfg.active else 1 - m.cfg.active

/-- Contents of the other bank at the start of a load (R782). -/
def startBank (m : Chip) (base : Bool) : Chip :=
  let b := 1 - m.cfg.active
  let tabs := if base then activeTables m else {}
  let stabs := if base then sgeNow m else {}
  let m := updPrs m fun p => if b = 0 then { p with tabA := tabs } else { p with tabB := tabs }
  let m := updSge m fun s => if b = 0 then { s with tabA := stabs } else { s with tabB := stabs }
  let m := updCfg m fun c => { c with saved := [] }
  if base then
    let own := (m.regs.map (·.1)).filter (fun a => rwlMask a != 0)
    let m := own.foldl (fun m a => saveRwl m a (rdN m a)) m
    m.cfg.cold.foldl (fun m p => saveRwl m p.1 p.2.toNat) m
  else m

/-- `CFG_CMD.load` (R781, R787). -/
def cfgLoad (m : Chip) (now : Nat) (ecc : Bool) : Chip :=
  let o := objAt m (rd64 m A.CFG_IMG_ADDR_LO)
  let b := loadBank m
  let code := o.judge m 4 ecc
  let open_ := bankOf m b = .opened
  let l : CfgLoad := ⟨b, o.hdr, o.body⟩
  let m := if open_ then m else updCfg (setBank m b .loading) fun c => { c with
    ver := lset c.ver b fun _ => 0, meas := lset c.meas b fun _ => [] }
  if code ≠ 0 then loadFail m now code 0 l
  else
    let m := updCfg m fun c => { c with load := some l, gcl := lset c.gcl b fun _ => [] }
    if open_ then m else startBank m (bit (byteAt o.hdr 28) 0)

/-! ### Activation (R788-R792) -/

/-- The base cycle runs. -/
def bcycOn (m : Chip) : Bool := flag m A.TIME_BCYC_CFG 31

/-- Fix the boundary of an activation or rollback, or end with LATE or NO_CYCLE (R788). -/
def cfgPend (m : Chip) (now : Nat) (rollback : Bool) : Chip :=
  let other := 1 - m.cfg.active
  let k := rd64 m A.CFG_ACT_CYCLE_LO
  if m.cfg.ver.getD other 0 < (ctrOf m 2).next then cfgCode m 0x83
  else if flag m A.CFG_ACT_CFG 0 then
    if !bcycOn m then cfgCode m 0x86
    else if k < m.time.bnext || ((bcycBase m + k * bcycLen m : Nat) : Int) * nsU ≤ workU m now then cfgCode m 0x85
    else cfgCode (updCfg m fun c => { c with pend := some ⟨rollback, true, k, 0, false⟩ }) 0
  else
    let at_ := now + 10 * us
    let k := if bcycOn m then max m.time.bnext (bcycFrom m (workU m at_)) else 0
    let m := if bcycOn m then m else later m at_ .activation
    cfgCode (updCfg m fun c => { c with pend := some ⟨rollback, false, k, at_, false⟩ }) 0

/-- The cold fields of R786 at an activation: for one register, the bank that leaves keeps its own value, the bank that comes keeps
its own where it differs from the running one. -/
def coldKeep (m : Chip) (a : Nat) : Chip :=
  let run := Nat.land (rdN m a) (rwlMask a)
  let own := ((sget m.cfg.cold a).map (·.toNat)).getD run
  let new := savedRwl m a
  let m := saveRwl m a own
  updCfg m fun c => { c with cold := if new = run then sdel c.cold a else sput c.cold a (BitVec.ofNat 32 new) }

/-- Apply R786: `cold_diff`, its record, and `hash_ignored` (R91). -/
def coldFields (m : Chip) (now bank : Nat) : Chip :=
  let as := ((rwlAddrs m).filter coldReg ++ m.cfg.cold.map (·.1)).dedup
  let m := as.foldl coldKeep m
  match m.cfg.cold with
  | [] => updCfg m fun c => { c with coldDiff := false }
  | p :: _ =>
    let m := setIrq (emit (updCfg m fun c => { c with coldDiff := true }) 0x1003 (srcId 0x10 bank) now [(4, p.1)]) .cfg 3
    if m.cfg.cold.any fun q => q.1 == A.PRS_HASH_SEED || q.1 == A.PRS_HASH_CFG then laneEvt m 11 else m

/-- Meters whose entry differs between the banks restart (R176); routes whose entry differs take R518 (R547). -/
def tablesSwap (old new : Tables) (so sn : SgeTabs) (m : Chip) (now : Nat) : Chip :=
  let ms := ((old.meter ++ new.meter).map (·.1)).dedup.filter fun i => entryAt old.meter i != entryAt new.meter i
  let m := ms.foldl (fun m i => meterRestart m now i (entryAt new.meter i)) m
  let rs := (validRoutes sn).filter fun r => sgeEnt so.route r != sgeEnt sn.route r
  let first := fun r => !bit (sgeEnt so.route r) 0
  routesFrom (routesFrom m now (rs.filter first) true) now (rs.filter fun r => !first r) false

/-- The pending bank becomes active (R789). -/
def activate (m : Chip) (now : Nat) (p : CfgPend) : Chip :=
  let old := m.cfg.active
  let (t0, s0) := (activeTables m, sgeNow m)
  let m := updCfg (swapBanks m) fun c => { c with pend := none, actLt := now }
  let new := m.cfg.active
  let m := coldFields (setBank (setBank m new .active) old .previous) now new
  let m := tablesSwap t0 (activeTables m) s0 (sgeNow m) m now
  let m := bankActive (bankActs m now) now new (if p.due then m.time.bcount else 0) p.rollback
  if p.due then pairBoundary m now m.time.bcount else m

/-- An activation whose boundary has been raised, or whose instant has come without a base cycle, takes effect. -/
def settleAct (m : Chip) (now : Nat) : Chip :=
  match m.cfg.pend with
  | some p => if p.due || (!bcycOn m && !p.atEn && decide (p.notBefore ≤ now)) then activate m now p else m
  | none => m

/-- A pending activation is cancelled (R787, R793). -/
def actCancel (m : Chip) (now : Nat) : Chip :=
  match m.cfg.pend with
  | some p => actRec (updCfg m fun c => { c with pend := none }) now (1 - m.cfg.active) 2 p.cycle p.rollback
  | none => m

/-- `CFG_CMD.cancel` (R787). -/
def cfgCancel (m : Chip) (now : Nat) : Chip :=
  match m.cfg.load with
  | some l => if bankOf m l.bank = .loading then loadFail m now 0 0 l else m
  | none => cfgCode (actCancel (settleAct m now) now) 0

/-- `CFG_CMD.floor` (R792). -/
def cfgFloor (m : Chip) (now : Nat) (nvmOk : Bool) : Chip :=
  let (m, st) := ctrAdvance m now 2 (cfgVer m) nvmOk
  cfgCode m (if st = 0 then 0 else if st = 0x81 then 0x88 else 0x83)

/-! ### Control firmware restart (R794-R796) -/

/-- Disable a ring without a completion (R606, R796); CAN messages that it placed go on for ring 64, which no ring is. -/
def ringOff (m : Chip) (now r : Nat) : Chip :=
  let js := m.mint.jobs.filter fun j => j.ring == r
  let m := js.foldl (fun m j => coreEnds (cplRelease (dropJob m (jobKey j)) r) now j.core) m
  let orphan := fun (x : CMsg) => if x.ring.map (·.1) = some r then { x with ring := x.ring.map fun q => (64, q.2) } else x
  let cans := m.cl.can.map fun (c : CanCh) => { c with fifos := c.fifos.map fun l => l.map orphan }
  let lins := m.cl.lin.map fun (c : LinCh) => { c with pubs := c.pubs.map fun p => (p.1, orphan p.2) }
  let m : Chip := { m with cl := { m.cl with can := cans, lin := lins } }
  let m :=
    match m.ledger.exp with
    | some e => if r = expRing m then updLedger (cplRelease m r) fun l => { l with exp := none, unexp := e.seqs ++ l.unexp } else m
    | none => m
  let m := dropWork m r
  updRing (clrR m (A.HIF_RING_CFG r) 1) r fun x => { x with resv := if ringType m r = 5 then 0 else x.resv, gather := none, stopping := false, stopped := false, withdrawTo := none }

/-- Disable every ring of an owner. -/
def ringsOff (m : Chip) (now owner : Nat) : Chip :=
  ((List.range 64).filter fun r => ringEn m r && ringOwner m r == owner).foldl (fun m r => ringOff m now r) m

/-- `CFG_FW_CMD.restart` (R794-R796): `ecc` tells that the read of the object met a double-symbol error. -/
def fwRestart (m : Chip) (now who : Nat) (ecc : Bool) : Chip :=
  let o := objAt m (rd64 m A.CFG_FW_ADDR_LO)
  let code := o.judge m 2 ecc
  let m := setF m A.CFG_FW_STATUS 8 8 code
  let m := emit m 0x1004 (srcId 0x10 0x10) now [(1, code), (1, agentOf who), (2, 0), (4, hdrVersion o.hdr), (4, hdrSec o.hdr)]
  if code ≠ 0 then setIrq m .cfg 2
  else
    let m := bump (orR (memStore m 2 (hdrLoad o.hdr) o.body) A.CFG_FW_STATUS 2) A.fw_restarts 1
    let m := agentGone (tmPortDown (ringsOff m now 2) now 22) 2
    let m := { m with vault := { m.vault with muted := m.vault.muted || m.vault.queue.contains 2 } }
    hostPorts (extendBmr m 1 o.measure) now

/-- `CFG_FW_CMD.done` (R795). -/
def fwDone (m : Chip) : Chip :=
  if flag m A.CFG_FW_STATUS 1 then setIrq (clrR m A.CFG_FW_STATUS 2) .cfg 4 else m

/-! ### Boot (R769-R775) -/

/-- A flash directory holds (R771). -/
def dirOk (d : List Byte) : Bool :=
  leNat (slice d 0 4) == 0x49445856 && leNat (slice d 4 2) == 1 && crc32c 0xFFFFFFFF (slice d 0 252) == leNat (slice d 252 4)

/-- The copy that the boot ROM uses. -/
def dirPick (d0 d1 : List Byte) : Option Nat :=
  let s := fun d => leNat (slice d 8 4)
  if dirOk d0 && (!dirOk d1 || s d1 ≤ s d0) then some 0 else if dirOk d1 then some 1 else none

/-- A directory names a first-stage object for a slot. -/
def dirHas (d : List Byte) (slot : Nat) : Bool :=
  (List.range (min 14 (leNat (slice d 12 4)))).any fun e => byteAt d (16 + 16 * e) == 1 && byteAt d (17 + 16 * e) == slot

/-- The mode in which the boot ROM goes on after the directory: 8D-8D-8D with the directory's dummy cycles where its `xspi_mode` is 1 and
VDDIO_A is at 1.8 V, and 1S-1S-1S otherwise (R770, R824). -/
def xspiMode (m : Chip) (d : List Byte) : Option Nat :=
  if byteAt d 6 = 1 && m.pwr.vlevel.getD 0 0 = 1800 then some (byteAt d 7) else none

/-- Load a first-stage object and measure it (R774). -/
def bootLoad (m : Chip) (o : SObj) : Chip := extendBmr (memStore m 2 (hdrLoad o.hdr) o.body) 0 o.measure

/-- The boot ROM: the two directory copies and the first-stage objects of slots 0 and 1 as the flash holds them (R771, R774, R775). -/
def bootRom (m : Chip) (now : Nat) (d0 d1 obj0 obj1 : List Byte) : Chip :=
  let m := bootExtend m now (debugClass m) 0
  let recovery := fun (m : Chip) (code dir : Nat) =>
    orR (wrN m A.CFG_BOOT_STATUS (4 + 16 * dir + 256 * code)) A.HIF_BAR2_CFG 1
  match dirPick d0 d1 with
  | none => recovery m 0x12 0
  | some k =>
    let d := if k = 0 then d0 else d1
    let m := updCfg m fun c => { c with xspi := xspiMode m d }
    let judge := fun (slot : Nat) (l : List Byte) => if dirHas d slot then (objOf l).judge m 1 false else 0x12
    let c0 := judge 0 obj0
    if c0 = 0 then wrN (bootLoad m (objOf obj0)) A.CFG_BOOT_STATUS (3 + 16 * k)
    else
      let c1 := judge 1 obj1
      if c1 = 0 then wrN (bootLoad m (objOf obj1)) A.CFG_BOOT_STATUS (3 + 16 * k + 32 + 256 * c0)
      else recovery m c1 k

/-- `CFG_BOOT_CMD.go` (R775). -/
def recoveryGo (m : Chip) (ecc : Bool) : Chip :=
  let o := objAt m (rd64 m A.CFG_IMG_ADDR_LO)
  let code := o.judge m 1 ecc
  if code = 0 then setF (bootLoad m o) A.CFG_BOOT_STATUS 0 4 3 else setF m A.CFG_BOOT_STATUS 8 8 code

/-! ### Writes to the CFG registers, and derived words -/

/-- Why a write to a CFG register is refused beyond its field ranges. -/
def cfgCheck (m : Chip) (who a data : Nat) : Nat :=
  let ag := agentOf who
  let c := m.cfg
  let other := bankOf m (1 - c.active)
  let opened := bankOf m c.active = .opened
  if a = A.CFG_CMD then
    if ag ≠ 2 && ag ≠ 3 && who ≠ 0 then 5
    else if bit data 0 && !(opened && c.load.isNone) then 4
    else if bit data 1 && !(c.load.isNone && (opened || (c.pend.isNone && (other = .empty || other = .loaded || other = .previous)))) then 4
    else if bit data 2 && !(c.pend.isNone && !opened && other = .loaded) then 4
    else if bit data 3 && c.pend.isSome then 4
    else if bit data 4 && !(c.pend.isSome || (match c.load with | some l => bankOf m l.bank = .loading | none => false)) then 4
    else 0
  else if a = A.CFG_FW_CMD then (if ag ≠ 2 && ag ≠ 3 then 5 else if bit data 0 && flag m A.CFG_FW_STATUS 1 then 4 else 0)
  else if a = A.CFG_BOOT_CMD then (if who ≠ 0 then 5 else if fld m A.CFG_BOOT_STATUS 0 4 ≠ 4 then 4 else 0)
  else 0

/-- What a write to a CFG register does beside storing its fields; `flt` tells that a read of an object met a double-symbol error, or
that an NVM write failed. -/
def cfgEffect (m : Chip) (now who a data : Nat) (flt : Bool) : Chip :=
  if a = A.CFG_CMD then
    let m := rstR m a
    let m := if bit data 0 then cfgCommit m now else m
    let m := if bit data 1 then cfgLoad m now flt else m
    let m := if bit data 2 then cfgPend m now false else m
    let m := if bit data 3 then (if bankOf m (1 - m.cfg.active) = .previous then cfgPend m now true else cfgCode m 0x87) else m
    let m := if bit data 4 then cfgCancel m now else m
    if bit data 5 then cfgFloor m now (!flt) else m
  else if a = A.CFG_FW_CMD then
    let m := rstR m a
    let m := if bit data 0 then fwRestart m now who flt else m
    if bit data 1 then fwDone m else m
  else if a = A.CFG_BOOT_CMD then (let m := rstR m a; if bit data 0 then recoveryGo m flt else m)
  else if a = A.CFG_TRIAD_GO then (let m := rstR m a; if bit data 0 then triadGo m else m)
  else m

/-- The number that `CFG_STATUS` gives a bank's state. -/
def bankNum (m : Chip) (b : Nat) : Nat :=
  if m.cfg.pend.isSome && b ≠ m.cfg.active then 4
  else match bankOf m b with
    | .empty => 0 | .opened => 1 | .loading => 2 | .loaded => 3 | .active => 5 | .previous => 6

/-- The words of `CFG_STATUS`, `CFG_VER_A` and `_B`, `CFG_FLOOR` and `CFG_PEND`. -/
def cfgStatus (m : Chip) : Nat :=
  b2n m.cfg.load.isSome + 2 * b2n m.cfg.done + 4 * m.cfg.active + 8 * b2n m.cfg.coldDiff + 16 * bankNum m 0 + 256 * bankNum m 1
    + 65536 * m.cfg.code

def cfgBankVer (m : Chip) (b : Nat) : Nat := m.cfg.ver.getD b 0

def cfgFloorWord (m : Chip) : Nat := (ctrOf m 2).next % 2 ^ 32

def cfgPendWord (m : Chip) : Nat := (m.cfg.pend.map (·.cycle)).getD 0

end Sys2Proof.Machine
end

