-- ==== Sys2Proof/Machine/Pwr.lean ====
section
/-! DEFINITION. PWR (16) and the supply, clock and reset pins (20, 21): park entry and its phases, wake sources, retention, the wake
sequence, PMIC and AVS, idle gating, single domains, cold reset, and the clock and temperature monitors. -/

namespace Sys2Proof.Machine

def updPwr (m : Chip) (f : PwrSt → PwrSt) : Chip := { m with pwr := f m.pwr }

/-! ### States and records (R669, R671) -/

/-- `PWR_STATE.state` while the core runs. -/
def stateNum (m : Chip) : Nat :=
  if m.pwr.mode == .parking then 3
  else if (List.range 20).any fun n => flag m (A.GATE_TRIM_CFG n) 0 then 1
  else if m.pwr.idle then 2 else 0

/-- The words of `PWR_STATE`, `PWR_DOM_STATUS` and `PWR_WAKE_T_READY`. -/
def pwrState (m : Chip) : Nat := stateNum m + 8 * b2n m.pwr.idle + 16 * m.pwr.lastPark

def domStatus (m : Chip) : Nat := m.pwr.on + b2n m.pwr.mintLatch.isSome * 2 ^ 31

def wakeReady (m : Chip) (now : Nat) : Nat :=
  match m.pwr.readyWait with
  | some w => if w + 100 * ms < now then 0xFFFF else rdN m (A.PWR_WAKE_T 3)
  | none => rdN m (A.PWR_WAKE_T 3)

/-- Payload of PWR_STATE. -/
def stateRec (new prev target lt : Nat) : List (Nat × Nat) := [(1, new), (1, prev), (1, target), (1, 0), (8, lt)]

/-- A record that waits until the Ledger runs. -/
def lateRec (m : Chip) (typ src lt : Nat) (pay : List (Nat × Nat)) : Chip :=
  updPwr m fun p => { p with late := p.late ++ [⟨typ, src, lt, payload pay⟩] }

/-- The Ledger runs again: waiting records go to it with their original LT. -/
def lateFlush (m : Chip) : Chip :=
  let l := m.pwr.late
  let m := updPwr m fun p => { p with late := [] }
  updLedger m fun x => { x with evtQ := x.evtQ ++ l }

/-- Write the register words of the park's progress. -/
def setPhase (m : Chip) (k : Nat) : Chip := setF (updPwr m fun p => { p with phase := k }) A.PWR_PARK_STATUS 4 2 k

/-! ### The latch (R672-R677) -/

/-- A wake source that works in a target state is armed (R673). -/
def wakeArmed (m : Chip) (deep : Bool) : Bool :=
  fld m A.PWR_WAKE_EN 0 4 != 0 || (flag m A.PWR_WAKE_EN 4 && rd64 m A.PWR_RTC_ALARM_LO != 0) ||
  (!deep && (((List.range 4).any fun d => flag m (A.CAN_PN_CFG d) 0) || (List.range 8).any fun k => flag m (A.MAC_PT1_CFG (8 + k)) 2))

/-- The code of the first condition of R673 that holds; 0 when none does. -/
def parkRefuse (m : Chip) : Nat :=
  let deep := flag m A.PWR_PARK_CFG 0
  if m.pwr.mode ≠ .run || m.pwr.mintLatch.isSome then 1
  else if !m.safe.q.isEmpty || m.safe.fault || m.triad.split then 2
  else if deep && !flag m A.PWR_PARK_CFG 1 then 3
  else if !wakeArmed m deep then 4
  else if pairEn m && m.pair.active then 5
  else 0

/-- What happens to the edge ports at the latch (R675). -/
def parkEdges (m : Chip) (now : Nat) : Chip :=
  (List.range 8).foldl (fun m k =>
    let m := storeCoeff m (8 + k)
    if linkOn m (8 + k) && flag m (A.MAC_PT1_CFG (8 + k)) 2 then sleepStart m now (8 + k) else m) m

/-- The latch of a park (R673-R677, R700, R722, R793), or its refusal. -/
def park (m : Chip) (now : Nat) : Chip :=
  let code := parkRefuse m
  if code ≠ 0 then setIrq (bump (setF m A.PWR_PARK_STATUS 0 3 code) A.park_refused 1) .pwr 0
  else
    let target := fld m A.PWR_PARK_CFG 0 1
    let m := emit m 0x0D01 0x0D00 now (stateRec 3 (stateNum m) target 0)
    let m := setPhase (updPwr m fun p => { p with mode := .parking, latch := now, target := target, idle := false }) 1
    let m := setF (wrN (wrN m A.PWR_WAKE_CAUSE 0) A.PWR_WAKE_SRC 0) A.PWR_PARK_STATUS 16 16 0
    let m := setF m A.PWR_AVS_STATUS 16 10 (fld m A.PWR_AVS_STATUS 0 10)
    let m := actCancel (settleAct (sessionClose m now) now) now
    let m := parkEdges m now
    let m := ((List.range 64).filter fun r => ringType m r == 0 && (gathering m r).isSome).foldl (fun m r => gatherDiscard m now r) m
    sgePark (canPark (mintDown m now false) now false)

/-! ### The drain (R676, R678) and the store (R680) -/

/-- A frame that a port is receiving. -/
def Frame.incoming (f : Frame) : Bool := f.port < 20 && !f.ended

/-- All drained work has ended. -/
def drained (m : Chip) : Bool :=
  (m.dma.work.all (·.ended.isSome)) && !(m.tm.copies.any fun c => c.port < 20 && c.begun) && !(m.tm.frames.any (·.incoming))
    && (m.cl.can.all (·.begun.isNone)) && (m.cl.lin.all (·.cur.isNone)) && (m.ports.all (·.shake.isNone))
    && (m.mint.jobs.all (·.core.isNone)) && m.sge.jobs.isEmpty

/-- Write DRAIN_ABORT for a domain that lost work. -/
def drainRec (now : Nat) (m : Chip) (x : Nat × Nat × Nat × Nat × Nat) : Chip :=
  let (dom, descs, copies, frames, links) := x
  if descs + copies + frames + links = 0 then m
  else
    let m := setIrq (bump m A.drain_aborts 1) .pwr 2
    emit m 0x0D03 (srcId 0x0D dom) now [(2, descs), (1, copies), (1, frames), (1, links)]

/-- Abort the work of one front port (R678): copies stomped, frames truncated, an unfinished sleep handshake drops the link. -/
def portAbort (now : Nat) (m : Chip) (n : Nat) : Chip :=
  let m := stompPort m now n
  let m := truncateAll m now 2 (receiving m n now)
  if (portOf m n).shake.isSome then
    linkLost (updPort m n fun p => { p with shake := none }) now n 5 now false false
  else m

/-- What a front port would lose at the deadline. -/
def portLoss (m : Chip) (n : Nat) : Nat × Nat × Nat :=
  ((m.tm.copies.filter fun c => c.port == n && c.begun).length, (m.tm.frames.filter fun f => f.port == n && f.incoming).length,
    b2n ((portOf m n).shake.isSome && linkOn m n))

/-- Abort a started descriptor with ABORT_PWR. -/
def workAbort (now : Nat) (m : Chip) (w : DmaWork) : Chip := endWork m now w.ring 0x05 fun x => x.idx == w.idx && x.ended.isNone

/-- Abort what has not ended at the drain deadline (R678). -/
def drainAbort (m : Chip) (now : Nat) : Chip :=
  let work := m.dma.work.filter (·.ended.isNone)
  let jobs := m.mint.jobs.length
  let loss := (List.range 20).map fun n => (phyDom n, portLoss m n)
  let m := mintDown (work.foldl (workAbort now) m) now true
  let m := canPark ((List.range 20).foldl (portAbort now) m) now true
  let rows := (List.range 10).map fun k =>
    let l := loss.filter fun x => x.1 == 2 + k
    (2 + k, 0, l.foldl (fun a x => a + x.2.1) 0, l.foldl (fun a x => a + x.2.2.1) 0, l.foldl (fun a x => a + x.2.2.2) 0)
  let m := (rows ++ [(12, work.length, 0, 0, 0), (15, jobs, 0, 0, 0)]).foldl (drainRec now) m
  setF m A.PWR_PARK_STATUS 16 16 (sat 16 (work.length + jobs))

/-- TM discards its queued copies (R261), and with them go the frames whose heads wait in a lane; no bucket has a frame in flight any more. -/
def parkFlush (m : Chip) : Chip :=
  let live := m.tm.copies.filter fun c => c.st == .queued
  let m := live.foldl (fun m c => bump m (A.flushed (c.port * 8 + c.tc)) 1) m
  let m := updPrs m fun p => { p with
    dec := [], lanes := p.lanes.map fun l => { l with fifo := [], pipe := [] }, buckets := p.buckets.map fun b => (b.1, { b.2 with inflight := 0 }) }
  updTm m fun t => { t with copies := [], frames := [], adm := [] }

/-- The store phase (R680). -/
def parkStore (m : Chip) (now : Nat) : Chip := setPhase (parkFlush (ledgerPark m now)) 2

/-! ### Abandon and commit (R681, R682) -/

/-- Edge ports come back: a handshake in progress is abandoned, a sleeping port starts towards a link (R44, R47). -/
def edgesBack (now : Nat) (m : Chip) (n : Nat) : Chip :=
  if (portOf m n).shake.isSome then sleepAbandon m now n 1
  else if (portOf m n).asleep then
    warmStart (updPwr m fun p => { p with on := Nat.lor p.on (2 ^ phyDom n) }) now n
  else m

/-- The park is abandoned (R682): by a cancel (`cls` 0), or a wake of a class and instance. -/
def parkAbandon (m : Chip) (now cls inst : Nat) : Chip :=
  let k := m.pwr.phase
  let m := setPhase (updPwr m fun p => { p with mode := .run }) 0
  let m := emit m 0x0D02 0x0D00 now [(1, k), (1, cls), (1, inst)]
  let m := emit m 0x0D01 0x0D00 now (stateRec (stateNum m) 3 0 0)
  let m := setIrq (bump m A.park_abandoned 1) .pwr 1
  ((List.range 8).map (8 + ·)).foldl (edgesBack now) m

/-- Drive the PMIC enables. -/
def driveEn (m : Chip) (now en : Nat) : Chip := say (updPwr m fun p => { p with en := en, enAt := now }) (.pin "PMIC_EN" en)

/-- A register of a block that no park retains (R607, R636, R767). -/
def lostReg (a : Nat) : Bool :=
  match blkOf a with
  | some b => b == .hif || b == .dma || b == .brg || b == .pair
  | none => false

/-- Such a register after a wake: RW fields at reset, RWL fields from the active bank (R607, R793). -/
def lostWord (m : Chip) (a : Nat) : Chip :=
  let own := ((sget m.cfg.cold a).map (·.toNat)).getD (Nat.land (rdN m a) (rwlMask a))
  updCfg (wrN m a (clearMask (resetWord a).toNat (rwlMask a) + own)) fun c => { c with cold := sdel c.cold a }

/-- What PARK-LISTEN does not keep (R688). -/
def listenLoss (m : Chip) : Chip :=
  let m := ((m.regs.map (·.1) ++ m.cfg.cold.map (·.1)).filter lostReg).dedup.foldl lostWord m
  let m := { m with
    cnts := m.cnts.filter fun p => !lostReg p.1, msix := [], pba := [], shad := [], brg := {}, pair := {},
    dma := { sram := m.dma.sram }, mint := { m.mint with jobs := [] },
    cl := { can := m.cl.can.map fun _ => {}, lin := m.cl.lin.map fun x => { table := x.table, slot := x.slot } },
    ports := m.ports.map fun p => { stored := p.stored, held := p.held, asleep := p.asleep } }
  let m := (List.range 20).foldl (fun m n => preReset (wrN (setF m (A.MAC_PPLCA_STATUS n) 0 1 0) (A.MAC_PSTATUS n) 0) n) m
  let m := updTm m fun t => { t with frames := [], copies := [], adm := [], ports := List.replicate 24 .down }
  let m := updSge m fun s => { s with jobs := [], q23 := [], dueNow := [] }
  updPrs m fun p => { p with lanes := List.replicate 4 {}, dec := [], buckets := [], lag := List.replicate 8 [] }

/-- The links that are still up at commit go down with their PHY domains (R64). -/
def parkLinks (m : Chip) (now : Nat) : Chip :=
  ((List.range 20).filter (linkOn m)).foldl (fun m n =>
    lateRec (bump m (A.link_down n) 1) 0x0131 (srcId 1 n) now [(1, 5), (1, 0), (2, fld m (A.MAC_PLINK n) 0 16), (8, now)]) m

/-- Commit (R681): EN2 and EN3 go low, and CORE loses its power. A pin that has long been at its active level is sampled anew (R685). -/
def parkCommit (m : Chip) (now : Nat) : Chip :=
  let deep := m.pwr.target = 1
  let m := lateRec (bump (parkLinks m now) A.parks 1) 0x0D01 0x0D00 now (stateRec (if deep then 5 else 4) 3 0 0)
  let m := setPhase (driveEn m now (clearMask m.pwr.en 0xC)) 3
  let m := updPwr m fun p => { p with
    mode := if deep then .deep else .listen, deep := deep, lastPark := if deep then 2 else 1, fclk := false, wake := none,
    pins := p.pins.zipIdx.map fun x => if fld m A.PWR_WAKEIN_CFG (8 * x.2 + 2) 6 ≤ x.1.run then { x.1 with run := 0, edge := false } else x.1 }
  listenLoss (clrR m A.GLB_CLK_STATUS 0x1F)

/-! ### Wake sources (R684-R687) -/

/-- Bit of a source in `PWR_WAKE_SRC`: classes 1 WAKE_IN, 2 CAN, 3 TC10, 4 RTC. -/
def wakeBit (cls inst : Nat) : Nat := if cls = 1 then inst else if cls = 2 then 4 + inst else if cls = 3 then 8 + inst else 16

/-- Store the first source and the LT of the wake. -/
def wakeNote (m : Chip) (now cls inst : Nat) : Chip :=
  wr64 (wrN (orR m A.PWR_WAKE_SRC (2 ^ wakeBit cls inst)) A.PWR_WAKE_CAUSE (cls + 16 * inst)) A.PWR_WAKE_LT_LO now

/-- A source works in the present state, or in the state that a park is entering (R684). -/
def wakeTaken (m : Chip) (cls : Nat) : Bool :=
  match m.pwr.mode with
  | .parking => cls == 1 || cls == 4 || (cls == 3 && m.pwr.target == 0)
  | .listen => true
  | .deep => cls == 1 || cls == 4
  | .waking => cls == 1 || cls == 4 || !m.pwr.deep
  | _ => false

/-- A wake source is detected (R682, R683, R687). -/
def wakeDetect (m : Chip) (now cls inst : Nat) : Chip :=
  if !wakeTaken m cls then m
  else if m.pwr.mode == .parking then parkAbandon (wakeNote m now cls inst) now cls inst
  else
    match m.pwr.wake with
    | none => if m.pwr.mode == .waking then orR m A.PWR_WAKE_SRC (2 ^ wakeBit cls inst)
        else updPwr (wakeNote m now cls inst) fun p => { p with wake := some (cls, inst, now) }
    | some (c, i, l) =>
      if l = now && (cls < c || (cls = c && inst < i)) then
        updPwr (wakeNote m now cls inst) fun p => { p with wake := some (cls, inst, now) }
      else orR m A.PWR_WAKE_SRC (2 ^ wakeBit cls inst)

/-- The level at which a WAKE_IN mode is active. -/
def pinActive (mode : Nat) : Bool := mode = 0 || mode = 2

/-- A pin after one more sample (R685). -/
def WakePin.sample (p : WakePin) (mode : Nat) (l : Bool) : WakePin :=
  if l = p.level then { p with run := p.run + 1 } else { level := l, run := 1, edge := l == pinActive mode }

/-- The sample completes a wake: `deb` samples at the level of an edge, or at the active level. -/
def WakePin.fires (p : WakePin) (mode deb : Nat) : Bool := p.run == deb && (if mode < 2 then p.edge else p.level == pinActive mode)

/-- AON samples the enabled WAKE_IN pins at one RTC tick. -/
def wakePins (m : Chip) (now levels : Nat) : Chip :=
  (List.range 4).foldl (fun m k =>
    if !flag m A.PWR_WAKE_EN k then m
    else
      let mode := fld m A.PWR_WAKEIN_CFG (8 * k) 2
      let p := ((m.pwr.pins.getD k {}).sample mode (bit levels k))
      let m := updPwr m fun x => { x with pins := lset x.pins k fun _ => p }
      if p.fires mode (fld m A.PWR_WAKEIN_CFG (8 * k + 2) 6) then wakeDetect m now 1 k else m) m

/-- A CAN decoder's wake condition (R486): `kind` 0 a frame, 1 the wake-up pattern, 2 decode errors. -/
def pnMatches (m : Chip) (d kind ident : Nat) (ide : Bool) (dlc : Nat) (data : List Byte) (errs : Nat) : Bool :=
  let cfg := A.CAN_PN_CFG d
  let mask := fld m (A.CAN_PN_MASK d) 0 29
  if !flag m cfg 0 then false
  else if kind = 0 then
    Nat.land ident mask == Nat.land (fld m (A.CAN_PN_ID d) 0 29) mask && ide == flag m (A.CAN_PN_ID d) 29 && dlc == fld m cfg 3 4
      && Nat.land (leNat (slice data 0 8)) (rd64 m (A.CAN_PN_DATA_LO d)) != 0
  else if kind = 1 then flag m cfg 7 else 32 ≤ errs

/-! ### The wake sequence (R683, R692-R695) -/

/-- µs from the wake's LT. -/
def sinceWake (m : Chip) (now : Nat) : Nat := sat 16 ((now - rd64 m A.PWR_WAKE_LT_LO) / us)

/-- Raise the next enable: EN1, then EN0, then EN2 and EN3 (R694). -/
def raiseEn (m : Chip) (now : Nat) : Chip :=
  let e := m.pwr.en
  let e' := if !bit e 1 then e + 2 else if !bit e 0 then e + 1 else Nat.lor e 0xC
  if e = 0xF then m else driveEn (updPwr m fun p => { p with pg := false }) now e'

/-- The wake sequence starts (R683), and VDD_CORE returns at the stored target (R700): PMIC_PG is low, or `pg_tmo` µs have passed since the latest enable change. -/
def wakeStart (m : Chip) (now : Nat) (pgLow : Bool) : Chip :=
  if (m.pwr.mode == .listen || m.pwr.mode == .deep) && m.pwr.wake.isSome
      && (pgLow || m.pwr.enAt + fld m A.PWR_PMIC_CFG 16 16 * us ≤ now) then
    let v := fld m A.PWR_AVS_STATUS 16 10
    raiseEn (updPwr m fun p => { p with mode := .waking, pg := p.pg && !pgLow, rail := if v = 0 then p.rail else v }) now
  else m

/-- The next enable change of a power-down or a power-up (R681, R694). -/
def enableStep (m : Chip) (now : Nat) : Chip :=
  let p := m.pwr
  let waited := p.enAt + 10 * us ≤ now
  if p.mode == .listen || p.mode == .deep then
    if waited && bit p.en 0 then driveEn m now (p.en - 1)
    else if waited && p.mode == .deep && bit p.en 1 then driveEn m now (p.en - 2)
    else m
  else if p.mode == .waking && waited && p.pg && p.pgAt + 10 * us ≤ now then raiseEn m now
  else m

/-- PMIC_PG rises: with every rail up, step 2 of the wake is reached (R693). -/
def pgRise (m : Chip) (now : Nat) : Chip :=
  if m.pwr.pg || m.pwr.mode == .off then m
  else
    let m := updPwr m fun p => { p with pg := true, pgAt := now }
    if m.pwr.mode == .waking && m.pwr.en = 0xF then wrN m (A.PWR_WAKE_T 0) (sinceWake m now) else m

/-- Write or keep a PMIC_FAULT record (R695-R697). -/
def pmicFault (m : Chip) (now cause : Nat) : Chip :=
  let m := setIrq (bump m A.pmic_faults 1) .pwr 5
  let pay := [(1, cause), (1, m.pwr.en)]
  if coreOn m then emit m 0x0D04 0x0D00 now pay else lateRec m 0x0D04 0x0D00 now pay

/-- PMIC_PG has not risen in time (R695): every enable drops, FAULT is held, and the next wake tries again. -/
def pgTimeout (m : Chip) (now : Nat) : Chip :=
  if m.pwr.mode == .waking && !m.pwr.pg && m.pwr.enAt + fld m A.PWR_PMIC_CFG 16 16 * us ≤ now then
    let m := driveEn (pmicFault m now 1) now 0
    let m := updPwr m fun p => { p with mode := .deep, deep := true, wake := none }
    if m.safe.fault then m else say (updSafe m fun s => { s with fault := true, cause := 0, since := now }) (.pin "FAULT" 1)
  else m

/-- A PLL or oscillator locks (R33, R807): 0 `xtal_ok`, 1 core, 2 cluster, 3 SerDes, 4 PCIe. With the core clocks, FCLK runs; after
DEEP-PARK the boot follows. -/
def pllLock (m : Chip) (now k : Nat) : Chip :=
  if m.pwr.mode == .off || m.pwr.mode == .listen || m.pwr.mode == .deep then m
  else
    let m := orR m A.GLB_CLK_STATUS (2 ^ k)
    if m.pwr.mode == .waking && !m.pwr.fclk && m.pwr.en = 0xF && m.pwr.pg && fld m A.GLB_CLK_STATUS 0 3 = 7 then
      let m := wrN m (A.PWR_WAKE_T 1) (sinceWake m now)
      updPwr m fun p => { p with fclk := true, rstAt := if p.deep then some (now, 5) else p.rstAt }
    else m

/-- Each port enters the gate states of the present instant (R344). -/
def gatesBack (now : Nat) (m : Chip) (n : Nat) : Chip :=
  let s := gateStates m n now
  updGate m n fun g => { g with seen := s, hold := false, trimmed := false, low := false, aborted := none }

/-- Restore ends (R692): what each block does at a wake from PARK-LISTEN; `ecc` tells that the triad image cannot be read,
`bad` the edge ports whose stored set fails its ECC check (R47). -/
def restore (m : Chip) (now : Nat) (ecc : Bool) (bad : Nat) : Chip :=
  let w := rd64 m A.PWR_WAKE_LT_LO
  let m := wrN m (A.PWR_WAKE_T 2) (sinceWake m now)
  let m := updPwr (setPhase m 0) fun p => { p with mode := .run, wake := none, readyWait := some w, on := Nat.lor p.on 0x7F8 }
  let m := updLedger (lateFlush m) fun l => { l with startDue := some 2 }
  let m := setIrq (emit m 0x0D01 0x0D00 w (stateRec (stateNum m) 4 0 w)) .pwr 6
  -- TIME and GATE (R308, R342, R344)
  let m := updTime (syncW m now) fun t => { t with dom := t.dom.map fun c => { c with steered := none }, stepAt := none }
  let m := setHoldover m now true
  let m := (List.range 20).foldl (gatesBack now) { m with rcvy := m.rcvy.filter fun _ => false }
  -- Meters (R183), scheduler (R298), SGE (R518), Mint (R407)
  let meters := (activeTables m).meter
  let m := updPrs m fun p => { p with
    meters := meters.map fun x => (x.1, { c := meterCbs x.2 * byteU, p := meterPbs x.2 * byteU, last := w }) }
  let m := (List.range 24).foldl (fun m n => updSch (schDown m n) n fun s => { s with shapers := s.shapers.map fun x => (x.1, x.2.restart) }) m
  let m := routesFrom m now (validRoutes (sgeNow m)) false
  let m := updMint m fun x => { x with cores := x.cores.map fun c => { c with rate := 100 } }
  -- Triad (R736) and debug
  let m := updTriad m fun x => { x with split := false, session := none, sessLen := 0, harts := 0, cpause := none }
  let m := updTriad (triadReload (nonceNew m) now ecc) fun x => { x with kick := none, ckick := none }
  -- Edge ports (R45-R47)
  let m := ((List.range 8).filter fun k => bit bad k && (portOf m (8 + k)).stored.isSome).foldl (fun m k =>
    setIrq (updPort m (8 + k) fun p => { p with stored := p.stored.map fun c => { c with good := false } }) .mac 20) m
  let m := ((List.range 8).map (8 + ·)).foldl (fun m n => if portEn m n then warmStart m now n else m) m
  let m := ((List.range 20).filter fun n => !isE n && portEn m n).foldl (fun m n => portEnable m now n) m
  wakeForward m (if fld m A.PWR_WAKE_CAUSE 0 4 = 3 then some (8 + fld m A.PWR_WAKE_CAUSE 4 4) else none)

/-! ### PMIC and AVS (R696-R699) -/

/-- The PMIC code of a voltage in mV (R698). -/
def vCode (m : Chip) (mv : Nat) : Nat := cdiv ((mv - fld m A.PWR_PMIC_VMAP 0 10) * 10) (max 1 (fld m A.PWR_PMIC_VMAP 16 8))

/-- The AVS target for what the delay monitors need (R698, R699). -/
def avsTarget (m : Chip) (now need : Nat) : Chip :=
  let lo := fld m A.PWR_AVS_CFG 0 10
  let hi := fld m A.PWR_AVS_CFG 16 10
  let high := decide (hi < need)
  let m := setF (setF m A.PWR_AVS_STATUS 0 10 (max lo (min hi need))) A.PWR_AVS_STATUS 31 1 (b2n high)
  let m := updPwr m fun p => { p with avsAt := now }
  if high then report (setIrq m .pwr 4) now 0x0D00 0x0DF1 1 need else m

/-- One move of the rail towards the target: at most 5 mV, 20 µs after the latest one. -/
def avsMove (m : Chip) (now : Nat) : Chip :=
  let t := fld m A.PWR_AVS_STATUS 0 10
  let r := m.pwr.rail
  if r = t || now < m.pwr.railAt + 20 * us || m.pwr.spi.isSome then m
  else
    let r' := if r < t then min t (r + 5) else max t (r - 5)
    updPwr m fun p => { p with rail := r', railAt := now, spi := some (vCode m r') }

/-- A reading of the delay monitors, 100 µs after the latest, and a move of the rail. -/
def avsUpdate (m : Chip) (now : Nat) (need : Option Nat) : Chip :=
  if !flag m A.PWR_AVS_CFG 31 then m
  else
    let m := match need with
      | some v => if m.pwr.avsAt + 100 * us ≤ now || m.pwr.avsAt = 0 then avsTarget m now v else m
      | none => m
    avsMove m now

/-- The write of a PMIC register: `back` and `back2` are what the register reads after it and after its repetition (R697). -/
def spiWrite (m : Chip) (now back back2 : Nat) : Chip :=
  match m.pwr.spi with
  | none => m
  | some v =>
    let w := if flag m A.PWR_PMIC_CFG 7 then v % 65536 else v % 256
    let put := fun (m : Chip) => say m (.pmic (fld m A.PWR_PMIC_CFG 0 7) w)
    let m := put (updPwr m fun p => { p with spi := none })
    if back = w then m
    else
      let m := put (pmicFault m now 3)
      if back2 = w then m else pmicFault m now 3

/-! ### Single domains (R701-R703) -/

/-- A power-down of a domain is refused (R701). -/
def domRefused (m : Chip) (d : Nat) : Bool :=
  if d = 2 then ((List.range 8).any fun n => portEn m n) || pairEn m
  else if 3 ≤ d && d ≤ 10 then portEn m (d + 5)
  else if d = 11 then (List.range 4).any fun k => portEn m (16 + k)
  else if d = 12 then fld m A.HIF_LINK_STATUS 1 2 ≠ 0
  else if d = 15 then (List.range 16).any fun n => macsecTx m n || macsecRx m n
  else true

/-- The latch of a power-down of MINT, in the cycle after its request: MINT begins to drain (R702). -/
def mintLatched (m : Chip) (now : Nat) : Chip :=
  if flag m A.PWR_DOM_CTRL 15 && m.pwr.mode == .run then mintDown (updPwr m fun p => { p with mintLatch := some now }) now false else m

/-- A domain goes off, or MINT is to drain. -/
def domDown (m : Chip) (now d : Nat) : Chip :=
  if d = 15 then nextCycle m now .mintDown
  else setIrq (updPwr m fun p => { p with on := clearMask p.on (2 ^ d) }) .pwr 3

/-- MINT is off. -/
def mintOff (m : Chip) : Chip := setIrq (updPwr m fun p => { p with mintLatch := none, on := clearMask p.on (2 ^ 15) }) .pwr 3

/-- A domain comes on (R703); a sleeping edge port starts towards a link (R47). -/
def domUp (m : Chip) (now d : Nat) : Chip :=
  if bit m.pwr.on d then (if d = 15 then updPwr m fun p => { p with mintLatch := none } else m)
  else
    let m := setIrq (updPwr m fun p => { p with on := Nat.lor p.on (2 ^ d) }) .pwr 3
    let n := d + 5
    if 3 ≤ d && d ≤ 10 && (portOf m n).asleep then warmStart m now n else hostPorts m now

/-- A write to `PWR_DOM_CTRL` (R701-R703). -/
def domWrite (m : Chip) (now old data : Nat) : Chip :=
  [2, 3, 4, 5, 6, 7, 8, 9, 10, 11, 12, 15].foldl (fun m d =>
    if bit data d then
      if bit old d then m
      else if domRefused m d || m.pwr.mode ≠ .run then refuse (clrR m A.PWR_DOM_CTRL (2 ^ d)) .pwr A.PWR_DOM_CTRL 4
      else domDown m now d
    else domUp m now d) m

/-! ### Writes to the PWR and GLB registers -/

/-- Why a write to a PWR register is refused beyond its field ranges (R672, R698). -/
def pwrCheck (m : Chip) (who a new : Nat) : Nat :=
  if a = A.PWR_CMD then (if agentOf who ≠ 2 && agentOf who ≠ 3 then 5 else 0)
  else if a = A.PWR_PMIC_VMAP then (if flag m A.PWR_AVS_CFG 31 && bits new 16 8 = 0 then 3 else 0)
  else if a = A.PWR_AVS_CFG then
    (if bits new 16 10 < bits new 0 10 || (bit new 31 && fld m A.PWR_PMIC_VMAP 16 8 = 0) then 3 else 0)
  else 0

/-- What a write to a PWR register does beside storing its fields: a park is latched in the cycle after its write. -/
def pwrEffect (m : Chip) (now a old data : Nat) : Chip :=
  if a = A.PWR_CMD then
    let m := rstR m a
    let m := if bit data 0 then nextCycle m now .park else m
    if bit data 1 && m.pwr.mode == .parking then parkAbandon m now 0 0 else m
  else if a = A.PWR_DOM_CTRL then domWrite m now old data
  else if a = A.PWR_AVS_CFG then (if flag m a 31 then m else clrR m A.PWR_AVS_STATUS 0x800003FF)
  else m

/-- Why a write to a GLB register is refused (R805, R812). -/
def glbCheck (who a data : Nat) : Nat :=
  let ag := agentOf who
  if a = A.GLB_RST_CMD then (if ag ≠ 2 && ag ≠ 3 && who ≠ 0 then 5 else if bits data 16 16 ≠ 0xC0DE || !bit data 0 then 4 else 0)
  else if a = A.GLB_IRQ_ROUTE_H0 || a = A.GLB_IRQ_ROUTE_H1 || a = A.GLB_IRQ_ROUTE_CPU || a = A.GLB_IRQ_ROUTE_TRIAD then
    (if ag = 2 || ag = 3 || (who = 0 && a = A.GLB_IRQ_ROUTE_H0) || (who = 1 && a = A.GLB_IRQ_ROUTE_H1) then 0 else 5)
  else 0

/-- What a write to a GLB register does beside storing its fields (R806, R811). -/
def glbEffect (m0 m : Chip) (now a : Nat) : Chip :=
  if a = A.GLB_RST_CMD then
    if m.pwr.rstAt.isSome then m else updPwr m fun p => { p with rstAt := some (now, 3) }
  else if a = A.GLB_IRQ_ROUTE_H0 then
    Blk.all.foldl (fun m b => if irqTo m 0 b && irqTo m0 0 b then sendMsix m 0 (64 + b.irqBit) else m) m
  else if a = A.GLB_IRQ_ROUTE_H1 then
    Blk.all.foldl (fun m b => if irqTo m 1 b && irqTo m0 1 b then sendMsix m 1 (64 + b.irqBit) else m) m
  else m

/-! ### Cold reset and power (R806, R818, R829-R832) -/

/-- A register of PWR, which a cold reset leaves (R704). -/
def aonReg (a : Nat) : Bool := 0x40100000 ≤ a && a < 0x40200000

/-- The grade in OTP (R2): 1 on a VXG-8640-S1B. No reset and no loss of supply changes it. -/
def gradeReg (a : Nat) : Bool := a == A.GLB_GRADE

/-- The defaults that differ on a VXG-8640-S1B (R1, R3): pairing is enabled in both banks. -/
def gradeDefaults (m : Chip) : Chip :=
  if flag m A.GLB_GRADE 0 then saveRwl (orR m A.PAIR_CFG 1) A.PAIR_CFG (Nat.lor (savedRwl m A.PAIR_CFG) 1) else m

/-- Secure NVM and OTP as they come back: reserve counters resume at their limit (R433). -/
def vaultBack (m : Chip) : VaultSt :=
  { rows := m.vault.rows, keygen := m.vault.keygen
    ctrs := m.vault.ctrs.zipIdx.map fun p => if ctrKind m p.2 = 1 then { p.1 with next := p.1.limit } else p.1 }

/-- The device out of a cold reset, before its boot (R806, R813): cause as in `GLB_RST_CAUSE`, straps bit 0 PCIE_BIF, bit 1 PAIR_ID. -/
def coreReset (m : Chip) (now cause straps : Nat) : Chip :=
  let held := m.safe.fault
  let c : Chip := {
    regs := m.regs.filter (fun p => aonReg p.1 || gradeReg p.1), cnts := m.cnts.filter (fun p => aonReg p.1), free := m.free, out := m.out
    pwr := { m.pwr with
      mode := .run, phase := 0, on := clearMask 0xFFFF (rdN m A.PWR_DOM_CTRL), mintLatch := none, wake := none, fclk := true, held := false
      rstAt := none, readyWait := none, idle := false, idleSince := some now }
    safe := { fault := held, since := m.safe.since }
    vault := vaultBack m, life := lifeOf m, otp := m.otp, service := m.service, mint := { epoch := m.mint.epoch + 1 } }
  let c := if m.pair.active then say c (.pin "PAIR_ACT" 1) else c
  let (c, k) := random c 32
  let c := updMint c fun x => { x with ctxKey := k }
  let c := setPhase (lateFlush c) 0
  let c := wrN (wrN c A.GLB_RST_CAUSE (cause + 8 * b2n held)) A.GLB_STRAP straps
  let c := setF c A.HIF_LINK_STATUS 0 1 (straps % 2)
  let c := updLedger c fun l => { l with startDue := some (if cause = 5 then 1 else 0) }
  assertFault (nonceNew (gradeDefaults c)) now 0

/-- A cold reset that is due takes effect, and the boot ROM runs (R774, R806): the straps and what the flash holds. -/
def coldReset (m : Chip) (now straps : Nat) (d0 d1 obj0 obj1 : List Byte) : Chip :=
  match m.pwr.rstAt with
  | none => m
  | some (l, cause) =>
    let wake := if cause = 5 then [(0x0D01, rd64 m A.PWR_WAKE_LT_LO)] else []
    let m := wake.foldl (fun m w => lateRec (setIrq m .pwr 6) w.1 0x0D00 w.2 (stateRec 0 5 0 w.2)) m
    if now < l + us then m else bootRom (coreReset m now cause straps) now d0 d1 obj0 obj1

/-- Detected level of a VDDIO bank in mV, when a supply is in range (R822, R823). -/
def vddioLevel (mv : Nat) : Option Nat :=
  if 1710 ≤ mv && mv ≤ 1890 then some 1800 else if 3135 ≤ mv && mv ≤ 3465 then some 3300 else none

/-- A VDDIO bank supply changes (R819, R823, R830): bank 0 is A, 1 is B. -/
def vddioChange (m : Chip) (now bank mv : Nat) : Chip :=
  match vddioLevel mv with
  | some l =>
    if bit m.pwr.vddio bank then m
    else
      let m := updPwr m fun p => { p with vddio := Nat.lor p.vddio (2 ^ bank), vlevel := lset p.vlevel bank fun _ => l }
      if bank = 0 && m.pwr.mode == .run && m.pwr.held && m.pwr.rstAt.isNone then
        updPwr m fun p => { p with rstAt := some (now, 1) }
      else m
  | none =>
    if bit m.pwr.vddio bank then say (updPwr m fun p => { p with vddio := clearMask p.vddio (2 ^ bank) }) (.pin "VDDIO_HIGH_Z" bank)
    else m

/-- The supply has returned (R34, R671, R830): AON is reset, LT starts no lower than the floor (the command's frame sees to it), and
the rails rise. Without VDDIO_A the core is held in reset. -/
def powerOn (m : Chip) (now straps mvA mvB : Nat) (d0 d1 obj0 obj1 : List Byte) : Chip :=
  if m.pwr.mode ≠ .off then m
  else
    let f := fun (mv : Nat) => (vddioLevel mv).getD 0
    let m := { m with
      regs := m.regs.filter (fun p => gradeReg p.1), cnts := [], safe := { since := now }
      pwr := { floor := m.pwr.floor, vddio := b2n (vddioLevel mvA).isSome + 2 * b2n (vddioLevel mvB).isSome, vlevel := [f mvA, f mvB] } }
    let m := if flag m A.GLB_GRADE 0 then clrR m A.PWR_PARK_CFG 2 else m
    let prev := freeVal m
    let m := lateRec (useFree m) 0x0D01 0x0D00 now (stateRec 0 (prev % 256) 0 0)
    let m := say (say m (.pin "FAULT" 1)) (.pin "PMIC_EN" 0xF)
    let m := coreReset m now 1 straps
    if bit m.pwr.vddio 0 then bootRom m now d0 d1 obj0 obj1 else updPwr m fun p => { p with held := true }

/-- VSUP below the brown-out threshold (R671, R832): every enable drops, and all is lost but OTP and secure NVM. -/
def brownOut (m : Chip) : Chip :=
  { regs := m.regs.filter (fun p => gradeReg p.1), free := m.free, out := m.out ++ [.pin "PMIC_EN" 0], vault := vaultBack m, otp := m.otp, service := m.service, life := m.life
    mint := { epoch := m.mint.epoch }
    pwr := { mode := .off, en := 0, pg := false, on := 0, fclk := false, vddio := 0, floor := m.pwr.floor } }

/-! ### Clock and temperature monitors (R807, R835) -/

/-- A clock is lost: 0 `xtal_ok`, 1 core, 2 cluster, 3 SerDes, 4 PCIe, 5 RTC crystal. -/
def clockLoss (m : Chip) (now k : Nat) : Chip :=
  if !flag m A.GLB_CLK_STATUS k || !coreOn m then m
  else
    let m := clrR m A.GLB_CLK_STATUS (2 ^ k)
    if k < 3 then report (setIrq m .glb 0) now 0x0D10 0x0DF2 3 k
    else if k < 5 then report m now 0x0D10 0x0DF3 2 k
    else setIrq m .glb 1

/-- One threshold of the temperature sensors: crossed, or re-armed 5 °C below. -/
def hotCheck (now : Nat) (temp : Int) (m : Chip) (x : Nat × Int × Nat × Nat) : Chip :=
  let (k, thr, code, sev) := x
  if bit m.pwr.hot k then
    (if temp ≤ thr - 5 then updPwr m fun p => { p with hot := clearMask p.hot (2 ^ k) } else m)
  else if thr < temp then report (updPwr m fun p => { p with hot := Nat.lor p.hot (2 ^ k) }) now 0x0D11 code sev 0
  else m

/-! ### Commands -/

/-- An RTC alarm whose time has come, while it may wake the device (R686). -/
def rtcAlarm (m : Chip) (now : Nat) : Chip :=
  let a := rd64 m A.PWR_RTC_ALARM_LO
  if flag m A.PWR_WAKE_EN 4 && a ≠ 0 && a ≤ now && wakeTaken m 4 then wakeDetect (wr64 m A.PWR_RTC_ALARM_LO 0) now 4 0 else m

end Sys2Proof.Machine
end

