-- ==== Sys2Proof/Machine/Shown.lean ====
section
/-! DEFINITION. What the registers show: words that are worked out from the rest of the state, 64-bit registers with their shadows
(R837), and the CAN message RAM window. -/

namespace Sys2Proof.Machine

/-- Low word of `v`, or its high word. -/
def half (v hi : Nat) : Nat := v / 2 ^ (32 * hi) % 2 ^ 32

/-- The three words of a time in ns: ns, seconds [31:0], seconds [47:32]. -/
def timeWord (ns k : Nat) : Nat :=
  if k = 0 then ns % 1000000000 else if k = 1 then ns / 1000000000 % 2 ^ 32 else ns / 1000000000 / 2 ^ 32 % 2 ^ 16

/-- Whole bytes of a level kept in 1/32,000,000 byte, rounded towards minus infinity (R285). -/
def levelBytes (x : Int) (n : Nat) : Nat := enc (x / (byteU : Int)) n

/-! ### Blocks -/

/-- Derived words of GLB (20). -/
def shownGlb (m : Chip) (off : Nat) : Nat :=
  if off = 0x20 then Config.otp 0 % 2 ^ 32
  else if off = 0x24 then 0x8640 + Config.otp 1 % 2 ^ 16 * 2 ^ 16
  else if off = 0x100 then irqSummary m
  else if off = 0x13C then
    (List.range 12).foldl (fun a k => a + b2n (ringOf m (52 + k)).line * 2 ^ (20 + k)) (irqPend m 3)
  else if 0x130 ≤ off then irqPend m ((off - 0x130) / 4)
  else 0

/-- The interrupts that the copies of the triad receive: what is asserted towards it, and in the stall of a resynchronisation what was as it
began; the rest is delivered in the rejoin cycle (R713). -/
def triadInput (m : Chip) : Nat := m.triad.stall.getD (shownGlb m 0x13C)

/-- Words of the PCI configuration space of H0 and H1 that the device's own registers give (R804), at the offsets of the PCI specification:
identifiers, Revision ID in the lowest byte, subsystem identifiers (PRESUMED). -/
def pciConfig (m : Chip) (off : Nat) : Option Nat :=
  if off = 0 then some (shownGlb m 0x20 % 2 ^ 16 + shownGlb m 0x24 % 2 ^ 16 * 2 ^ 16)
  else if off = 8 then some (rdN m A.GLB_REV % 256)
  else if off = 0x2C then some (shownGlb m 0x20 / 2 ^ 16 + shownGlb m 0x24 / 2 ^ 16 * 2 ^ 16)
  else none

/-- The function whose MSI-X table an initiator sees (R554). -/
def msixFn (who : Nat) : Option Nat := if who < 2 then some who else none

/-- Derived words of HIF (13). -/
def shownHif (m : Chip) (who off : Nat) (ix : List Nat) : Nat :=
  let i := ix.headD 0
  if off = 0x1001C then ringStatus m i
  else if off = 0x80004 then devIdx m i
  else
    match msixFn who with
    | none => 0
    | some f =>
      if off = 0x70000 then
        let k := ix.getD 1 0
        ((sget m.msix (f * 1024 + i * 4 + k)).map (·.toNat)).getD (b2n (k == 3))
      else (List.range 32).foldl (fun a j => a + b2n (m.pba.contains (f * 128 + i * 32 + j)) * 2 ^ j) 0

/-- Derived words of PRS (03, 05). -/
def shownPrs (m : Chip) (now off i : Nat) : Nat :=
  if off = 0x20020 then
    (List.range 4).foldl (fun a l => a + b2n (laneOf m l).slow * 2 ^ l) 0
      + 65536 * (m.prs.buckets.filter fun p => p.2.lane != p.1 % 4).length
  else if off = 0x20024 then (List.range 4).foldl (fun a l => a + laneOcc m l * 2 ^ (8 * l)) 0
  else if off = 0x20208 then
    let l := m.prs.lag.getD i []
    l.foldl (fun a n => Nat.lor a (2 ^ n)) 0 + l.length * 65536
  else if off = 0x24000 then
    let b := bucketOf m i
    b.lane + 4 * b2n (b.lane != i % 4) + 256 * b.inflight
  else (m.prs.ct.filter fun e => ctLive m e.2 now).length

/-- Derived words of TM (06, 07). -/
def shownTm (m : Chip) (now off : Nat) (ix : List Nat) : Nat :=
  let n := ix.headD 0
  let c := ix.getD 1 0
  if off = 0x20 then freeCells m now
  else if off = 0x24 then poolSize m
  else if off = 0x28 then poolUsed m
  else if off = 0x2C then hdrmUsed m now
  else if off = 0x30 then m.tm.retired.length
  else if off = 0x1004 then
    match tmPort m n with
    | .up => 0
    | .hold u => 1 + 256 * cdiv (u - now) us
    | .down => 2
  else if off = 0x400C then occ m n
  else if off = 0x2000C then ((schOf m n).purse.map fun p => levelBytes p.tokens 32).getD 0
  else if off = 0x20010 then
    let ready := tmPort m n = .up && (readyPort m now n now).isSome
    b2n ready + (List.range 8).foldl (fun a c => a + b2n (eligible m n now now c) * 2 ^ (8 + c)) 0
      + (schOf m n).lastClass * 65536 + (schOf m n).ptr * 2 ^ 20
  else if off = 0x2002C then ((sget (schOf m n).shapers c).map fun s => levelBytes s.credit 32).getD 0
  else
    let weighted := c < 8 - fld m (A.TM_SCH_PORT_CFG n) 0 3
    if weighted then enc ((schOf m n).deficit.getD c 0) 31 + b2n ((schOf m n).opens.getD c false) * 2 ^ 31 else 0

/-- Derived words of GATE (08). -/
def shownGate (m : Chip) (now off : Nat) (ix : List Nat) : Nat :=
  let n := ix.headD 0
  let g := gateOf m n
  if off = 0x10020 || off = 0x10024 || off = 0x10028 then timeWord g.base ((off - 0x10020) / 4)
  else if off = 0x1002C then g.cycle
  else if off = 0x10030 then g.len
  else if off = 0x10034 then g.ext
  else if off = 0x10038 || off = 0x1003C || off = 0x10040 then timeWord (g.pending.getD 0 / 2) ((off - 0x10038) / 4)
  else if off = 0x10044 then
    gateStates m n now + 256 * b2n g.pending.isSome + 512 * b2n g.valid + 1024 * b2n g.hold + 2048 * b2n g.trimmed
      + 4096 * ((segNow m n (workU m now)).map (·.entry)).getD 0
  else if off = 0x50000 then half ((sget g.oper (ix.getD 1 0)).getD 0) (ix.getD 2 0)
  else
    match sget m.rcvy n with
    | some s => if off = 0xA0004 then s.seq + 65536 * b2n s.takeAny else half s.hist ((off - 0xA0008) / 4)
    | none => if off = 0xA0004 then 65536 * b2n (flag m (A.GATE_RCVY0 n) 0) else 0

/-- The head of `TIME_TXTS`. -/
def txtsHead (m : Chip) : Txts := m.time.txts.headD ⟨0, 0, none⟩

/-- Derived words of TIME (08). -/
def shownTime (m : Chip) (now off i : Nat) : Nat :=
  let t := m.time
  let h := txtsHead m
  if off = 0x1C then b2n t.holdover + 2 * b2n t.slewing + 4 * working m + 8 * b2n (flag m A.TIME_CFG 1) + 16 * b2n t.braised
  else if off = 0x28 || off = 0x2C then half (enc (wOff m now / nsU) 64) ((off - 0x28) / 4)
  else if off = 0x30 || off = 0x34 then half now ((off - 0x30) / 4)
  else if off = 0x40 || off = 0x44 then half t.snapLt ((off - 0x40) / 4)
  else if 0x50 ≤ off && off ≤ 0x58 then timeWord (t.snap.getD i 0) ((off - 0x50) / 4)
  else if off = 0x210 || off = 0x214 then half t.bcount ((off - 0x210) / 4)
  else if off = 0x218 then t.skipped
  else if off = 0x300 then t.txts.length + 65536 * t.lost
  else if off = 0x304 then h.port + (h.ptp.map fun p => p.1 * 32 + p.2.1 * 65536).getD 0
  else if off = 0x308 then (h.ptp.map fun p => p.2.2 + 256).getD 0
  else half h.stamp ((off - 0x310) / 4)

/-- Derived words of MINT and VAULT (09, 10). -/
def shownMint (m : Chip) (off i : Nat) : Nat :=
  if off = 0x18 then poolStatus m
  else if off = 0x1C then m.mint.epoch
  else if off = 0x200 then coreStatus m i
  else half (ctrOf m (fld m (A.MINT_IVGEN_CFG i) 1 4)).next ((off - 0x108) / 4)
def shownVault (m : Chip) (off : Nat) (ix : List Nat) : Nat :=
  let i := ix.headD 0
  if off = 0x10 then vaultStatus m
  else if off = 0x20 then deviceIdWord i
  else if off = 0x50 then xmssStatus m
  else if off = 0x200 then leNat (slice (bmrOf m i) (4 * ix.getD 1 0) 4)
  else if off = 0x40C then (ctrOf m i).wear
  else if off = 0x800 then policyOf m i
  else half (ctrOf m i).next ((off - 0x400) / 4)

/-- Where an offset of the message RAM lies: the first channel whose partition holds it, and the offset in the partition. -/
def canPlaceOf (m : Chip) (o : Nat) : Option (Nat × Nat) :=
  ((List.range 16).find? fun c => canBase m c ≤ o && o < canBase m c + fld m (A.CAN_RAM_PART c) 8 8 * 4096).map
    fun c => (c, o - canBase m c)

/-- The receive buffer and the word of it that an offset of the message RAM names: channel, buffer, word. -/
def canSlotOf (m : Chip) (o : Nat) : Option (Nat × Nat × Nat) :=
  match canPlaceOf m o with
  | none => none
  | some (c, p) => if p / slotBytes m c < rxBufs m c then some (c, p / slotBytes m c, p % slotBytes m c / 4) else none

/-- A word of the message RAM window; the manual does not say where in its partition a transmit FIFO keeps a message. -/
def shownRam (m : Chip) (o : Nat) : Nat :=
  match canSlotOf m o with
  | some (c, b, k) => elemWord (bufOf m c b) k
  | none => if (canPlaceOf m o).isSome then freeVal m else 0

/-- A word that is worked out from the state: block, offset of its row, indices, address. -/
def shownWord (m : Chip) (now who : Nat) (b : Blk) (off : Nat) (ix : List Nat) (a : Nat) : Nat :=
  let i := ix.headD 0
  match b with
  | .glb => shownGlb m off
  | .pwr => if off = 0x10 then pwrState m else domStatus m
  | .hif => shownHif m who off ix
  | .dma => dmaStatus m
  | .prs => shownPrs m now off i
  | .tm => shownTm m now off ix
  | .gate => shownGate m now off ix
  | .mac => if isM i && flag m a 0 then rdN m a + 2 * (freeVal m % 32) else rdN m a
  | .time => shownTime m now off i
  | .mint => shownMint m off i
  | .vault => shownVault m off ix
  | .can =>
    if off = 0x1018 then canStatus m i else if off = 0x1028 then rxHead m i else shownRam m (a - A.CAN_RAM_WINDOW 0)
  | .lin => 0
  | .sge => sgeStatus m
  | .ledger =>
    if off = 0x18 then ledgerStatus m
    else if off < 0x28 then half (ledgerNext m) ((off - 0x20) / 4) else half (ledgerExp m) ((off - 0x28) / 4)
  | .pair => if off = 0x3C then pairStatus m now else half (enc m.pair.delta 64) ((off - 0x40) / 4)
  | .safe =>
    if off = 0x10000 then safeStatus m
    else if off = 0x10024 then safeEntry m i
    else if off = 0x10044 then faultStatus m
    else if off = 0x20000 then triadStatus m now
    else leNat ((List.range 4).map fun k => (sget m.triad.tcm (4 * i + k)).getD 0)
  | .brg =>
    let ag := agentOf who
    if off = 0x18 then brgMonStatus m now else if off = 0x1C then brgPweStatus m ag else brgPweWord m ag ((off - 0x20) / 4)
  | .cfg =>
    if off = 0x14 then cfgStatus m
    else if off = 0x30 then cfgBankVer m 0
    else if off = 0x34 then cfgBankVer m 1
    else if off = 0x38 then cfgFloorWord m
    else half (cfgPendWord m) ((off - 0x48) / 4)
  | .dbg => if off = 0x10 then lcStatus m else if off = 0x24 then sessionLeft m now else nonceWord m i

/-! ### Stored words that something else completes -/

/-- A stored word as it reads: four of them hold a part that time or another block decides. -/
def storedWord (m : Chip) (now a : Nat) (b : Blk) (off i : Nat) : Nat :=
  let w := rdN m a
  match b with
  | .gate => if off = 0x10058 then setBits w 0 1 (b2n (preActive m i)) else w
  | .lin => if off = 0x1004 then linSched m now i else w
  | .pwr => if off = 0x50 && i = 3 then wakeReady m now else w
  | _ => w

/-! ### 64-bit registers (R67, R117, R837) -/

/-- Rows of the low words of 64-bit registers, counters apart, by block and offset. A pair of words that hold seconds is two
registers of a time in three words, and `PRS_FW_MATRIX` and `HIF_RXMAP` are two registers each. -/
def lowRows : List (Blk × Nat) := [
  (.pwr, 0x40), (.pwr, 0x48), (.hif, 0x10004), (.hif, 0x1000C), (.mac, 0x100000), (.mac, 0x100024), (.mac, 0x102000), (.mac, 0x102024),
  (.time, 0x28), (.time, 0x30), (.time, 0x40), (.time, 0x108), (.time, 0x210), (.time, 0x310), (.mint, 0x108), (.vault, 0x108),
  (.vault, 0x400), (.can, 0x80C), (.can, 0x818), (.sge, 0xC8), (.ledger, 0x20), (.ledger, 0x28), (.pair, 0x20), (.pair, 0x28), (.pair, 0x40),
  (.safe, 0x20018), (.brg, 0x20), (.cfg, 0x18), (.cfg, 0x24), (.cfg, 0x40), (.cfg, 0x48), (.cfg, 0x104), (.dbg, 0x18)]

/-- Front port of an address in MAC: its page, its MACsec counters or its association tables. -/
def macPort (a : Nat) : Nat :=
  if a < 0x40900000 then (a - 0x40801000) / 0x400
  else if a < 0x40902000 then (a - 0x40900000) / 0x100
  else if a < 0x40908000 then (a - 0x40902000) / 0x400
  else (a - 0x40908000) / 0x80

/-- Shadow group of the 64-bit register whose low word lies at `a`: the block, in MAC the front port, in TIME the register. -/
def shadowGroup (b : Blk) (a : Nat) : Nat :=
  match b with
  | .mac => 32 + macPort a
  | .time => 64 + (a - 0x40A00000)
  | b => b.irqBit

/-- Which word of a 64-bit register a row at given indices is: `some false` the low word, `some true` the high word. -/
def wordPart (b : Blk) (r : RegRow) (ix : List Nat) : Option Bool :=
  if r.kind = .counter then some (ix.getLastD 0 == 1)
  else if lowRows.contains (b, r.off) then some false
  else if 4 ≤ r.off && lowRows.contains (b, r.off - 4) then some true
  else none

/-- The live word of a register row: its value before the rules of R837. -/
def liveWord (m : Chip) (now who a : Nat) (b : Blk) (r : RegRow) (ix : List Nat) : Nat :=
  match r.kind with
  | .counter => half (cnt m (a - 4 * ix.getLastD 0)) (ix.getLastD 0)
  | .derived => shownWord m now who b r.off ix a
  | .writeOnly => 0
  | _ => storedWord m now a b r.off (ix.headD 0)

/-- The live word at an address; 0 at a reserved offset. -/
def liveAt (m : Chip) (now who a : Nat) : Nat :=
  match regRow a with
  | some (b, r, ix) => liveWord m now who a b r ix
  | none => 0

/-- What a read of a register returns, with the shadow it leaves (R837). -/
def readReg (m : Chip) (now who a : Nat) : Chip × Nat :=
  match regRow a with
  | none => (m, 0)
  | some (b, r, ix) =>
    match wordPart b r ix with
    | some true => (m, ((sget m.shad (shadowGroup b (a - 4) * 8 + who)).map (·.toNat)).getD 0)
    | some false =>
      let hi := BitVec.ofNat 32 (liveAt m now who (a + 4))
      ({ m with shad := sputD m.shad 0 (shadowGroup b a * 8 + who) hi }, liveWord m now who a b r ix)
    | none =>
      let w := liveWord m now who a b r ix
      (if r.kind = .readClear then rstR m a else m, w)

end Sys2Proof.Machine
end

