-- ==== Sys2Proof/Machine/Bus.lean ====
section
/-! DEFINITION. Register accesses (R9-R13, R612-R626, R836-R839): who reaches a register, which fields of it a write changes, what is
refused and recorded, and what a write or a read does beside. Every register command of the table runs one of the operations below. -/

namespace Sys2Proof.Machine

/-! ### Where an access goes (R614, R615) -/

/-- Domain instance that powers a block's registers; the pages of front ports have their own. -/
def blkDom : Blk → Nat
  | .hif => 12
  | .mint => 15
  | _ => 1

/-- What BRG finds at an address: a target that answers, a port whose PHY domain is off, which holds writes (R70), or a failure with
its code as in `BRG_PWE_INFO`. -/
inductive Reach where
  | ok
  | held (port : Nat)
  | err (code : Nat)
deriving DecidableEq, Repr

def reach (m : Chip) (a : Nat) : Reach :=
  match (if a % 4 = 0 then blkOf a else none) with
  | none => .err 1
  | some b =>
    match macPage a with
    | some (n, _) => if domOn m (phyDom n) then .ok else .held n
    | none => if domOn m (blkDom b) then .ok else .err 2

/-- A range that BRG carries (R612). -/
def brgRange (a : Nat) : Bool := 0x40000000 ≤ a && a < 0x42000000

/-- An access failed (R616, R618, R721); `opn` tells that it is open whatever `BRG_SYNC_WR` holds. -/
def accFail (m : Chip) (now who a : Nat) (data : Word) (code : Nat) (opn write : Bool) : Chip :=
  let m := if opn then say (countErr m code) (.busError who a (if code = 1 then 1 else 2)) else brgFail m now who a data code write
  if who = 7 then say m (.pin "SBERROR" (if code = 1 then 2 else 7)) else m

/-- Whether an initiator can send an access: a function over its link, a hart or the triad that is not halted or held, the debug port
where the lifecycle permits debug (R720). -/
def sends (m : Chip) (who : Nat) : Bool :=
  if who < 2 then fnUp m who && domOn m 12
  else if who ≤ 5 then !bit m.triad.harts (who - 2)
  else if who = 6 then triadOut m
  else svcDebug m

/-! ### Fields of a write (R11, R12, R839) -/

/-- The word after a write of `data` over `old`; `locked` tells that RWL fields are read only (R11, R12); `fresh` are the bits that the
device set in this cycle, which a clear leaves set (R13). -/
def fieldsWritten (locked : Bool) (r : RegRow) (old data : Nat) (fresh : Nat := 0) : Nat :=
  let w := if locked then r.rw else Nat.lor r.rw r.rwl
  let x := clearMask old w + Nat.land data w
  Nat.lor (clearMask x (clearMask (Nat.land data r.w1c) fresh)) (Nat.land data r.w1s)

/-- The data of a write as its register judges it: after a commit the RWL fields keep their values (R12). -/
def dataJudged (locked : Bool) (r : RegRow) (old data : Nat) : Nat :=
  if locked then clearMask data r.rwl + Nat.land old r.rwl else data

/-- The cause for which a field's value is refused, if one is: a field written with the value it holds never is, nor an RWL field that
is read only (R839). -/
def rangeCause (locked : Bool) (r : RegRow) (old data : Nat) : Option Nat :=
  (r.rng.find? fun x =>
    let v := bits data x.1 x.2.1
    !(locked && bit r.rwl x.1) && v != bits old x.1 x.2.1 && (decide (v < x.2.2.1) || decide (x.2.2.2.1 < v))).map (·.2.2.2.2)

/-- Event registers that a block's status summarises: status bit, event register, its enables (R838). -/
def summaries : Blk → List (Nat × Nat × Nat)
  | .mac => (List.range 20).map fun n => (n, A.MAC_PEVENT n, A.MAC_PEVENT_EN n)
  | .prs => [(0, A.PRS_LANE_EVENT, A.PRS_LANE_EVENT_EN), (1, A.PRS_FW_EVENT, A.PRS_FW_EVENT_EN)]
  | .gate => (List.range 20).map fun n => (n, A.GATE_EVENT n, A.GATE_EVENT_EN n)
  | .can => (List.range 16).map fun n => (n, A.CAN_EVENT n, A.CAN_EVENT_EN n)
  | .lin => (List.range 8).map fun n => (n, A.LIN_EVENT n, A.LIN_EVENT_EN n)
  | _ => []

/-- A summary bit is set while a bit that it shows is set and enabled (R838). -/
def resummary (m : Chip) (b : Blk) : Chip :=
  (summaries b).foldl (fun m x => if Nat.land (rdN m x.2.1) (rdN m x.2.2) = 0 then m else setIrq m b x.1) m

/-! ### Checks and effects of the blocks -/

/-- The initiator as which the configuration image writes (initiator 8): the agent that each block accepts. -/
def writerOf (b : Blk) (who : Nat) : Nat := if who < 8 then who else if b = .safe then 6 else 2

/-- Why a write is refused before its field ranges are judged: a field that does not apply to the port's kind (R69). -/
def blockFirst (b : Blk) (a data : Nat) : Option Nat :=
  match b with
  | .mac => if macForeign a data then some 4 else none
  | _ => none

/-- Why the chapter of a block refuses a write, as in its `<BLK>_ERR_CAPTURE`; 0 when it does not. -/
def blockCheck (m : Chip) (now who : Nat) (b : Blk) (a old new data : Nat) : Nat :=
  let w := writerOf b who
  match b with
  | .glb => glbCheck w a data
  | .pwr => pwrCheck m w a new
  | .hif => hifCheck m (!committed m || 8 ≤ who) w a old new data
  | .dma => 0
  | .prs => prsCheck m a new data
  | .tm => tmCheck m a new data
  | .gate => gateCheck m a data
  | .mac => if macCheck m a old new data ≠ 0 then macCheck m a old new data else macsecCheck m a old new
  | .time => timeCheck m a old new
  | .mint => mintCheck m a old new data
  | .vault => vaultCheck m w a old new
  | .can => canCheck m a
  | .lin => 0
  | .sge => sgeCheck m a
  | .ledger => 0
  | .pair => pairCheck m a data
  | .safe => safeCheck m now w a data
  | .brg => if a = A.BRG_PWE_POP && bit data 0 && (pweHead m (agentOf who)).isNone then 4 else 0
  | .cfg => cfgCheck m w a data
  | .dbg => dbgCheck w a

/-- Remove an agent's oldest posted-write error (R619). -/
def pwePop (m : Chip) (ag : Nat) : Chip := updBrg m fun b => { b with pwe := b.pwe.eraseP fun e => agentOf e.who == ag }

/-- What a write does beside storing its fields: `m0` is the device before the write, `flt` tells that the command it starts meets a
double-symbol error, or an NVM write that fails. -/
def blockEffect (m0 m : Chip) (now who : Nat) (b : Blk) (a old new data : Nat) (flt : Bool) : Chip :=
  let w := writerOf b who
  match b with
  | .glb => glbEffect m0 m now a
  | .pwr => pwrEffect m now a old data
  | .hif => hifEffect m now a old new data
  | .dma => m
  | .prs => prsEffect m now a old new data flt
  | .tm => tmEffect m now a old new data
  | .gate => gateEffect m now a old new data
  | .mac => macsecEffect (macEffect m now a old new data) a old new
  | .time => timeEffect m now a old new data
  | .mint => mintEffect m now a data
  | .vault => vaultEffect m a data
  | .can => canEffect m now a old new data
  | .lin => linEffect m now a old new data
  | .sge => sgeEffect m now a data flt
  | .ledger => ledgerEffect m now a old new
  | .pair => pairEffect m now a data
  | .safe => safeEffect m now a data
  | .brg => if a = A.BRG_PWE_POP && bit data 0 then pwePop m (agentOf who) else m
  | .cfg => cfgEffect m now w a data flt
  | .dbg => dbgEffect m now a data

/-! ### A write (R12, R836, R839) -/

/-- A write to a function's own MSI-X table (R554, R811): address and data words, and the mask; a vector that was pending is sent when
its mask is lifted. -/
def msixWrite (m : Chip) (who vec k data : Nat) : Chip :=
  match msixFn who with
  | none => m
  | some f =>
    let v := if k = 0 then clearMask data 3 else if k = 3 then data % 2 else data
    let m := { m with msix := sputD m.msix (BitVec.ofNat 32 (b2n (k == 3))) (f * 1024 + vec * 4 + k) (BitVec.ofNat 32 v) }
    if k = 3 && v = 0 && m.pba.contains (f * 128 + vec) then
      say { m with pba := m.pba.filter fun x => x != f * 128 + vec } (.msix f vec)
    else m

/-- A refusal of a block: recorded, and for a doorbell beyond its ring also an error of the ring (R564). -/
def refuseWrite (m : Chip) (now : Nat) (b : Blk) (a cause : Nat) : Chip :=
  let m := refuse m b a cause
  match dbPage a with
  | some (r, _) => if b = .hif && cause = 6 then dbRefused m now r else m
  | none => m

/-- A register whose written value is in force from the cycle after the write: lanes (R120), connection tracking and the firewall log
(R220), queues and ports of TM (R262), the schedulers (R274, R278), shapers and Purses (R291), clock rates and offset commands (R302,
R303), the association that MACsec encodes with (R398), the Mint (R408), the Ledger's selections and export (R654, R668) and interrupt
routes (R812). -/
def inForceLater (a : Nat) : Bool :=
  (0x40420000 ≤ a && a < 0x40428000 && a != A.PRS_LANE_EVENT && !((List.range 8).any fun g => a == A.PRS_LAG_ACTIVE g))
  || a == A.PRS_CT_TMO_TCP0 || a == A.PRS_CT_TMO_TCP1 || a == A.PRS_CT_TMO_UDP || a == A.PRS_CT_TMO_GEN || a == A.PRS_FW_LOG
  || (0x40604000 ≤ a && a < 0x40604C00) || ((List.range 24).any fun n => a == A.TM_PORT_HOLD n)
  || (match schPage a with
      | some (_, off) => off == 0 || off == 4 || (0x20 ≤ off && off < 0xA0 && off % 16 == 4)
      | none => false)
  || a == A.TIME_Dd_RATE 0 || a == A.TIME_Dd_RATE 1 || a == A.TIME_Dd_ADJ_CMD 0 || a == A.TIME_Dd_ADJ_CMD 1
  || ((List.range 16).any fun n => a == A.MACSEC_TXSC_CFG n) || a == A.MINT_TELLER_CFG || a == A.MINT_STREAM_CFG
  || a == A.DMA_CFG || a == A.LEDGER_CFG || a == A.LEDGER_EXPORT_CFG || a == A.LEDGER_FRAME_RX_PORTS || a == A.LEDGER_FRAME_TX_PORTS
  || ((List.range 64).any fun k => a == A.LEDGER_STREAM_EN k) || ((List.range 4).any fun k => a == irqRoute k)

/-- An accepted write takes effect: its fields are stored, and what the write does beside happens. -/
def applyWrite (m : Chip) (now who a data : Nat) (flt : Bool) (b : Blk) (r : RegRow) : Chip :=
  let old := if r.kind = .writeOnly then 0 else rdN m a
  let new := fieldsWritten (committed m) r old data (freshBits m a)
  let m1 := if r.kind = .writeOnly then m else wrN m a new
  let m1 := if r.off = 0xC && bit data 0 then wrN m1 (errCapture b) 0 else m1
  let m2 := resummary (blockEffect m m1 now who b a old new data flt) b
  if r.off ≤ 4 then msixAgain m b m2 else m2

/-- A write to the word of a row that holds fields or commands. One access makes at most one record: a refused one that of its cause, an
accepted one that changes a field which is read only after commit that of cause 1. -/
def writeFields (m : Chip) (now who a data : Nat) (flt : Bool) (b : Blk) (r : RegRow) : Chip :=
  let old := if r.kind = .writeOnly then 0 else rdN m a
  let locked := committed m
  let new := fieldsWritten locked r old data (freshBits m a)
  let judged := dataJudged locked r old data
  match blockFirst b a judged, rangeCause locked r old data with
  | some c, _ => refuse m b a c
  | none, some c => refuse m b a c
  | none, none =>
    match blockCheck m now who b a old new judged with
    | 0 =>
      let m := if locked && Nat.land (Nat.xor old data) r.rwl != 0 then refuse m b a 1 else m
      if who < 8 && inForceLater a then nextCycle m now (.write who a judged) else applyWrite m now who a judged flt b r
    | c => refuseWrite m now b a c

/-- A write accepted in the cycle before takes effect. -/
def landWrite (m : Chip) (now who a data : Nat) : Chip :=
  match regRow a with
  | some (b, r, _) => applyWrite m now who a data false b r
  | none => m

/-- A write to the triad load window (R776). -/
def windowWrite (m : Chip) (now who a data : Nat) : Chip :=
  match safeCheck m now (if who < 8 then who else 2) a data with
  | 0 => safeEffect m now a data
  | c => refuse m .safe a c

/-- A write that reaches its block (R614): a read-only word and a reserved offset ignore it. -/
def writeReg (m : Chip) (now who a data : Nat) (flt : Bool) : Chip :=
  match regRow a with
  | none => m
  | some (b, r, ix) =>
    if b = .hif && r.off = 0x70000 then msixWrite m who (ix.headD 0) (ix.getD 1 0) data
    else if b = .safe && r.off = 0x40000 then windowWrite m now who a data
    else
      match r.kind with
      | .stored => writeFields m now who a data flt b r
      | .writeOnly => writeFields m now who a data flt b r
      | _ => m

/-- Apply the writes that a port held while its PHY domain was off, in order, once the domain is on (R70, R703). -/
def applyHeldPort (now : Nat) (m : Chip) (n : Nat) : Chip :=
  if (portOf m n).held.isEmpty || !domOn m (phyDom n) then m
  else
    let l := (portOf m n).held
    l.foldl (fun m x => writeReg m now x.1 x.2.1 x.2.2.toNat false) (updPort m n fun p => { p with held := [] })

def applyHeld (m : Chip) (now : Nat) : Chip := (List.range 20).foldl (applyHeldPort now) m

/-- One write that BRG accepts (R612-R618, R623): `opn` for an open access, `flt` as in `blockEffect`. -/
def busWrite (m : Chip) (now who a : Nat) (data : Word) (opn flt : Bool) : Chip :=
  let m := monClear m a
  match reach m a with
  | .err c => accFail m now who a data c opn true
  | .held n => updPort m n fun p => { p with held := p.held ++ [(who, a, data)] }
  | .ok => applyHeld (writeReg m now who a data.toNat flt) now

/-! ### A read (R67, R70, R475, R837) -/

/-- A port's page as its held writes show it (R70). -/
def heldView (m : Chip) (n : Nat) : Chip :=
  (portOf m n).held.foldl (fun m x =>
    match regRow x.2.1 with
    | some (_, r, _) => if r.kind = .stored then wrN m x.2.1 (fieldsWritten (committed m) r (rdN m x.2.1) x.2.2.toNat) else m
    | none => m) m

/-- A read that reaches its block: the device after it, and the word. -/
def readTarget (m : Chip) (now who a : Nat) : Chip × Nat :=
  let (m1, v) := readReg m now who a
  if a = A.PAIR_STATUS then (useFree (useFree m1), v)
  else if a % 0x400 = 0x044 && (macPage a).isSome then (useFree m1, v)
  else if (match canPage a with | some (c, off) => off == 0x18 && (canOf m c).st == 3 | none => false) then (useFree m1, v)
  else if A.CAN_RAM_WINDOW 0 ≤ a && a < A.CAN_RAM_WINDOW 0 + 0x80000 then
    match canSlotOf m (a - A.CAN_RAM_WINDOW 0) with
    | some (c, b, k) => (windowTouch m1 now c b k, v)
    | none => (useFree m1, v)
  else (m1, v)

/-- A read of the register clears it (R11). -/
def readClears (a : Nat) : Bool :=
  match regRow a with
  | some (_, r, _) => r.kind == .readClear
  | none => false

/-- One read that BRG accepts: the word, or `none` where it fails. -/
def busRead (m : Chip) (now who a : Nat) : Chip × Option Word :=
  match reach m a with
  | .err c => (accFail m now who a 0 c false false, none)
  | .held n =>
    let (v, x) := readReg (heldView m n) now who a
    let m := if readClears a then rstR m a else m
    ({ m with shad := v.shad }, some (BitVec.ofNat 32 x))
  | .ok => let (m, v) := readTarget m now who a; (m, some (BitVec.ofNat 32 v))

/-! ### Accesses of an initiator to any address (R721, R798-R801) -/

/-- Offset in system SRAM of an address of a core: the SRAM or its uncached alias (R798). -/
def sramOff (a : Nat) : Option Nat :=
  if 0x08000000 ≤ a && a < 0x08800000 then some (a - 0x08000000)
  else if 0x18000000 ≤ a && a < 0x18800000 then some (a - 0x18000000)
  else none

/-- The cluster-local timer and interrupt controller (R798). -/
def clusterLocal (a : Nat) : Bool := 0x0C000000 ≤ a && a < 0x10000000

/-- A load or store access fault, which nothing records (R800); the debug port sees `sberror` 2. -/
def accessFault (m : Chip) (who a : Nat) : Chip :=
  let m := say m (.busError who a 1)
  if who = 7 then say m (.pin "SBERROR" 2) else m

/-- A store of a word to an address that BRG does not carry: system SRAM takes it, the cluster-local region is not described. -/
def otherWrite (m : Chip) (who a : Nat) (data : Word) : Chip :=
  match (if a % 4 = 0 then sramOff a else none) with
  | some o => memStore m 2 (sramBase + o) (leBytes 4 data.toNat)
  | none => if clusterLocal a && 2 ≤ who && who ≤ 5 then m else accessFault m who a

/-- A load of a word from such an address: SRAM, Ledger SRAM; the boot ROM's contents and the cluster-local registers are not given. -/
def otherRead (m : Chip) (who a : Nat) : Chip × Option Word :=
  match (if a % 4 = 0 then sramOff a else none) with
  | some o => (m, some (BitVec.ofNat 32 (leNat (innerRead m (sramBase + o) 4))))
  | none =>
    if a % 4 = 0 && 0x20000000 ≤ a && a < 0x20080000 then (m, some (BitVec.ofNat 32 (leNat (innerRead m a 4))))
    else if a < 0x40000 || (clusterLocal a && 2 ≤ who && who ≤ 5) then (useFree m, some (BitVec.ofNat 32 (freeVal m)))
    else (accessFault m who a, none)

/-- An access of the debug port that SERVICE does not permit (R721). -/
def serviceDenied (m : Chip) (who a : Nat) (write : Bool) : Bool :=
  who = 7 && m.life = 2 &&
    (if write then (sramOff a).isNone
     else !brgRange a || (0x40C00000 ≤ a && a < 0x40D00000) || (0x41500000 ≤ a && a < 0x41600000))

/-- A write of an initiator. -/
def put (m : Chip) (now who a : Nat) (data : Word) (opn flt : Bool) : Chip :=
  if !sends m who then m
  else if serviceDenied m who a true then say m (.pin "SBERROR" 2)
  else if brgRange a then busWrite m now who a data opn flt
  else if who < 2 then m
  else otherWrite m who a data

/-- A read of an initiator, without its answer. -/
def get (m : Chip) (now who a : Nat) : Chip × Option Word :=
  if !sends m who then (m, none)
  else if serviceDenied m who a false then (say m (.pin "SBERROR" 2), none)
  else if brgRange a then busRead m now who a
  else if who < 2 then (m, none)
  else otherRead m who a

/-- A read of an initiator, with its answer. -/
def look (m : Chip) (now who a : Nat) : Chip :=
  let (m, v) := get m now who a
  match v with
  | some w => say m (.read who a w)
  | none => m

end Sys2Proof.Machine
end

