-- ==== Sys2Proof/Machine/Run.lean ====
section
/-! DEFINITION. The frame in which every command runs: Ledger time moves to the command's LT and never back (R14), what has
happened by itself in between is brought up to date, the command's effect is applied, and the MSI-X vectors of interrupts that rose
are sent (R811). -/

namespace Sys2Proof.Machine

/-- An effect that is due takes place at LT `now`. -/
def land (now : Nat) (m : Chip) (x : Late) : Chip :=
  match x with
  | .write who a data => landWrite m now who a data
  | .correct c len => correctCut m now c len
  | .table acc flt => tblCommit m now acc flt
  | .track flt => ctCommit m now flt
  | .sgeTable acc flt => sgeTblCommit m now acc flt
  | .sgeFresh => freshCommit m
  | .activation => settleAct m now
  | .park => park m now
  | .mintDown => mintLatched m now
  | .ringStop r => if ringRuns m r then updRing m r fun x => { x with stopping := true } else m
  | .ringWithdraw r => if ringStopped m r then withdraw m now r else m
  | .writeBack cell key => updTm m fun t => { t with errs := t.errs.filter (· != (cell, key)) }
  | .looped n at_ bytes ok => receive m now at_ n bytes ok [] false 0
  | .step => stepWork m now
  | .gates => stepGates m now
  | .gateOff n => gateDisable m n now
  | .erase s => clearSlot m s
  | .canRx c b => bufShow m c b
  | .stall since =>
    if m.triad.mode = 1 && m.triad.syncAt = since then updTriad m fun x => { x with stall := some (shownGlb m 0x13C) } else m
  | .staging n => stagingBack m now n
  | .lane l slow => updLane m l fun s => { s with slow := slow, clearAt := if slow then s.clearAt else some now }

/-- Everything that is due by LT `now` takes place, in order. -/
def landAll (m : Chip) (now : Nat) : Chip :=
  (m.late.filter fun p => p.1 ≤ now).foldl (fun m p => land now m p.2) { m with late := m.late.filter fun p => now < p.1 }

/-- The end of the cycle `now`: an activation whose boundary was raised in it (R789), its lane decisions, its admissions, its emissions (R524); the status bits set in it are no longer of this cycle. -/
def endCycle (m : Chip) (now : Nat) : Chip := { emissions (admissions (decisions (settleAct m now) now) now) now with fresh := [] }

/-- What happens by itself from LT `a`, in whose cycle the device stands, to LT `b`: the cycle ends, and effects take place as they fall
due, each in a cycle of its own; `k` bounds their number. -/
def pass : Nat → Chip → Nat → Nat → Chip
  | 0, m, a, b => advance (lanesRun m a b) a b
  | k + 1, m, a, b =>
    if b ≤ a then m
    else
      let m := endCycle m a
      match m.late.head? with
      | none => advance (lanesRun m a b) a b
      | some (d, _) =>
        if b < d then advance (lanesRun m a b) a b
        else
          let d := max d a
          pass k (landAll (advance (lanesRun m a d) a d) d) d b

/-- How many instants `pass` may meet: an effect that takes place gives rise to no other, what ends the first cycle may. -/
def passFuel (m : Chip) : Nat := m.late.length + m.prs.dec.length + m.tm.adm.length + m.sge.dueNow.length + 1

/-- While FCLK does not run, the AON domain advances LT by 1,953,125 sixteenths of a count at each tick of the 32.768 kHz crystal (R33): the
ticks from LT `a` to a time `t`. -/
def ticks (m : Chip) (a t : Nat) : Nat := (16 * (t - a) + 15 - m.pwr.frac) / 1953125

/-- The LT at which a command of LT `t` happens: Ledger time never moves back (R14), and each FCLK cycle has the LT of its start (R840);
while FCLK does not run LT advances with the crystal (R33). A device without power has no LT of its own. -/
def State.when_ (s : State) (t : Nat) : Nat :=
  if t ≤ s.lt then s.lt
  else if s.chip.pwr.fclk then s.lt + (t - s.lt) / cyc * cyc
  else if s.chip.pwr.mode == .off then t
  else s.lt + (s.chip.pwr.frac + 1953125 * ticks s.chip s.lt t) / 16

/-- The LT of the next cycle, or of the next tick of the crystal. -/
def State.nextLt (s : State) : Nat :=
  if s.chip.pwr.fclk then s.lt + cyc
  else if s.chip.pwr.mode == .off then s.lt
  else s.lt + (s.chip.pwr.frac + 1953125) / 16

/-- The device as a command of LT `t` finds it. -/
def State.found (s : State) (t : Nat) : Chip :=
  let m := s.chip
  let b := s.when_ t
  if coreOn m then pass (passFuel m) m s.lt b
  else
    let frac := if m.pwr.fclk || m.pwr.mode == .off then m.pwr.frac else (m.pwr.frac + 1953125 * ticks m s.lt t) % 16
    { advance m s.lt b with fresh := [], late := [], pwr := { m.pwr with frac := frac } }

/-- The state after a command of LT `t` that leaves the device at `m`: messages of interrupts that rose are sent (R811). -/
def State.done (s : State) (t : Nat) (m : Chip) : State :=
  { lt := s.when_ t, chip := idleTrack (s.when_ t) (msixRise s.chip m), pending := s.pending }

/-- Run a command's effect at LT `t`: the effect sees the LT at which it happens. -/
def State.run (s : State) (t : Nat) (f : Nat → Chip → Chip) : Host.Outcome State Fault Refusal :=
  .next (s.done t (f (s.when_ t) (s.found t)))

/-- Run an effect of logic that CORE powers: without it nothing happens but time passing. -/
def State.core (s : State) (t : Nat) (f : Nat → Chip → Chip) : Host.Outcome State Fault Refusal :=
  s.run t fun now m => if coreOn m then f now m else m

/-- The LT at which BRG accepts an access that an initiator sends at LT `t`: one access in a cycle (R612). While the write buffer holds 16
posted writes, no write is accepted until the first leaves it (R617). A read waits for the responses to the initiator's writes (R613). -/
def State.accept (s : State) (t who a : Nat) (wr : Bool) : Nat :=
  if !brgRange a || !sends s.chip who then t
  else
    let b := s.chip.brg
    let t := max t b.next
    if !wr then (b.buf.filter (·.1 == who)).foldl (fun a x => max a x.2) t
    else if 16 ≤ b.buf.length then max t (b.buf.foldl (fun a x => min a x.2) (b.buf.headD (0, 0)).2)
    else t

/-- BRG has accepted an access in the cycle `now`; a posted write stands in the write buffer until its target has answered, whose time is
free. -/
def brgTake (m : Chip) (now who a : Nat) (posted : Bool) : Chip :=
  if !brgRange a || !sends m who then m
  else updBrg m fun b => { b with
    next := now + cyc,
    buf := if posted then (b.buf ++ [(who, now + cyc * (1 + Config.respTime b.posted))]).drop (b.buf.length - 15) else b.buf,
    posted := if posted then b.posted + 1 else b.posted }

/-- Whether a write of an initiator is posted (R616). -/
def isPosted (m : Chip) (who : Nat) : Bool := !openWrite m who

/-- Run an access as a command of the queue: a write `wr`, which may be posted. -/
def State.access (s : State) (t who a : Nat) (wr posted : Bool) (f : Nat → Chip → Chip) : Host.Outcome State Fault Refusal :=
  s.core (s.accept t who a wr) fun now m => f now (brgTake (canSettle m now) now who a posted)

/-- A register write as a command of the queue: an ordinary one, which starts nothing that can meet an error in a memory. -/
def State.write (s : State) (t who a : Nat) (data : Word) (flt : Bool := false) : Host.Outcome State Fault Refusal :=
  s.access t who a true (isPosted s.chip who) fun now m => put m now who a data false flt

/-- A register write whose data is worked out from the device as the write finds it. -/
def State.writeAt (s : State) (t who : Nat) (a : Nat) (f : Chip → Nat) (flt : Bool := false) : Host.Outcome State Fault Refusal :=
  s.access t who a true (isPosted s.chip who) fun now m => put m now who a (BitVec.ofNat 32 (f m)) false flt

/-- A register read as a command of the queue. -/
def State.read (s : State) (t who a : Nat) : Host.Outcome State Fault Refusal := s.access t who a false false fun now m => look m now who a

end Sys2Proof.Machine
end

