-- ==== Sys2Proof/Machine/Access.lean ====
section
/-! DEFINITION. The commands of the table that are register accesses, each one write or read of BRG by an initiator `who`; the exclusive
accesses of R622-R625, the debug port's system bus access, and the wakes that give ports their held writes. -/

namespace Sys2Proof.Machine

/-! ### Any register -/

/-- `REGISTER_WRITE` (R11, R12, R839). -/
def execRegisterWrite (t : Nat) (who : Fin 8) (addr : BitVec 32) (data : Word) (s : State) : Host.Outcome State Fault Refusal :=
  s.write t who addr.toNat data

/-- `ERR_CLR` (R836): a write of 1 to a block's `<BLK>_ERR_CLR`; the block by its IRQ bit. -/
def execErrClr (t : Nat) (who : Fin 8) (blk : Fin 20) (s : State) : Host.Outcome State Fault Refusal :=
  s.write t who (errClr (Blk.all.getD blk .glb)) 1

/-- `LOW_WORD_READ` (R837), and any other read that has no row of its own. -/
def execLowWordRead (t : Nat) (who : Fin 8) (addr : BitVec 32) (s : State) : Host.Outcome State Fault Refusal := s.read t who addr.toNat

/-- `HIGH_WORD_READ` (R837). -/
def execHighWordRead (t : Nat) (who : Fin 8) (addr : BitVec 32) (s : State) : Host.Outcome State Fault Refusal := s.read t who addr.toNat

/-- `RC_READ` (R11). -/
def execRcRead (t : Nat) (who : Fin 8) (port : Fin 20) (s : State) : Host.Outcome State Fault Refusal := s.read t who (A.MAC_PPRBS_ERR port)

/-! ### GLB and PWR -/

/-- `COLD_RESET_CMD` (R805). -/
def execColdResetCmd (t : Nat) (who : Fin 8) (data : Word) (s : State) : Host.Outcome State Fault Refusal := s.write t who A.GLB_RST_CMD data

/-- `IRQ_ROUTE_WRITE` (R812): agent 0 H0, 1 H1, 2 control cluster, 3 triad. -/
def execIrqRouteWrite (t : Nat) (who : Fin 8) (agent : Fin 4) (data : Word) (s : State) : Host.Outcome State Fault Refusal :=
  s.write t who (irqRoute agent) data

/-- `PARK` (R673). -/
def execPark (t : Nat) (who : Fin 8) (s : State) : Host.Outcome State Fault Refusal := s.write t who A.PWR_CMD 1

/-- `PARK_CANCEL` (R682). -/
def execParkCancel (t : Nat) (who : Fin 8) (s : State) : Host.Outcome State Fault Refusal :=
  s.write t who A.PWR_CMD 2

/-- `DOMAIN_POWER_DOWN` (R701): the domain's bit becomes 1, the others stay. -/
def execDomainPowerDown (t : Nat) (who : Fin 8) (dom : Fin 16) (s : State) : Host.Outcome State Fault Refusal :=
  s.writeAt t who A.PWR_DOM_CTRL fun m => setBits (rdN m A.PWR_DOM_CTRL) dom 1 1

/-- `DOMAIN_POWER_UP` (R703). -/
def execDomainPowerUp (t : Nat) (who : Fin 8) (dom : Fin 16) (s : State) : Host.Outcome State Fault Refusal :=
  s.writeAt t who A.PWR_DOM_CTRL fun m => setBits (rdN m A.PWR_DOM_CTRL) dom 1 0

/-! ### MAC -/

/-- `COUNTER_CLEAR` (R68). -/
def execCounterClear (t : Nat) (who : Fin 8) (port : Fin 20) (s : State) : Host.Outcome State Fault Refusal :=
  s.write t who (A.MAC_PCNT_CLR port) 1

/-- `PORT_DISABLE` (R59): `enable` becomes 0, the other fields stay. -/
def execPortDisable (t : Nat) (who : Fin 8) (port : Fin 20) (s : State) : Host.Outcome State Fault Refusal :=
  s.writeAt t who (A.MAC_PCFG port) fun m => setBits (rdN m (A.MAC_PCFG port)) 0 1 0

/-- `TC10_SLEEP_REQ` (R43). -/
def execTc10SleepReq (t : Nat) (who : Fin 8) (edge : Fin 8) (s : State) : Host.Outcome State Fault Refusal :=
  s.write t who (A.MAC_PT1_CTRL (8 + edge)) 1

/-- `TC10_WAKE_REQ` (R45). -/
def execTc10WakeReq (t : Nat) (who : Fin 8) (edge : Fin 8) (s : State) : Host.Outcome State Fault Refusal :=
  s.write t who (A.MAC_PT1_CTRL (8 + edge)) 2

/-- `ENCODING_AN_WRITE` (R398). -/
def execEncodingAnWrite (t : Nat) (who : Fin 8) (port : Fin 16) (data : Word) (s : State) : Host.Outcome State Fault Refusal :=
  s.write t who (A.MACSEC_TXSC_CFG port) data

/-! ### PRS -/

/-- `LANE_CFG_WRITE` (R841). -/
def execLaneCfgWrite (t : Nat) (who : Fin 8) (data : Word) (s : State) : Host.Outcome State Fault Refusal := s.write t who A.PRS_LANE_CFG data

/-- `RETURN_ALL` (R106). -/
def execReturnAll (t : Nat) (who : Fin 8) (s : State) : Host.Outcome State Fault Refusal := s.write t who A.PRS_LANE_CTRL 1

/-- The word of `PRS_TBL_CMD` or `SGE_TBL_CMD` that starts an operation: op in [6:4], target in [7], go in [31]. -/
def tblWord (table op : Nat) (staged : Bool) : Word := BitVec.ofNat 32 (table + op * 16 + b2n staged * 128 + 2 ^ 31)

/-- `TBL_READ` (R172). `ecc` here and below: the entry read holds a double-symbol error. -/
def execTblRead (t : Nat) (who : Fin 8) (table : Fin 16) (staged ecc : Bool) (s : State) : Host.Outcome State Fault Refusal :=
  s.write t who A.PRS_TBL_CMD (tblWord table 0 staged) ecc

/-- `TBL_WRITE` (R173). -/
def execTblWrite (t : Nat) (who : Fin 8) (table : Fin 16) (staged ecc : Bool) (s : State) : Host.Outcome State Fault Refusal :=
  s.write t who A.PRS_TBL_CMD (tblWord table 1 staged) ecc

/-- `TBL_INSERT` (R173). -/
def execTblInsert (t : Nat) (who : Fin 8) (table : Fin 16) (staged ecc : Bool) (s : State) : Host.Outcome State Fault Refusal :=
  s.write t who A.PRS_TBL_CMD (tblWord table 2 staged) ecc

/-- `TBL_DELETE` (R173). -/
def execTblDelete (t : Nat) (who : Fin 8) (table : Fin 16) (staged ecc : Bool) (s : State) : Host.Outcome State Fault Refusal :=
  s.write t who A.PRS_TBL_CMD (tblWord table 3 staged) ecc

/-- `TBL_SEARCH` (R173). -/
def execTblSearch (t : Nat) (who : Fin 8) (table : Fin 16) (staged ecc : Bool) (s : State) : Host.Outcome State Fault Refusal :=
  s.write t who A.PRS_TBL_CMD (tblWord table 4 staged) ecc

/-- `TBL_CLEAR_STATE` (R173). -/
def execTblClearState (t : Nat) (who : Fin 8) (table : Fin 16) (staged ecc : Bool) (s : State) : Host.Outcome State Fault Refusal :=
  s.write t who A.PRS_TBL_CMD (tblWord table 5 staged) ecc

/-- The word of `PRS_CT_CMD` that starts an operation. -/
def ctWord (op : Nat) : Word := BitVec.ofNat 32 (op + 2 ^ 31)

/-- `CT_READ` (R212). -/
def execCtRead (t : Nat) (who : Fin 8) (ecc : Bool) (s : State) : Host.Outcome State Fault Refusal := s.write t who A.PRS_CT_CMD (ctWord 0) ecc

/-- `CT_INSERT` (R212, R846). -/
def execCtInsert (t : Nat) (who : Fin 8) (ecc : Bool) (s : State) : Host.Outcome State Fault Refusal := s.write t who A.PRS_CT_CMD (ctWord 1) ecc

/-- `CT_DELETE` (R212). -/
def execCtDelete (t : Nat) (who : Fin 8) (ecc : Bool) (s : State) : Host.Outcome State Fault Refusal := s.write t who A.PRS_CT_CMD (ctWord 2) ecc

/-- `CT_FLUSH` (R212). -/
def execCtFlush (t : Nat) (who : Fin 8) (ecc : Bool) (s : State) : Host.Outcome State Fault Refusal := s.write t who A.PRS_CT_CMD (ctWord 3) ecc

/-! ### TM -/

/-- `TM_PORT_FLUSH` (R258). -/
def execTmPortFlush (t : Nat) (who : Fin 8) (port : Fin 24) (s : State) : Host.Outcome State Fault Refusal :=
  s.write t who (A.TM_PORT_CMD port) 1

/-- `SCH_PORT_CFG_WRITE` (R278). -/
def execSchPortCfgWrite (t : Nat) (who : Fin 8) (port : Fin 24) (data : Word) (s : State) : Host.Outcome State Fault Refusal :=
  s.write t who (A.TM_SCH_PORT_CFG port) data

/-- `QUANTUM_WRITE` (R279). -/
def execQuantumWrite (t : Nat) (who : Fin 8) (port : Fin 24) (tc : Fin 8) (data : Word) (s : State) : Host.Outcome State Fault Refusal :=
  s.write t who (A.TM_SCH_Q_CFG port tc) data

/-- `CBS_CFG_WRITE` (R290). -/
def execCbsCfgWrite (t : Nat) (who : Fin 8) (port : Fin 24) (tc : Fin 8) (data : Word) (s : State) : Host.Outcome State Fault Refusal :=
  s.write t who (A.TM_CBS_CFG port tc) data

/-- `PURSE_CFG_WRITE` (R290). -/
def execPurseCfgWrite (t : Nat) (who : Fin 8) (port : Fin 24) (data : Word) (s : State) : Host.Outcome State Fault Refusal :=
  s.write t who (A.TM_PURSE_CFG port) data

/-! ### TIME and GATE -/

/-- `RATE_WRITE` (R302). -/
def execRateWrite (t : Nat) (who : Fin 8) (dom : Fin 2) (data : Word) (s : State) : Host.Outcome State Fault Refusal :=
  s.write t who (A.TIME_Dd_RATE dom) data

/-- `OFFSET_COMMAND` (R303). -/
def execOffsetCommand (t : Nat) (who : Fin 8) (dom : Fin 2) (s : State) : Host.Outcome State Fault Refusal :=
  s.write t who (A.TIME_Dd_ADJ_CMD dom) 1

/-- `WORKING_DOMAIN_CHANGE` (R304). -/
def execWorkingDomainChange (t : Nat) (who : Fin 8) (data : Word) (s : State) : Host.Outcome State Fault Refusal := s.write t who A.TIME_CFG data

/-- `TIME_SNAP` (R300). -/
def execTimeSnap (t : Nat) (who : Fin 8) (s : State) : Host.Outcome State Fault Refusal := s.write t who A.TIME_CMD 1

/-- `TXTS_POP` (R309). -/
def execTxtsPop (t : Nat) (who : Fin 8) (s : State) : Host.Outcome State Fault Refusal := s.write t who A.TIME_TXTS_POP 1

/-- `GATE_SWAP_REQUEST` (R317); `en` stays. -/
def execGateSwapRequest (t : Nat) (who : Fin 8) (port : Fin 20) (s : State) : Host.Outcome State Fault Refusal :=
  s.writeAt t who (A.GATE_PCTL port) fun m => fld m (A.GATE_PCTL port) 0 1 + 2

/-- `GATE_SWAP_CANCEL` (R318); `en` stays. -/
def execGateSwapCancel (t : Nat) (who : Fin 8) (port : Fin 20) (s : State) : Host.Outcome State Fault Refusal :=
  s.writeAt t who (A.GATE_PCTL port) fun m => fld m (A.GATE_PCTL port) 0 1 + 4

/-- `GATE_DISABLE` (R321). -/
def execGateDisable (t : Nat) (who : Fin 8) (port : Fin 20) (s : State) : Host.Outcome State Fault Refusal := s.write t who (A.GATE_PCTL port) 0

/-- `RECOVERY_ENTRY_WRITE` (R342): a word of a recovery function's entry. -/
def execRecoveryEntryWrite (t : Nat) (who : Fin 8) (fn : Fin 1024) (word : Fin 4) (data : Word) (s : State) :
    Host.Outcome State Fault Refusal :=
  s.write t who (A.GATE_RCVY0 fn + 4 * word) data

/-! ### MINT and VAULT -/

/-- `CORE_RELEASE` (R364). -/
def execCoreRelease (t : Nat) (who : Fin 8) (core : Fin 10) (s : State) : Host.Outcome State Fault Refusal :=
  s.write t who (A.MINT_CORE_CTRL core) 1

/-- `CORE_QUARANTINE_CMD` (R364). -/
def execCoreQuarantineCmd (t : Nat) (who : Fin 8) (core : Fin 10) (s : State) : Host.Outcome State Fault Refusal :=
  s.write t who (A.MINT_CORE_CTRL core) 2

/-- `SEAL_LOCK` (R421). -/
def execSealLock (t : Nat) (who : Fin 8) (s : State) : Host.Outcome State Fault Refusal := s.write t who A.VAULT_CTRL 1

/-! ### CAN, LIN and SGE -/

/-- `CAN_TX_CANCEL` (R464). -/
def execCanTxCancel (t : Nat) (who : Fin 8) (data : Word) (s : State) : Host.Outcome State Fault Refusal := s.write t who A.CAN_TX_CANCEL data

/-- `CAN_RECOVER` (R478). -/
def execCanRecover (t : Nat) (who : Fin 8) (chan : Fin 16) (s : State) : Host.Outcome State Fault Refusal := s.write t who (A.CAN_CMD chan) 1

/-- `LIN_SCHEDULE_SELECT` (R489). -/
def execLinScheduleSelect (t : Nat) (who : Fin 8) (chan : Fin 8) (table : Fin 4) (run : Bool) (s : State) : Host.Outcome State Fault Refusal :=
  s.write t who (A.LIN_SCHED_CMD chan) (BitVec.ofNat 32 (table + 4 * b2n run))

/-- `LIN_WAKE` (R495); the schedule stays. -/
def execLinWake (t : Nat) (who : Fin 8) (chan : Fin 8) (s : State) : Host.Outcome State Fault Refusal :=
  s.writeAt t who (A.LIN_SCHED_CMD chan) fun m => fld m (A.LIN_SCHED_CMD chan) 0 3 + 8

/-- `SGE_TBL_READ` (R547). -/
def execSgeTblRead (t : Nat) (who : Fin 8) (table : Fin 16) (staged ecc : Bool) (s : State) : Host.Outcome State Fault Refusal :=
  s.write t who A.SGE_TBL_CMD (tblWord table 0 staged) ecc

/-- `SGE_TBL_WRITE` (R547). -/
def execSgeTblWrite (t : Nat) (who : Fin 8) (table : Fin 16) (staged ecc : Bool) (s : State) : Host.Outcome State Fault Refusal :=
  s.write t who A.SGE_TBL_CMD (tblWord table 1 staged) ecc

/-- The word of `SGE_FRESH_CMD` that starts an operation on a counter. -/
def freshWord (fn op : Nat) : Word := BitVec.ofNat 32 (fn + op * 1024 + 2 ^ 31)

/-- `FRESH_READ` (R540). -/
def execFreshRead (t : Nat) (who : Fin 8) (fn : Fin 1024) (s : State) : Host.Outcome State Fault Refusal :=
  s.write t who A.SGE_FRESH_CMD (freshWord fn 0)

/-- `RAISE` (R540). -/
def execRaise (t : Nat) (who : Fin 8) (fn : Fin 1024) (s : State) : Host.Outcome State Fault Refusal :=
  s.write t who A.SGE_FRESH_CMD (freshWord fn 1)

/-- `RAISE_ALL` (R540). -/
def execRaiseAll (t : Nat) (who : Fin 8) (s : State) : Host.Outcome State Fault Refusal := s.write t who A.SGE_FRESH_CMD (freshWord 0 2)

/-- `SGE_RUN` (R546). -/
def execSgeRun (t : Nat) (who : Fin 8) (run : Bool) (s : State) : Host.Outcome State Fault Refusal :=
  s.write t who A.SGE_CTRL (BitVec.ofNat 32 (b2n run))

/-! ### HIF -/

/-- `DOORBELL` (R563). -/
def execDoorbell (t : Nat) (who : Fin 8) (ring : Fin 64) (index : BitVec 17) (s : State) : Host.Outcome State Fault Refusal :=
  s.write t who (A.HIF_DB ring) (BitVec.ofNat 32 index.toNat)

/-- `RING_STOP` (R601). -/
def execRingStop (t : Nat) (who : Fin 8) (ring : Fin 64) (s : State) : Host.Outcome State Fault Refusal := s.write t who (A.HIF_RING_CTRL ring) 1

/-- `RING_START` (R603). -/
def execRingStart (t : Nat) (who : Fin 8) (ring : Fin 64) (s : State) : Host.Outcome State Fault Refusal := s.write t who (A.HIF_RING_CTRL ring) 2

/-- `RING_WITHDRAW` (R603). -/
def execRingWithdraw (t : Nat) (who : Fin 8) (ring : Fin 64) (s : State) : Host.Outcome State Fault Refusal := s.write t who (A.HIF_RING_CTRL ring) 4

/-- `RING_CLEAR_ERR` (R603). -/
def execRingClearErr (t : Nat) (who : Fin 8) (ring : Fin 64) (s : State) : Host.Outcome State Fault Refusal := s.write t who (A.HIF_RING_CTRL ring) 8

/-- `RING_ENABLE` (R563): a write of `HIF_RING_CFG` with `en` 1. -/
def execRingEnable (t : Nat) (who : Fin 8) (ring : Fin 64) (data : Word) (s : State) : Host.Outcome State Fault Refusal :=
  s.write t who (A.HIF_RING_CFG ring) (data ||| 1)

/-- `RING_DISABLE` (R604): a write of `HIF_RING_CFG` with `en` 0. -/
def execRingDisable (t : Nat) (who : Fin 8) (ring : Fin 64) (data : Word) (s : State) : Host.Outcome State Fault Refusal :=
  s.write t who (A.HIF_RING_CFG ring) (data &&& 0xFFFFFFFE)

/-! ### LEDGER, BRG and SAFE -/

/-- `ANCHOR_MS_WRITE` (R646). -/
def execAnchorMsWrite (t : Nat) (who : Fin 8) (data : Word) (s : State) : Host.Outcome State Fault Refusal := s.write t who A.LEDGER_CFG data

/-- `EXPORT_ENABLE` (R654): a write of `LEDGER_EXPORT_CFG` with `en` 1. -/
def execExportEnable (t : Nat) (who : Fin 8) (data : Word) (s : State) : Host.Outcome State Fault Refusal :=
  s.write t who A.LEDGER_EXPORT_CFG (data ||| 0x40)

/-- `PWE_POP` (R619). -/
def execPwePop (t : Nat) (who : Fin 8) (s : State) : Host.Outcome State Fault Refusal := s.write t who A.BRG_PWE_POP 1

/-- `SAFE_EC_ACK` (R628, R631). -/
def execSafeEcAck (t : Nat) (who : Fin 8) (s : State) : Host.Outcome State Fault Refusal := s.write t who A.SAFE_EC_ACK 1

/-- `SAFE_EC_OVF_CLR` (R630). -/
def execSafeEcOvfClr (t : Nat) (who : Fin 8) (s : State) : Host.Outcome State Fault Refusal := s.write t who A.SAFE_EC_OVF_CLR 1

/-- `FAULT_SET` (R633). -/
def execFaultSet (t : Nat) (who : Fin 8) (s : State) : Host.Outcome State Fault Refusal := s.write t who A.SAFE_FAULT_CTRL 1

/-- `FAULT_RELEASE` (R634). -/
def execFaultRelease (t : Nat) (who : Fin 8) (s : State) : Host.Outcome State Fault Refusal := s.write t who A.SAFE_FAULT_CTRL 2

/-- `TRIAD_WINDOW_WRITE` (R776): a word of the load window. -/
def execTriadWindowWrite (t : Nat) (who : Fin 8) (word : Fin 32768) (data : Word) (s : State) : Host.Outcome State Fault Refusal :=
  s.write t who (A.TRIAD_LOAD_WINDOW word) data

/-- `TRIAD_GO` (R776, R777). -/
def execTriadGo (t : Nat) (who : Fin 8) (s : State) : Host.Outcome State Fault Refusal := s.write t who A.CFG_TRIAD_GO 1

/-- `TRIAD_WDT_KICK` (R717). -/
def execTriadWdtKick (t : Nat) (who : Fin 8) (data : Word) (s : State) : Host.Outcome State Fault Refusal := s.write t who A.TRIAD_WDT_KICK data

/-- `CWDT_KICK` (R719). -/
def execCwdtKick (t : Nat) (who : Fin 8) (s : State) : Host.Outcome State Fault Refusal := s.write t who A.TRIAD_CWDT_KICK 1

/-! ### DBG and PAIR -/

/-- `TOKEN_SUBMIT` (R734). -/
def execTokenSubmit (t : Nat) (who : Fin 8) (s : State) : Host.Outcome State Fault Refusal := s.write t who A.DBG_LC_CMD 2

/-- `LC_DEPLOY` (R731). -/
def execLcDeploy (t : Nat) (who : Fin 8) (s : State) : Host.Outcome State Fault Refusal := s.write t who A.DBG_LC_CMD 1

/-- `SESSION_CLOSE` (R722). -/
def execSessionClose (t : Nat) (who : Fin 8) (s : State) : Host.Outcome State Fault Refusal := s.write t who A.DBG_LC_CMD 4

/-- `PAIR_ACCEPT` (R765). -/
def execPairAccept (t : Nat) (who : Fin 8) (s : State) : Host.Outcome State Fault Refusal := s.write t who A.PAIR_CMD 2

/-- `PAIR_HANDOVER` (R766). -/
def execPairHandover (t : Nat) (who : Fin 8) (s : State) : Host.Outcome State Fault Refusal := s.write t who A.PAIR_CMD 1

/-- `CLEAR_ALERT` (R759). -/
def execClearAlert (t : Nat) (who : Fin 8) (s : State) : Host.Outcome State Fault Refusal := s.write t who A.PAIR_CMD 4

/-! ### CFG -/

/-- `CFG_COMMIT` (R780). -/
def execCfgCommit (t : Nat) (who : Fin 8) (s : State) : Host.Outcome State Fault Refusal := s.write t who A.CFG_CMD 1

/-- `CFG_LOAD` (R781): `ecc` tells that a read of the object meets a double-symbol error. -/
def execCfgLoad (t : Nat) (who : Fin 8) (ecc : Bool) (s : State) : Host.Outcome State Fault Refusal := s.write t who A.CFG_CMD 2 ecc

/-- `CFG_ACTIVATE` (R788). -/
def execCfgActivate (t : Nat) (who : Fin 8) (s : State) : Host.Outcome State Fault Refusal := s.write t who A.CFG_CMD 4

/-- `CFG_ROLLBACK` (R791). -/
def execCfgRollback (t : Nat) (who : Fin 8) (s : State) : Host.Outcome State Fault Refusal := s.write t who A.CFG_CMD 8

/-- `CFG_CANCEL` (R787). -/
def execCfgCancel (t : Nat) (who : Fin 8) (s : State) : Host.Outcome State Fault Refusal := s.write t who A.CFG_CMD 16

/-- `CFG_FLOOR` (R792): `nvmOk` tells that the NVM write succeeds. -/
def execCfgFloor (t : Nat) (who : Fin 8) (nvmOk : Bool) (s : State) : Host.Outcome State Fault Refusal := s.write t who A.CFG_CMD 32 (!nvmOk)

/-- `FW_RESTART` (R794): `ecc` as for `CFG_LOAD`. -/
def execFwRestart (t : Nat) (who : Fin 8) (ecc : Bool) (s : State) : Host.Outcome State Fault Refusal := s.write t who A.CFG_FW_CMD 1 ecc

/-- `FW_DONE` (R795). -/
def execFwDone (t : Nat) (who : Fin 8) (s : State) : Host.Outcome State Fault Refusal := s.write t who A.CFG_FW_CMD 2

/-- `BOOT_RECOVERY_GO` (R775). -/
def execBootRecoveryGo (t : Nat) (who : Fin 8) (ecc : Bool) (s : State) : Host.Outcome State Fault Refusal := s.write t who A.CFG_BOOT_CMD 1 ecc

/-! ### Exclusive accesses (R622-R625) -/

/-- Initiator of a hart: 0-3 the control cluster's, 4 the triad. -/
def hartOf (h : Nat) : Nat := 2 + h

/-- The answer to a hart. -/
def hartAnswer (m : Chip) (h : Nat) (v : Word) (ok : Bool) : Chip := say m (.hartResult h v ok)

/-- LR.W (R622): the word, and an armed monitor for it. -/
def loadReserved (m : Chip) (now h a : Nat) : Chip :=
  let who := hartOf h
  match get m now who a with
  | (m, some v) => hartAnswer (if brgRange a then monArm m now who a else m) h v true
  | (m, none) => m

/-- Whether an open write of a word to a register fails (R616). -/
def writeFails (m : Chip) (a : Nat) : Bool :=
  match reach m a with
  | .err _ => true
  | _ => false

/-- SC.W (R624): success writes the word, and only a hart with an armed monitor on it succeeds; the monitor goes either way. Whether one
to system SRAM succeeds, which BRG does not decide, is free. -/
def storeConditional (m : Chip) (now h a : Nat) (v : Word) : Chip :=
  let who := hartOf h
  if !sends m who then m
  else if brgRange a then
    if monHas m now who a then
      let bad := writeFails m a
      let m := busWrite (monDrop m who) now who a v true false
      if bad then m else hartAnswer m h 0 true
    else hartAnswer (bump (monDrop m who) A.sc_fail 1) h 1 false
  else
    let ok := freeVal m % 2 = 0
    hartAnswer (if ok then otherWrite (useFree m) who a v else useFree m) h (if ok then 0 else 1) ok

/-- AMO.W (R625): read, compute, write; a read error ends it with nothing written. -/
def amo (m : Chip) (now h op a : Nat) (v : Word) : Chip :=
  let who := hartOf h
  if !sends m who then m
  else
    match get (if brgRange a then monClear m a else m) now who a with
    | (m, none) => m
    | (m, some x) =>
      if brgRange a then
        let bad := writeFails m a
        let m := busWrite m now who a (amoResult op x v) true false
        if bad then m else hartAnswer m h x true
      else hartAnswer (otherWrite m who a (amoResult op x v)) h x true

/-- `LR_W` (R622): harts 0-3 of the control cluster, 4 the triad. -/
def execLrW (t : Nat) (hart : Fin 5) (addr : BitVec 32) (s : State) : Host.Outcome State Fault Refusal :=
  s.access t (hartOf hart) addr.toNat false false fun now m => loadReserved m now hart addr.toNat

/-- `SC_W` (R624). -/
def execScW (t : Nat) (hart : Fin 5) (addr : BitVec 32) (data : Word) (s : State) : Host.Outcome State Fault Refusal :=
  s.access t (hartOf hart) addr.toNat true false fun now m => storeConditional m now hart addr.toNat data

/-- `AMO_W` (R625): the operation as `amoResult` numbers it. -/
def execAmoW (t : Nat) (hart : Fin 5) (op : Fin 9) (addr : BitVec 32) (data : Word) (s : State) : Host.Outcome State Fault Refusal :=
  s.access t (hartOf hart) addr.toNat true false fun now m => amo m now hart op addr.toNat data

/-! ### The debug port (R721) -/

/-- `SYSTEM_BUS_ACCESS`: a read or a write of a word by initiator 7; a DMI access that the lifecycle does not permit ends with op
status 2. -/
def execSystemBusAccess (t : Nat) (write : Bool) (addr : BitVec 32) (data : Word) (s : State) : Host.Outcome State Fault Refusal :=
  s.access t 7 addr.toNat write false fun now m =>
    if !svcDebug m then dmiAnswer m 2
    else if write then put m now 7 addr.toNat data false false
    else look m now 7 addr.toNat

/-! ### Wakes: a port whose domain comes on takes its held writes (R70) -/

/-- `WAKE_IN_DETECT` (R685): the levels of the four pins at an RTC tick. -/
def execWakeInDetect (t : Nat) (levels : Fin 16) (s : State) : Host.Outcome State Fault Refusal :=
  s.run t fun now m => if m.pwr.mode == .off then m else applyHeld (wakePins m now levels) now

/-- `RTC_ALARM` (R686). -/
def execRtcAlarm (t : Nat) (s : State) : Host.Outcome State Fault Refusal :=
  s.run t fun now m => applyHeld (rtcAlarm m now) now

/-- `TC10_WAKE_DETECT` (R684). -/
def execTc10WakeDetect (t : Nat) (edge : Fin 8) (s : State) : Host.Outcome State Fault Refusal :=
  s.run t fun now m =>
    applyHeld (if flag m (A.MAC_PT1_CFG (8 + edge)) 2 && !coreOn m then wakeDetect m now 3 edge else m) now

/-- `RESTORE_DONE` (R692): `ecc` tells whether the triad image cannot be read, and the edge ports whose stored set fails its ECC
check (R47). -/
def execRestoreDone (t : Nat) (ecc : Bool × Fin 256) (s : State) : Host.Outcome State Fault Refusal :=
  s.run t fun now m => applyHeld (if m.pwr.mode == .waking && !m.pwr.deep && m.pwr.fclk then restore m now ecc.1 ecc.2 else m) now

end Sys2Proof.Machine
end

