-- ==== Sys2Proof/Machine/BrgCmds.lean ====
section
/-! DEFINITION. Meanings of the commands of Brg.lean. -/

namespace Sys2Proof.Machine

/-- `POSTED_WRITE_ERROR` (R618): the write's initiator, address and data, and the failure code. -/
def execPostedWriteError (t : Nat) (who : Fin 8) (addr : Nat) (data : Word) (code : Fin 5) (s : State) :
    Host.Outcome State Fault Refusal :=
  s.core t fun now m => if code.val = 0 then m else brgFail m now who (addr % 2 ^ 32) data code true

/-- `TARGET_TIMEOUT` (R615): an access, accepted at LT `since`, that has had no response. -/
def execTargetTimeout (t : Nat) (who : Fin 8) (addr : Nat) (data : Word) (write : Bool) (since : Nat) (s : State) :
    Host.Outcome State Fault Refusal :=
  s.core t fun now m =>
    if since + fld m A.BRG_CFG 0 16 * cyc ≤ now then brgFail m now who (addr % 2 ^ 32) data 4 write else m

/-- `EXCLUSIVE_64_ACCESS` (R626): an LR.D, SC.D or 64-bit AMO of a hart to the register range. -/
def execExclusive64Access (t : Nat) (hart : Fin 5) (addr : Nat) (s : State) : Host.Outcome State Fault Refusal :=
  s.core t fun _ m => if brgRange addr && sends m (2 + hart) then say (bump m A.err_decode 1) (.busError (2 + hart) addr 1) else m

/-- `MONITOR_TIMEOUT` (R623). -/
def execMonitorTimeout (t : Nat) (hart : Fin 5) (s : State) : Host.Outcome State Fault Refusal :=
  s.core t fun now m =>
    updBrg m fun b => { b with
      monitors := b.monitors.filter fun x => x.hart != 2 + hart || monLive m now x }

/-- `SAFE_ERROR_REPORT` (R627): source, code, severity and information of a report. -/
def execSafeErrorReport (t : Nat) (src code : Fin 65536) (sev : Fin 4) (info : Nat) (s : State) :
    Host.Outcome State Fault Refusal :=
  s.core t fun now m => if sev.val = 0 then m else report m now src code sev info

end Sys2Proof.Machine
end

