-- ==== Sys2Proof/Machine/CanLinCmds.lean ====
section
/-! DEFINITION. Meanings of the commands of CanLin.lean. -/

namespace Sys2Proof.Machine

/-- Run a command of a CAN channel: waiting cancels come first. -/
def State.can (s : State) (t : Nat) (f : Nat → Chip → Chip) : Host.Outcome State Fault Refusal :=
  s.run t fun now m => if canOn m then f now (canSettle m now) else m

/-- `CAN_TX_ENQUEUE` (R457): a ring, what the reads of a host's memory return, and whether they succeed. -/
def execCanTxEnqueue (t : Nat) (ring : Fin 64) (desc data : List Byte) (readOk : Bool) (s : State) : Host.Outcome State Fault Refusal :=
  s.can t fun now m => canEnqueue m now ring desc data readOk

/-- `CAN_FRAME_START` (R460). -/
def execCanFrameStart (t : Nat) (chan : Fin 16) (sof : Nat) (ecc : Bool) (s : State) : Host.Outcome State Fault Refusal :=
  s.can t fun now m => canBegin m now chan sof ecc

/-- `CAN_ARBITRATION_LOST` (R461). -/
def execCanArbitrationLost (t : Nat) (chan : Fin 16) (s : State) : Host.Outcome State Fault Refusal :=
  s.can t fun now m =>
    if (canOf m chan).begun.isSome then canSettlePark (msgBack (bump m (A.arb_lost chan) 1) now chan) now chan else m

/-- `CAN_FRAME_ERROR` (R478): what ISO 11898-1 adds to TEC and to REC. -/
def execCanFrameError (t : Nat) (chan : Fin 16) (dTec dRec : Nat) (s : State) : Host.Outcome State Fault Refusal :=
  s.can t fun now m =>
    let x := canOf m chan
    if canEn m chan && x.ready && x.st < 2 then
      canSettlePark (canCounters (msgBack m now chan) now chan (x.tec + dTec) (x.rec_ + dRec)) now chan
    else m

/-- `CAN_TX_COMPLETE` (R468). -/
def execCanTxComplete (t : Nat) (chan : Fin 16) (eof : Nat) (s : State) : Host.Outcome State Fault Refusal :=
  s.can t fun now m => canSettlePark (canSent m now chan eof) now chan

/-- `CAN_FRAME_RECEIVED` (R471): the frame with its stamps. -/
def execCanFrameReceived (t : Nat) (chan : Fin 16) (ident : BitVec 29) (ide rtr : Bool) (fmt : Fin 3) (brs esi : Bool)
    (sdt vcid : BitVec 8) (af : BitVec 32) (data : List Byte) (sof eof : Nat) (s : State) : Host.Outcome State Fault Refusal :=
  s.can t fun now m => canReceive m now chan
    { ident := ident.toNat, ide := ide, rtr := rtr, fmt := fmt, brs := brs, esi := esi, sdt := sdt.toNat, vcid := vcid.toNat,
      af := if fmt.val = 2 then af.toNat else 0, data := data, sof := sof, eof := eof }

/-- `CAN_RX_RING_DELIVER` (R474): channel 0-23, the ring, the descriptor at its head, and an error in the element. -/
def execCanRxRingDeliver (t : Nat) (chan : Fin 24) (ring : Fin 64) (desc : List Byte) (ecc : Bool) (s : State) :
    Host.Outcome State Fault Refusal :=
  s.can t fun now m => canDeliver m now chan ring desc ecc

/-- A read of a word of a receive buffer in the window (R475); with a double-symbol error in the element its word is not stated (R456). -/
def windowRead (m : Chip) (now who c b k : Nat) (ecc : Bool) : Chip :=
  let a := elemAddr m c b k
  if rxBufs m c ≤ b then m
  else if !ecc then look m now who a
  else
    match get m now who a with
    | (m, some _) => bufEcc (useFree (say m (.read who a (BitVec.ofNat 32 (freeVal m))))) c b
    | (m, none) => m

/-- `CAN_WINDOW_LOCK_READ` (R475): a read of word 0 of a receive buffer. -/
def execCanWindowLockRead (t : Nat) (who : Fin 8) (chan : Fin 16) (buf : Nat) (ecc : Bool) (s : State) :
    Host.Outcome State Fault Refusal :=
  s.access t who (elemAddr s.chip chan buf 0) false false fun now m => windowRead m now who chan buf 0 ecc

/-- `CAN_WINDOW_RELEASE_READ` (R475): a read of the last word of a receive buffer. -/
def execCanWindowReleaseRead (t : Nat) (who : Fin 8) (chan : Fin 16) (buf : Nat) (ecc : Bool) (s : State) :
    Host.Outcome State Fault Refusal :=
  s.access t who (elemAddr s.chip chan buf 0) false false fun now m => windowRead m now who chan buf (lastWord (bufOf m chan buf)) ecc

/-- `RX_LOCK_BROKEN` (R476). -/
def execRxLockBroken (t : Nat) (chan : Fin 16) (buf : Nat) (s : State) : Host.Outcome State Fault Refusal :=
  s.can t fun now m =>
    let b := bufOf m chan buf
    match b.lock with
    | some l =>
      if l + fld m (A.CAN_RX_LOCK chan) 0 16 * us < now then
        let m := updBuf m chan buf fun x => { x with lock := none, broken := true, host := false }
        let m := emit m 0x0702 (srcId 7 chan) now [(2, buf), (1, b.gen), (1, 0), (8, b.eof)]
        canEvt (bump m (A.rx_lock_broken chan) 1) chan 3
      else m
    | none => m

/-- `RECOVERY_COMPLETE` (R478). -/
def execRecoveryComplete (t : Nat) (chan : Fin 16) (s : State) : Host.Outcome State Fault Refusal :=
  s.can t fun now m =>
    if canEn m chan && (canOf m chan).st = 3 then canEnter (updCan m chan fun x => { x with tec := 0, rec_ := 0 }) now chan 0
    else m

/-- `STUCK_DOMINANT` (R483). -/
def execStuckDominant (t : Nat) (chan : Fin 16) (s : State) : Host.Outcome State Fault Refusal :=
  s.can t fun now m => if canEn m chan then canEvt (canStateRec m now chan 4) chan 4 else m

/-- `CAN_CHANNEL_READY` (R691). -/
def execCanChannelReady (t : Nat) (chan : Fin 16) (s : State) : Host.Outcome State Fault Refusal :=
  s.can t fun _ m => if canEn m chan then updCan m chan fun x => { x with ready := true } else m

/-- `LIN_SLOT_START` (R489). -/
def execLinSlotStart (t : Nat) (chan : Fin 8) (s : State) : Host.Outcome State Fault Refusal :=
  s.core t fun now m => linSlot m now chan

/-- `LIN_HEADER_RECEIVED` (R490): the identifier; an error, 5 PID parity or 6 sync; and the LT of the falling edge of the break. -/
def execLinHeaderReceived (t : Nat) (chan : Fin 8) (ident : Fin 64) (err : Nat × Nat) (s : State) : Host.Outcome State Fault Refusal :=
  s.core t fun now m =>
    if !linEn m chan || (flag m (A.LIN_CH_CFG chan) 1 && !chanGuarded m (16 + chan.val)) || flag m (A.LIN_STATUS chan) 0
        || m.pwr.mode ≠ .run then m
    else if err.1 = 5 || err.1 = 6 then linErr (updLin m chan fun x => { x with lastAct := now, cur := none }) now chan err.1 ident
    else linHeader m now (onCycle now err.2) chan ident

/-- `LIN_FRAME_RECEIVED` (R491, R493): data and checksum, error (1 bit, 4 framing), EOF stamp. -/
def execLinFrameReceived (t : Nat) (chan : Fin 8) (data : List Byte × BitVec 8) (err : Nat) (eof : Nat) (s : State) :
    Host.Outcome State Fault Refusal :=
  s.core t fun now m =>
    if linEn m chan && [0, 1, 4].contains err then linSettlePark (linEnd m now chan (linFault m chan err data.2.toNat data.1) data.1 eof) now chan else m

/-- `LIN_NO_RESPONSE` (R493). -/
def execLinNoResponse (t : Nat) (chan : Fin 8) (s : State) : Host.Outcome State Fault Refusal :=
  s.core t fun now m =>
    match (linOf m chan).cur with
    | some (i, sof, pub) =>
      if linEn m chan && !pub && linDir m chan i = 2 && sof + linLimit m chan i ≤ now then
        linSettlePark (linErr (updLin m chan fun x => { x with cur := none }) now chan 3 i) now chan
      else m
    | none => m

/-- `LIN_IDLE_SLEEP` (R494). -/
def execLinIdleSleep (t : Nat) (chan : Fin 8) (s : State) : Host.Outcome State Fault Refusal :=
  s.core t fun now m =>
    if linEn m chan && !flag m (A.LIN_CH_CFG chan) 1 && !flag m (A.LIN_STATUS chan) 0 && (linOf m chan).lastAct + 4 * sec ≤ now then
      linSleep m now chan
    else m

/-- `LIN_WAKE_RECEIVED` (R495): a dominant pulse of so many µs. -/
def execLinWakeReceived (t : Nat) (chan : Fin 8) (pulse : Nat) (s : State) : Host.Outcome State Fault Refusal :=
  s.core t fun now m =>
    if linEn m chan && flag m (A.LIN_STATUS chan) 0 && 150 ≤ pulse then
      let m := setF (linEvt m chan 2) (A.LIN_STATUS chan) 0 1 0
      let m := updLin m chan fun x => { x with lastAct := now, resumeAt := if flag m (A.LIN_CH_CFG chan) 1 then some (now + 100 * ms) else none }
      linSleepRec m now chan 2
    else m

/-- `LIN_SCHEDULE_RESUME` (R495). -/
def execLinScheduleResume (t : Nat) (chan : Fin 8) (s : State) : Host.Outcome State Fault Refusal :=
  s.core t fun now m =>
    match (linOf m chan).resumeAt with
    | some e =>
      if linEn m chan && e ≤ now then
        updLin m chan fun x => { x with resumeAt := none, running := flag m (A.LIN_SCHED_CMD chan) 2, nextAt := now }
      else m
    | none => m

end Sys2Proof.Machine
end

