-- ==== Sys2Proof/Machine/CfgCmds.lean ====
section
/-! DEFINITION. Meanings of the commands of Cfg.lean. -/

namespace Sys2Proof.Machine

/-- `ACTIVATION_EFFECT` (R789): also the instant of R788 while the base cycle is off. -/
def execActivationEffect (t : Nat) (s : State) : Host.Outcome State Fault Refusal := s.core t fun now m => settleAct m now

end Sys2Proof.Machine
end

