-- ==== Sys2Proof/Machine/DecideCmds.lean ====
section
/-! DEFINITION. Meanings of the commands of Decide.lean. -/

namespace Sys2Proof.Machine

/-- The mPackets of a received frame: frame number and fragment count of each, with whether its CRC is right. -/
def mPackets (frags : List (Fin 4 × Fin 4)) (crcOk : List Bool) : List (Fin 4 × Fin 4 × Bool) :=
  frags.zipIdx.map fun p => (p.1.1, p.1.2, crcOk.getD p.2 true)

/-- `FRAME_RECEIVE` (R60): the first byte of a frame, with all the bytes that follow it before its FCS; `frags` and `crcOk` are its mPackets
(R331); `queueFull` tells that the
port's 64-frame Teller input queue is full (R352), `errs` counts the coding errors inside the frame. -/
def execFrameReceive (t : Nat) (port : Fin 20) (bytes : List Byte) (fcsOk : Bool) (frags : List (Fin 4 × Fin 4)) (crcOk : List Bool)
    (queueFull : Bool) (errs : Nat) (s : State) : Host.Outcome State Fault Refusal :=
  s.core t fun now m =>
    match loopMode m port with
    | 0 => receive m now (max now t) port bytes fcsOk (mPackets frags crcOk) queueFull errs
    | 3 => if portEn m port then say m (.frame port bytes (!fcsOk) (max now t)) else m
    | _ => m

/-- `LANE_DECISION` (R77): `s0` is the LT at which the head entered stage 0; `ecc` the tables and indices whose words showed a
single-symbol error (R179), and one whose word showed a double-symbol error (R180); `ctEcc` a way of the connection-tracking bucket that
did (R210), `fault` a hash disagreement. -/
def execLaneDecision (t : Nat) (lane : Fin 4) (s0 : Nat) (ecc : List (Nat × Nat) × Option (Nat × Nat)) (ctEcc : Option (Fin 4))
    (fault : Bool) (s : State) : Host.Outcome State Fault Refusal :=
  s.core t fun now m => laneDecision m now lane s0 ecc.1 ecc.2 (ctEcc.map (·.val)) fault

/-- `TAIL_VERIFIED` (R79). -/
def execTailVerified (t fid : Nat) (s : State) : Host.Outcome State Fault Refusal :=
  s.core t fun now m =>
    match frameOf m fid with
    | none => m
    | some f => if f.ended || !f.tailIn now then m else tailVerified m now f

/-- `CT_OVERLEN` (R85). -/
def execCtOverlen (t fid : Nat) (port : Fin 20) (s : State) : Host.Outcome State Fault Refusal :=
  s.core t fun now m =>
    match openCut m fid port with
    | none => m
    | some (f, c) =>
      if copySent m c now < c.len || f.tailIn now then m
      else cutEnd (laneEvt (bump m A.PRS_CNT_CT_OVERLEN 1) 10) now f c 5 (arrived m f now)

/-- `CT_UNDERRUN` (R87): `got` bytes of the frame have been written into the buffer. -/
def execCtUnderrun (t fid : Nat) (port : Fin 20) (got : Nat) (s : State) : Host.Outcome State Fault Refusal :=
  s.core t fun now m =>
    match openCut m fid port with
    | none => m
    | some (f, c) =>
      if frameByte f c (copySent m c now) < got || f.verified then m
      else cutEnd (laneEvt (bump m A.PRS_CNT_CT_UNDERRUN 1) 9) now f c 4 got

end Sys2Proof.Machine
end

