-- ==== Sys2Proof/Machine/FirewallCmds.lean ====
section
/-! DEFINITION. Meanings of the commands of Firewall.lean. -/

namespace Sys2Proof.Machine

/-- `CT_AGER_VISIT` (R209). -/
def execCtAgerVisit (t : Nat) (index : Fin 65536) (s : State) : Host.Outcome State Fault Refusal :=
  s.core t fun now m =>
    match sget m.prs.ct index.val with
    | some e => if ctLive m e now then m else ctExpire m index
    | none => m

end Sys2Proof.Machine
end

