-- ==== Sys2Proof/Machine/GrantCmds.lean ====
section
/-! DEFINITION. Meanings of the commands of Grant.lean. -/

namespace Sys2Proof.Machine

/-- `SCHEDULER_GRANT` (R266): one decision of a port; `start` is the LT of a granted copy's first preamble byte, `corr` how many
single-symbol errors the read of its frame corrected, `ecc` the cell and codeword that showed a double-symbol error, `descs` the
descriptors read from a host's frame RX ring. -/
def execSchedulerGrant (t : Nat) (port : Fin 24) (start corr : Nat) (ecc : Option (Fin 65536 × Fin 8)) (descs : List (List Byte)) (s : State) :
    Host.Outcome State Fault Refusal :=
  s.core t fun now m => decision (eccCorrected m corr) now port start (ecc.map fun x => (x.1.val, x.2.val)) descs

/-- `BUFFER_SCRUB` (R225): what the read of the next cell found, in which code word and symbol, with whether the cell is
written before the write-back; and the frame that owns the cell. -/
def execBufferScrub (t : Nat) (found : Fin 3) (sym : Fin 8 × Fin 36 × Bool) (owner : Option Nat) (s : State) :
    Host.Outcome State Fault Refusal :=
  s.core t fun now m => scrubCell m now found sym.1 sym.2.1 sym.2.2 owner

end Sys2Proof.Machine
end

