-- ==== Sys2Proof/Machine/HifCmds.lean ====
section
/-! DEFINITION. Meanings of the commands of Hif.lean. -/

namespace Sys2Proof.Machine

/-- `TRANSFER_START` (R598): `reads` is what the reads of host memory return; `wrote` names rings whose oldest copy transfer has
issued its last write by now. -/
def execTransferStart (t : Nat) (reads : List (List Byte × List Byte)) (wrote : List (Fin 64)) (s : State) :
    Host.Outcome State Fault Refusal :=
  s.core t fun now m => transferStart (wrote.foldl (fun m (r : Fin 64) => copyWrite m r) m) now reads

/-- `FRAME_TX_HANDOVER` (R583). -/
def execFrameTxHandover (t : Nat) (ring : Fin 64) (s : State) : Host.Outcome State Fault Refusal :=
  s.core t fun now m => if ringType m ring = 0 then txHandover m now ring else m

/-- `GATHER_TMO` (R582). -/
def execGatherTmo (t : Nat) (ring : Fin 64) (s : State) : Host.Outcome State Fault Refusal :=
  s.core t fun now m =>
    match (ringOf m ring).gather with
    | some d => if d ≤ now then gatherDiscard m now ring else m
    | none => m

/-- `FRAME_RX_COMPLETE` (R588). -/
def execFrameRxComplete (t : Nat) (ring : Fin 64) (s : State) : Host.Outcome State Fault Refusal :=
  s.core t fun now m => if ringType m ring = 1 then rxComplete m now ring else m

/-- `MEMORY_COPY_COMPLETE` (R591). -/
def execMemoryCopyComplete (t : Nat) (ring : Fin 64) (s : State) : Host.Outcome State Fault Refusal :=
  s.core t fun now m =>
    if ringType m ring ≠ 7 then m
    else
      match openWork m ring (fun _ => true) with
      | none => m
      | some w =>
        if w.pos < (copyDesc w.desc).total then m
        else endWork (copyDrain ring w.xfers.length m) now ring 0 (fun x => x.idx == w.idx && x.ended.isNone)

/-- `COAL_TIMEOUT` (R572). -/
def execCoalTimeout (t : Nat) (ring : Fin 64) (s : State) : Host.Outcome State Fault Refusal :=
  s.core t fun now m =>
    let x := ringOf m ring
    let c := fld m (A.HIF_RING_COAL ring) 0 16
    if ringType m ring = 5 && c ≠ 0 && x.unsig ≠ 0 && x.first + c * us ≤ now then cplRaise m ring else m

/-- `RING_STOPPED` (R602). -/
def execRingStopped (t : Nat) (ring : Fin 64) (s : State) : Host.Outcome State Fault Refusal :=
  s.core t fun _ m =>
    if (ringOf m ring).stopping && !ringBusy m ring then
      let m := updRing m ring fun x => { x with stopping := false, stopped := true }
      if (ringOf m ring).err ≠ 0 then setIrq m .hif 0 else m
    else m

/-- `PCIE_LINK_UP` (R589): the link, its speed 1-4 and its lanes. -/
def execPcieLinkUp (t : Nat) (link : Fin 2) (speed width : Fin 5) (s : State) : Host.Outcome State Fault Refusal :=
  s.core t fun now m =>
    if speed.val = 0 || width.val = 0 || (link.val = 1 && !flag m A.HIF_LINK_STATUS 0) || !domOn m 12 then m
    else
      let m := setF (orR m A.HIF_LINK_STATUS (2 ^ (1 + link.val))) A.HIF_LINK_STATUS (4 + 8 * link.val) 3 speed
      hostPorts (setF m A.HIF_LINK_STATUS (8 + 8 * link.val) 3 width) now

/-- `BUS_MASTER_ENABLE` (R589). -/
def execBusMasterEnable (t : Nat) (fn : Fin 2) (s : State) : Host.Outcome State Fault Refusal :=
  s.core t fun now m =>
    if fnUp m fn then hostPorts (updDma m fun d => { d with bme := lset d.bme fn fun _ => true }) now else m

/-- `BAR2_WRITE` (R557, R559): a function's write of bytes from an offset of BAR2. -/
def execBar2Write (t : Nat) (fn : Fin 2) (off : Nat) (bytes : List Byte) (s : State) : Host.Outcome State Fault Refusal :=
  s.core t fun _ m =>
    if !fnUp m fn then m
    else if off + bytes.length ≤ sramSize && flag m A.HIF_BAR2_CFG fn then memStore m 2 (sramBase + off) bytes
    else capture m .hif off 8

/-- `BAR0_PARTIAL_WRITE` (R556). -/
def execBar0PartialWrite (t : Nat) (fn : Fin 2) (off : Nat) (s : State) : Host.Outcome State Fault Refusal :=
  s.core t fun _ m => if fnUp m fn then capture m .hif off 7 else m

end Sys2Proof.Machine
end

