-- ==== Sys2Proof/Machine/Image.lean ====
section
/-! DEFINITION. The records of a configuration image (R782, R783), the end of a load (R784, R787), and the gate control lists that an
activation applies (R790). -/

namespace Sys2Proof.Machine

/-! ### Records (R783) -/

/-- A register with a field that software may write. -/
def softReg (a : Nat) : Bool :=
  a % 4 == 0 && match regRow a with
    | some (_, r, _) => (r.kind == .stored) && (r.rw != 0 || r.rwl != 0)
    | none => false

/-- The pairs of a REG record: address and value. -/
def regPairs (body : List Byte) : List (Nat × Nat) :=
  (List.range (body.length / 8)).map fun i => (leNat (slice body (8 * i) 4), leNat (slice body (8 * i + 4) 4))

def regOk (body : List Byte) : Bool := body.length % 8 == 0 && (regPairs body).all fun p => softReg p.1

/-- A pair for the bank that is not active: its RWL fields go to that bank, its RW fields exist once and are written at once. -/
def bankPair (m : Chip) (now a v : Nat) : Chip :=
  match regRow a with
  | none => m
  | some (b, r, _) =>
    let run := rdN m a
    let old := clearMask run r.rwl + savedRwl m a
    let new := fieldsWritten false r old v
    match rangeCause false r old v with
    | some c => refuse m b a c
    | none =>
      match blockCheck (wholeBank m) now 8 b a old new v with
      | 0 =>
        let m := saveRwl m a new
        if r.rw = 0 then m else writeReg m now 8 a (clearMask v r.rwl + Nat.land run r.rwl) false
      | c => refuse m b a c

/-- A pair for the open bank A: a register write, which a port whose PHY domain is off holds (R70). -/
def openPair (m : Chip) (now a v : Nat) : Chip :=
  match reach m a with
  | .held n => updPort m n fun p => { p with held := p.held ++ [(8, a, BitVec.ofNat 32 v)] }
  | _ => writeReg m now 8 a v false

/-- The fields of a TBL record. -/
structure TblRec where
  block : Nat
  table : Nat
  first : Nat
  count : Nat
  size : Nat
deriving DecidableEq, Repr

def tblRec (body : List Byte) : TblRec :=
  ⟨byteAt body 0, byteAt body 1, leNat (slice body 4 4), leNat (slice body 8 4), leNat (slice body 12 4)⟩

/-- Entry `i` of a TBL record. -/
def tblEnt (body : List Byte) (r : TblRec) (i : Nat) : Nat := leNat (slice body (16 + i * r.size) r.size)

/-- A TBL record is well formed, and each of its entries is acceptable (R178, R508). -/
def tblOk (m : Chip) (bank : Nat) (body : List Byte) : Bool :=
  let r := tblRec body
  leNat (slice body 2 2) == 0 && 16 ≤ body.length &&
  (if r.block = 1 then decide (r.table < 9) && r.size * 8 == tblBits r.table && r.first + r.count ≤ tblCount r.table
   else r.block == 2 && decide (r.table < 8) && r.table != 2 && r.table != 6 && r.size == sgeBytes r.table
    && r.first + r.count ≤ sgeCount r.table) &&
  body.length == 16 + r.count * r.size &&
  (List.range r.count).all fun i => if r.block = 1 then entryOk r.table (tblEnt body r i) else sgeEntOk m bank r.table (tblEnt body r i)

/-- Write the entries of a TBL record to a bank. -/
def tblApply (m : Chip) (now bank : Nat) (body : List Byte) : Chip :=
  let r := tblRec body
  (List.range r.count).foldl (fun m i =>
    if r.block = 1 then writeEntry m now bank r.table (r.first + i) (tblEnt body r i)
    else sgeWrite m now bank r.table (r.first + i) (tblEnt body r i)) m

/-- The `len` word of a GCL record, and whether the record is well formed. -/
def gclLen (body : List Byte) : Nat := leNat (slice body 20 4)
def gclOk (body : List Byte) : Bool :=
  byteAt body 0 < 20 && byteAt body 1 < 2 && leNat (slice body 2 2) == 0 && gclLen body ≤ 1024
    && body.length == 28 + 8 * gclLen body

/-- Whether a record's body is well formed for its kind. -/
def recOk (m : Chip) (bank kind : Nat) (body : List Byte) : Bool :=
  match kind with
  | 1 => regOk body
  | 2 => tblOk m bank body
  | 3 => gclOk body
  | _ => false

/-- Apply a well-formed record to a bank. -/
def recApply (m : Chip) (now bank kind : Nat) (body : List Byte) : Chip :=
  match kind with
  | 1 =>
    (regPairs body).foldl (fun m p => if bank = m.cfg.active then openPair m now p.1 p.2 else bankPair m now p.1 p.2) m
  | 2 => tblApply m now bank body
  | _ => updCfg m fun c => { c with gcl := lset c.gcl bank fun l => l ++ [body] }

/-- Apply the records of a payload in order up to END; `false` where one is malformed or END is missing. -/
def imageApply (now bank : Nat) : Nat → List Byte → Chip → Chip × Bool
  | 0, _, m => (m, false)
  | k + 1, l, m =>
    let kind := leNat (slice l 0 2)
    let len := leNat (slice l 4 4)
    let body := slice l 8 len
    if l.length < 8 + len || leNat (slice l 2 2) ≠ 0 then (m, false)
    else if kind = 0xFF then (m, len == 0 && l.length == 8)
    else if recOk m bank kind body then imageApply now bank k (l.drop (8 + cdiv len 8 * 8)) (recApply m now bank kind body)
    else (m, false)

/-! ### The end of a load (R781, R784, R787) -/

/-- A load into the bank that is not active has passed its checks. -/
def bankLoaded (m : Chip) (now : Nat) (l : CfgLoad) : Chip :=
  let (ver, meas) := (hdrVersion l.hdr, sha3 l.hdr)
  let m := updCfg (setBank m l.bank .loaded) fun c => { c with
    load := none, ver := lset c.ver l.bank fun _ => ver, meas := lset c.meas l.bank fun _ => meas }
  cfgCode (loadRec (extendBmr m 2 meas) now l.bank 1 0 0 ver meas) 0

/-- Apply the records of the load in progress, check the bank and commit it. -/
def loadComplete (m : Chip) (now : Nat) : Chip :=
  match m.cfg.load with
  | none => m
  | some l =>
    let opened := bankOf m l.bank = .opened
    match imageApply now l.bank (l.body.length / 8 + 1) l.body m with
    | (m, false) => loadFail m now 0x12 0 l
    | (m, true) =>
      let k := failedCheck (if opened then m else wholeBank m)
      if k ≠ 0 then loadFail m now 0x84 k l
      else
        let m := if opened then cfgCode (commitOpen m now (hdrVersion l.hdr) (sha3 l.hdr)) 0 else bankLoaded m now l
        setIrq (bump m A.loads 1) .cfg 0

/-! ### Gate control lists (R790) -/

/-- Apply one GCL record: cancel a pending change, write the admin registers and list, and request the change where it asks. -/
def gclRecord (now : Nat) (m : Chip) (body : List Byte) : Chip :=
  let n := byteAt body 0
  let put := fun (m : Chip) (a v : Nat) => writeReg m now 8 a v false
  let pctl := fun (m : Chip) (v : Nat) => put m (A.GATE_PCTL n) (fld m (A.GATE_PCTL n) 0 1 + v)
  let m := if (gateOf m n).pending.isSome then pctl m 4 else m
  let m := (List.range 6).foldl (fun m i => put m (A.GATE_ADMIN_BASE_NS n + 4 * i) (leNat (slice body (4 + 4 * i) 4))) m
  let m := (List.range (gclLen body)).foldl (fun m e =>
    put (put m (A.GATE_ADMIN_LIST n e 0) (leNat (slice body (28 + 8 * e) 4))) (A.GATE_ADMIN_LIST n e 1) (leNat (slice body (32 + 8 * e) 4))) m
  if bit (byteAt body 1) 0 then pctl m 2 else m

/-- Apply the GCL records of the bank that became active. -/
def gclApply (m : Chip) (now : Nat) : Chip :=
  if !m.cfg.gclDue || now ≤ m.cfg.actLt then m
  else (m.cfg.gcl.getD m.cfg.active []).foldl (gclRecord now) (updCfg m fun c => { c with gclDue := false })

/-! ### Commands -/

/-- `CFG_LOAD_COMPLETE` (R784): the records have been read, and the bank is judged. -/
def execCfgLoadComplete (t : Nat) (s : State) : Host.Outcome State Fault Refusal := s.core t fun now m => loadComplete m now

/-- `GCL_APPLY` (R790): in a cycle after that of the activation. -/
def execGclApply (t : Nat) (s : State) : Host.Outcome State Fault Refusal := s.core t fun now m => gclApply m now

end Sys2Proof.Machine
end

