-- ==== Sys2Proof/Machine/LanesCmds.lean ====
section
/-! DEFINITION. Meanings of the commands of Lanes.lean. -/

namespace Sys2Proof.Machine

/-- `HEAD_READY` (R82): of a port with MACsec receive only a verified frame reaches the parser (R123, R396). -/
def execHeadReady (t fid : Nat) (s : State) : Host.Outcome State Fault Refusal :=
  s.core t fun now m =>
    match frameOf m fid with
    | some f => if f.phase == .arriving && !f.dead && !(f.secured && (f.tooLong || !f.fcsOk)) then headReady m now f else m
    | none => m

/-- `LANE_SELECTION` (R94). -/
def execLaneSelection (t fid : Nat) (s : State) : Host.Outcome State Fault Refusal :=
  s.core t fun now m =>
    match frameOf m fid with
    | some f => if f.phase == .headReady then laneSelect m now f else m
    | none => m

/-- `LANE_SLOW` (R99, R108): `throttled` tells that the lane's table island is throttled, `retries` the repeated lookups of heads whose
decisions are still to come. -/
def execLaneSlow (t : Nat) (lane : Fin 4) (throttled : Bool) (retries : Nat) (s : State) : Host.Outcome State Fault Refusal :=
  s.core t fun now m =>
    let l := lane.val
    match (laneOf m l).above with
    | none => m
    | some a =>
      if (laneOf m l).slow || m.late.any (·.2 == .lane l true) || now < a + 7999 * cyc then m
      else
        let done := (((laneOf m l).retries.filter fun x => now < x.1 + 20 * us).map (·.2)).sum
        let m := updLane m l fun s => { s with moved := 0, pinned0 := cnt m (A.pinned_frames l) }
        laneEvt (emit (nextCycle m now (.lane l true)) 0x0201 (srcId 2 l) now [(1, laneOcc m l), (1, b2n throttled), (2, sat 16 (done + retries))]) l

/-- `LANE_CLEAR` (R100, R108). -/
def execLaneClear (t : Nat) (lane : Fin 4) (s : State) : Host.Outcome State Fault Refusal :=
  s.core t fun now m =>
    let l := lane.val
    match (laneOf m l).below with
    | none => m
    | some b =>
      if !(laneOf m l).slow || m.late.any (·.2 == .lane l false) || now < b + 39999 * cyc then m
      else
        let stuck := (m.prs.buckets.filter fun x => x.2.lane == l && x.2.seen).length
        let m := emit m 0x0202 (srcId 2 l) now
          [(2, sat 16 (laneOf m l).moved), (2, stuck), (8, cnt m (A.pinned_frames l) - (laneOf m l).pinned0)]
        let m := updPrs (nextCycle m now (.lane l false)) fun p =>
          { p with buckets := p.buckets.map fun x => if x.2.lane == l then (x.1, { x.2 with seen := false }) else x }
        laneEvt m (4 + l)

/-- `LAG_TABLE_REBUILD` (R111, R112). -/
def execLagTableRebuild (t : Nat) (group : Fin 8) (s : State) : Host.Outcome State Fault Refusal :=
  s.core t fun _ m =>
    let g := group.val
    let new := distributing m g
    if m.prs.lag.getD g [] = new then m
    else laneEvt (updPrs m fun p => { p with lag := lset p.lag g fun _ => new }) 12

end Sys2Proof.Machine
end

