-- ==== Sys2Proof/Machine/Late.lean ====
section
/-! DEFINITION. Failures of DMA and of its links: DMA_ERROR (R595, R599, R600, R661), a cleared Bus Master Enable or a link down (R605),
and Function Level Reset (R606). -/

namespace Sys2Proof.Machine

/-! ### A read or a write fails (R599, R600) -/

/-- Status of a failed access: reads from a host or internal, or writes (R599). -/
def dmaStatusOf (write ecc : Bool) : Nat := if write then 0x08 else if ecc then 0x14 else 0x07

/-- A data access fails: the transfer's work ends with the status (R595, R584, R588, R661). -/
def dataFail (m : Chip) (now r : Nat) (write ecc : Bool) (addr : Nat) : Chip :=
  let st := dmaStatusOf write ecc
  if ringType m r = 4 then
    match m.mint.jobs.find? fun j => j.ring == r with
    | some j => endJob (dmaErr m now write st r j.idx addr) now j st j.done false false
    | none => m
  else if ringType m r = 6 then
    match m.ledger.exp with
    | some e => if r = expRing m && write then exportEnd (dmaErr m now write st r e.desc addr) now st else m
    | none => m
  else workFail m now r (fun _ => true) write st addr

/-- A descriptor read fails: the ring stops with `err` code 2 (R600). -/
def descFail (m : Chip) (now r : Nat) (ecc : Bool) (addr : Nat) : Chip :=
  if ringRuns m r && ringType m r != 5 && ringFill m r != 0 then
    ringFail (dmaErr m now false (dmaStatusOf false ecc) r (devIdx m r) addr) now r 2
  else m

/-- What a unit of work does before its completion. -/
def workEffect (m : Chip) (now r : Nat) (w : DmaWork) : Chip :=
  if w.ended.isSome then m
  else if ringType m r = 0 then
    hostFrame m now (20 + ringSpace m r) (w.bytes ++ List.replicate (60 - w.bytes.length) 0) (bit (byteAt w.desc 10) 2)
  else if ringType m r = 1 then bump (rxWrite m (ringSpace m r) w.bufs w.bytes) A.write_bytes w.bytes.length
  else copyDrain r w.xfers.length m

/-- The record of a ring's oldest work cannot be written, or, for a completion ring, its write-back (R600): the completion ring and
every ring that names it stop with `err` code 3, and that record is not posted. -/
def recordFail (m : Chip) (now r addr : Nat) : Chip :=
  if ringType m r = 5 then
    if ringRuns m r then cplFail (dmaErr m now true 0x08 r (devIdx m r) addr) now r else m
  else
    match m.dma.work.find? fun w => w.ring == r && !w.gathering with
    | some w =>
      let m := workEffect m now r w
      let m := updDma m fun d => { d with work := d.work.eraseP fun x => x.ring == r && x.idx == w.idx && !x.gathering }
      cplFail (dmaErr (cplRelease m r) now true 0x08 r w.idx addr) now (ringCpl m r)
    | none =>
      match m.mint.jobs.find? fun j => j.ring == r with
      | some j =>
        let m := coreEnds (cplRelease (dropJob m (jobKey j)) r) now j.core
        cplFail (dmaErr m now true 0x08 r j.idx addr) now (ringCpl m r)
      | none => m

/-- A failed access of a ring, by kind: 0 a data read, 1 a data write, 2 a descriptor read, 3 a completion record or write-back. -/
def dmaFail (m : Chip) (now r kind : Nat) (ecc : Bool) (addr : Nat) : Chip :=
  match kind with
  | 0 => dataFail m now r false ecc addr
  | 1 => dataFail m now r true false addr
  | 2 => descFail m now r ecc addr
  | _ => recordFail m now r addr

/-! ### A function's memory is lost (R605) -/

/-- The transfers of a ring to its owner's memory fail, without a completion, whose ring lies in the same memory. -/
def transfersLost (m : Chip) (now r : Nat) : Chip :=
  let ws := m.dma.work.filter fun w => w.ring == r && w.ended.isNone
  let js := m.mint.jobs.filter fun j => j.ring == r
  let wr := ringType m r == 1
  let m := ws.foldl (fun m w => dmaErr m now wr (dmaStatusOf wr false) r w.idx (if wr then (w.bufs.headD (0, 0)).1 else leNat (slice w.desc 0 8))) m
  let m := js.foldl (fun m j => coreEnds (cplRelease (dropJob (dmaErr m now false 0x07 r j.idx (jSrc j.desc)) (jobKey j)) r) now j.core) m
  let m :=
    match m.ledger.exp with
    | some e =>
      if r = expRing m then
        updLedger (cplRelease (dmaErr m now true 0x08 r e.desc (e.addr + 32 * e.count)) r) fun l => { l with exp := none, unexp := e.seqs ++ l.unexp }
      else m
    | none => m
  dropWork m r

/-- A ring owned by a function whose memory is lost stops with `err` code 4 (R605). -/
def ringLost (now : Nat) (m : Chip) (r : Nat) : Chip :=
  if ringRuns m r then ringFail (transfersLost m now r) now r 4 else transfersLost m now r

/-- Rings that a function owns and that are enabled. -/
def ringsOf (m : Chip) (fn : Nat) : List Nat := (List.range 64).filter fun r => ringEn m r && ringOwner m r == fn

/-- A function's memory can no longer be reached (R605): copies of other owners to or from it fail, its rings stop, its port goes
down. -/
def memoryLost (m : Chip) (now fn : Nat) : Chip :=
  let m := updDma m fun d => { d with bme := lset d.bme fn fun _ => false }
  let m := failForeign m now fn
  let m := (ringsOf m fn).foldl (ringLost now) m
  hostPorts (setIrq m .hif 5) now

/-- The functions that a link carries (R551, R552). -/
def linkFns (m : Chip) (link : Nat) : List Nat := [0, 1].filter fun f => linkOf m f == link

/-- A link goes down: its part of `HIF_LINK_STATUS`, its event bit, and the functions it carries (R552, R605). -/
def linkDown (m : Chip) (now link : Nat) : Chip :=
  if !flag m A.HIF_LINK_STATUS (1 + link) then m
  else
    let m := setF (clrR m A.HIF_LINK_STATUS (2 ^ (1 + link))) A.HIF_LINK_STATUS (4 + 8 * link) 3 0
    let m := setIrq (setF m A.HIF_LINK_STATUS (8 + 8 * link) 3 0) .hif (1 + link)
    (linkFns m link).foldl (fun m f => memoryLost m now f) m

/-! ### Function Level Reset (R606, R621) -/

/-- A Function Level Reset: Bus Master Enable returns to 0, as the PCIe Base Specification states. -/
def functionReset (m : Chip) (now fn : Nat) : Chip :=
  let m := ringsOff m now fn
  let m := updDma m fun d => { d with bme := lset d.bme fn fun _ => false }
  let m := agentGone (setIrq (failForeign m now fn) .hif (3 + fn)) fn
  hostPorts m now

end Sys2Proof.Machine
end

