-- ==== Sys2Proof/Machine/LateCmds.lean ====
section
/-! DEFINITION. Meanings of the commands of Late.lean. -/

namespace Sys2Proof.Machine

/-- `DMA_ERROR` (R599, R600): the kind of access as `dmaFail` numbers it, whether an internal read met a double-symbol error, and the
failing address. -/
def execDmaError (t : Nat) (ring : Fin 64) (kind : Fin 4) (ecc : Bool) (addr : BitVec 64) (s : State) : Host.Outcome State Fault Refusal :=
  s.core t fun now m => dmaFail m now ring kind ecc addr.toNat

/-- `BUS_MASTER_DISABLE` (R605): a function's Bus Master Enable is cleared, or, where `link` is set, the link of that number goes
down. -/
def execBusMasterDisable (t : Nat) (fn : Fin 2) (link : Bool) (s : State) : Host.Outcome State Fault Refusal :=
  s.core t fun now m => if link then linkDown m now fn else if bmeOf m fn then memoryLost m now fn else m

/-- `FUNCTION_LEVEL_RESET` (R606). -/
def execFunctionLevelReset (t : Nat) (fn : Fin 2) (s : State) : Host.Outcome State Fault Refusal :=
  s.core t fun now m => if fnUp m fn then functionReset m now fn else m

end Sys2Proof.Machine
end

