-- ==== Sys2Proof/Machine/LedgerCmds.lean ====
section
/-! DEFINITION. Meanings of the commands of Ledger.lean. -/

namespace Sys2Proof.Machine

/-- `LEDGER_ACCEPT` (R645). -/
def execLedgerAccept (t : Nat) (s : State) : Host.Outcome State Fault Refusal := s.core t fun now m => ledgerAccept m now

/-- `TIME_ANCHOR` (R646). -/
def execTimeAnchor (t : Nat) (s : State) : Host.Outcome State Fault Refusal :=
  s.core t fun now m => if anchorIsDue m now && !ledgerFull m now then anchorWrite m now else m

/-- `LEDGER_LOST` (R647). -/
def execLedgerLost (t : Nat) (s : State) : Host.Outcome State Fault Refusal :=
  s.core t fun now m =>
    let l := m.ledger
    if l.lostF + l.lostO + l.lostE = 0 || l.lostWin = some (now / ms) || l.startDue.isSome || ledgerFull m now then m
    else
      let pay := payload [(4, sat 32 l.lostF), (4, sat 32 l.lostO), (4, sat 32 l.lostE)]
      ledgerTake (updLedger m fun l => { l with lostF := 0, lostO := 0, lostE := 0, lostWin := some (now / ms) }) now true
        ⟨0x0002, 0, now, pay⟩

/-- `EXPORT_BUFFER_FULL` (R659): `ecc` names a record, counted from the first read now, whose read fails (R656). -/
def execExportBufferFull (t : Nat) (ecc : Option Nat) (s : State) : Host.Outcome State Fault Refusal :=
  s.core t fun now m =>
    let m := exportMove m now ecc
    match m.ledger.exp with
    | some e => if e.cap ≤ e.count then exportEnd m now 0 else m
    | none => m

/-- `EXPORT_FLUSH_TIMEOUT` (R659). -/
def execExportFlushTimeout (t : Nat) (ecc : Option Nat) (s : State) : Host.Outcome State Fault Refusal :=
  s.core t fun now m =>
    match m.ledger.exp with
    | some e =>
      if 0 < e.count && e.firstLt + fld m A.LEDGER_EXPORT_CFG 16 16 * us ≤ now then exportEnd (exportMove m now ecc) now 0 else m
    | none => m

end Sys2Proof.Machine
end

