-- ==== Sys2Proof/Machine/MintCmds.lean ====
section
/-! DEFINITION. Meanings of the commands of Mint.lean. -/

namespace Sys2Proof.Machine

/-- `CIPHER_JOB_START` (R405): what the reads of host memory return: descriptor, job block, key blob and saved context; `blkOk`
whether the job block was read, `keyOk` whether the key loads. -/
def execCipherJobStart (t : Nat) (desc blk blob ctx : List Byte) (blkOk keyOk : Bool) (s : State) : Host.Outcome State Fault Refusal :=
  s.core t fun now m => jobStart m now desc blk blob ctx blkOk keyOk

/-- `PROVISIONAL_COMPLETION` (R375). -/
def execProvisionalCompletion (t : Nat) (core : Fin 8) (src : List Byte) (s : State) : Host.Outcome State Fault Refusal :=
  s.core t fun now m =>
    match jobOn m core with
    | some j => provisional m now j src
    | none => m

/-- `CIPHER_JOB_COMPLETE` (R403): `src` is the job's source in a host's memory. -/
def execCipherJobComplete (t : Nat) (core : Fin 10) (src : List Byte) (s : State) : Host.Outcome State Fault Refusal :=
  s.core t fun now m =>
    match jobOn m core with
    | some j => jobDone m now j src
    | none => m

/-- `TELLER_PREEMPT` (R356): the client that waits (0 a ring, 1 the SGE, 2 the Vault), the unit class, the blocks that the preempted
job has completed since its start, and its source. -/
def execTellerPreempt (t : Nat) (client : Fin 3) (kecc : Bool) (blocks : Nat) (src : List Byte) (s : State) :
    Host.Outcome State Fault Refusal :=
  s.core t fun _ m =>
    if client.val = 0 then
      match waitingPri m kecc with
      | some p => tellerPreempt m kecc p blocks src
      | none => m
    else tellerPreempt m kecc (3 + client.val) blocks src

/-- `CORE_SLOW_DECLARE` (R359): the rate estimate, and the progress of the core's job. -/
def execCoreSlowDeclare (t : Nat) (core : Fin 8) (est blocks : Nat) (src : List Byte) (s : State) : Host.Outcome State Fault Refusal :=
  s.core t fun now m => declareSlow m now core est blocks src

/-- `SLOW_CORE_KAT` (R360): the rate that the known-answer job reached. -/
def execSlowCoreKat (t : Nat) (core : Fin 8) (rate : Nat) (s : State) : Host.Outcome State Fault Refusal :=
  s.core t fun now m => slowKat m now core rate

/-- `MINT_MISMATCH` (R362): core, client, ring or port, and block index. -/
def execMintMismatch (t : Nat) (core : Fin 10) (client : Fin 4) (who block : Nat) (s : State) : Host.Outcome State Fault Refusal :=
  s.core t fun now m => firstMismatch m now core client who block

/-- `MINT_QUARANTINE` (R363): the retry core, the client, its ring or port, the block, and for a MACsec frame its direction and the
frame. -/
def execMintQuarantine (t : Nat) (core : Fin 10) (client : Fin 4) (who block : Nat) (out : Bool) (fid : Nat) (s : State) :
    Host.Outcome State Fault Refusal :=
  s.core t fun now m => retryMismatch m now core client who block out fid

/-- `SELF_TEST_DONE` (R364). -/
def execSelfTestDone (t : Nat) (core : Fin 10) (pass : Bool) (s : State) : Host.Outcome State Fault Refusal :=
  s.core t fun now m =>
    if !(coreOf m core).test then m
    else
      let m := clrR (updCore m core fun x => { x with test := false }) (A.MINT_CORE_CTRL core) 1
      if pass then updCore m core fun x => { x with quar := false } else quarantine m now core 3

end Sys2Proof.Machine
end

