-- ==== Sys2Proof/Machine/PairCmds.lean ====
section
/-! DEFINITION. Meanings of the commands of Pair.lean. -/

namespace Sys2Proof.Machine

/-- `BASE_CYCLE_BOUNDARY` (R310). -/
def execBaseCycleBoundary (t : Nat) (s : State) : Host.Outcome State Fault Refusal :=
  s.core t fun now m =>
    let k := m.time.bnext
    if flag m A.TIME_BCYC_CFG 31 && ((bcycBase m + k * bcycLen m : Nat) : Int) * nsU ≤ workU m now then boundary m now k else m

/-- `TOKEN_CLAIM` (R738): consecutive released samples of PAIR_ACT up to this tick, and the level of PAIR_FLT_IN. -/
def execTokenClaim (t : Nat) (samples : Nat) (fltIn : Bool) (s : State) : Host.Outcome State Fault Refusal :=
  s.core t fun now m =>
    if 2 + 2 * pairId m ≤ samples && mayClaim m now fltIn then tokenClaim (updPair m fun p => { p with holdoff := none }) now else m

/-- `GUARDED_PORTS_RELEASE` (R762). -/
def execGuardedPortsRelease (t : Nat) (s : State) : Host.Outcome State Fault Refusal :=
  s.core t fun now m =>
    match m.pair.release with
    | some d =>
      if m.pair.active && d ≤ now then
        emit (updPair m fun p => { p with release := none }) 0x0F04 0x0F00 now [(4, m.pair.since), (1, b2n !m.pair.current)]
      else m
    | none => m

/-- `PAIR_ACT_LINE_FAULT` (R740): the line reads high for `cycles` consecutive cycles. -/
def execPairActLineFault (t : Nat) (cycles : Nat) (s : State) : Host.Outcome State Fault Refusal :=
  s.core t fun now m =>
    if m.pair.active && 8 ≤ cycles then report (tokenRelease m now 9) now 0x0F00 0x0FF1 3 0 else m

/-- `LEASE_EXPIRY` (R742): RTC ticks are 1,953,125/16 counts. -/
def execLeaseExpiry (t : Nat) (s : State) : Host.Outcome State Fault Refusal :=
  s.run t fun now m =>
    let n := cdiv (3 * bcycLen m) 30520 + 1
    if m.pair.active && n * 1953125 ≤ (now - m.pair.lease) * 16 then tokenRelease m now 6 else m

/-- `HOLDOFF_EXPIRY` (R743). -/
def execHoldoffExpiry (t : Nat) (s : State) : Host.Outcome State Fault Refusal :=
  s.run t fun now m =>
    match m.pair.holdoff with
    | some d => if d ≤ now then updPair m fun p => { p with holdoff := none } else m
    | none => m

/-- `PAIR_CYCLE_CLOSE` (R749). -/
def execPairCycleClose (t : Nat) (s : State) : Host.Outcome State Fault Refusal :=
  s.core t fun now m =>
    match m.pair.snap with
    | some (k, b) =>
      if pairEn m && b + fld m A.PAIR_TIMING 8 8 * us ≤ now && (sget m.pair.own k).isNone then cycleClose m now k b else m
    | none => m

/-- `BUNDLE_RECEIVE` (R752): whether the CRC holds, the header's flags, `cfg_version`, cycle, `lt_boundary` and `len`, and the
sections with their elements. -/
def execBundleReceive (t : Nat) (crcOk : Bool) (flags : BitVec 8) (ver : Word) (cycle lt len : Nat) (secs : List (Nat × List Byte))
    (s : State) : Host.Outcome State Fault Refusal :=
  s.core t fun now m =>
    if !pairEn m then m else if crcOk then bundleGood m now flags.toNat ver.toNat cycle lt len secs else bundleBad m now

/-- `SELF_CHECK_END` (R758): whether the checks of bits 0-2 pass; bits 3 and 4 follow from the state. -/
def execSelfCheckEnd (t : Nat) (mintOk replayOk eccOk : Bool) (s : State) : Host.Outcome State Fault Refusal :=
  s.core t fun now m =>
    match m.pair.check with
    | some (k, b) =>
      if m.pair.ownRes.isSome || now < b + 200 * us then m
      else
        let bad := b2n (!mintOk) + 2 * b2n (!replayOk) + 4 * b2n (!eccOk) + 8 * b2n (decide (2 ≤ m.triad.mode)) + 16 * b2n (m.safe.q.any fun e => 2 ≤ e.sev)
        let m := updPair m fun p => { p with ownRes := some (bad = 0) }
        let m := say m (.link 0 (pairHeader m (pairFlags m now m.pair.current) k b 1))
        outcome (say m (.link 2 (packLe [(8, k), (1, b2n (bad ≠ 0)), (2, bad), (5, 0)]))) now
    | none => m

/-- `SELF_CHECK_RESULT_TIMEOUT` (R759). -/
def execSelfCheckResultTimeout (t : Nat) (s : State) : Host.Outcome State Fault Refusal :=
  s.core t fun now m =>
    match m.pair.check with
    | some (_, b) =>
      if m.pair.parRes.isNone && b + 250 * us ≤ now then outcome (updPair m fun p => { p with parRes := some false }) now else m
    | none => m

/-- `ACCEPT_EXPIRY` (R765). -/
def execAcceptExpiry (t : Nat) (s : State) : Host.Outcome State Fault Refusal :=
  s.core t fun now m =>
    match m.pair.accept with
    | some d => if d ≤ now then updPair m fun p => { p with accept := none } else m
    | none => m

/-- `HANDOVER_RELEASE` (R766). -/
def execHandoverRelease (t : Nat) (s : State) : Host.Outcome State Fault Refusal :=
  s.core t fun now m => if m.pair.handing = 2 then tokenRelease m now 5 else m

end Sys2Proof.Machine
end

