-- ==== Sys2Proof/Machine/PortsCmds.lean ====
section
/-! DEFINITION. Meanings of the commands of Ports.lean. -/

namespace Sys2Proof.Machine

/-- `USXGMII_SPEED_WORD` (R38). -/
def execUsxgmiiSpeedWord (t : Nat) (port : Fin 8) (code : Nat) (s : State) : Host.Outcome State Fault Refusal :=
  s.core t fun now m => usxgmiiWord m now port code

/-- `LINK_TRAINING_START` (R39): at a link-up in 10GBASE-KR mode. -/
def execLinkTrainingStart (t : Nat) (port : Fin 8) (s : State) : Host.Outcome State Fault Refusal :=
  s.core t fun now m =>
    if portEn m port && laneMode m port = 2 && !linkOn m port && (portOf m port).train.isNone && (portOf m port).retrain.isNone
    then updPort m port fun p => { p with train := some now, attempt := some (p.attempt.getD now) }
    else m

/-- `TRAIN_FAIL` (R39, R64): the wait timer of 500 ms has expired. -/
def execTrainFail (t : Nat) (port : Fin 8) (s : State) : Host.Outcome State Fault Refusal :=
  s.core t fun now m =>
    match (portOf m port).train with
    | none => m
    | some t0 =>
      if now < t0 + 500 * ms then m
      else
        let k := sat 8 ((portOf m port).fails + 1)
        let m := updPort m port fun p =>
          { p with train := none, fails := k, retrain := some (now + fld m (A.MAC_PSD_CFG port) 8 8 * ms) }
        emit (portEvt m port 2) 0x0132 (srcId 1 port) now [(1, k), (3, 0), (8, t0)]

/-- `RETRAIN_DELAY_EXPIRY` (R39). -/
def execRetrainDelayExpiry (t : Nat) (port : Fin 8) (s : State) : Host.Outcome State Fault Refusal :=
  s.core t fun now m =>
    match (portOf m port).retrain with
    | none => m
    | some r => if now < r then m else updPort m port fun p => { p with retrain := none, train := some now }

/-- `LINK_UP` (R64, R253): a front port, or port 23, whose owning block reports it. -/
def execLinkUp (t : Nat) (port : Fin 24) (word : Nat) (sqi : Fin 8) (s : State) : Host.Outcome State Fault Refusal :=
  s.core t fun now m =>
    if port.val < 20 then linkUpFront m now port word sqi
    else if port.val = 23 then tmPortUp m 23
    else m

/-- `LINK_DOWN` (R63): the loss has lasted the debounce time. -/
def execLinkDown (t : Nat) (port : Fin 24) (loss : Nat) (lf rf : Bool) (s : State) : Host.Outcome State Fault Refusal :=
  s.core t fun now m =>
    if port.val = 23 then tmPortDown m now 23
    else if port.val < 20 && loss + fld m (A.MAC_PLINK port) 0 16 * us ≤ now then
      linkLost m now port (if isB port then 1 else 2) loss lf rf
    else m

/-- `TC10_SLEEP_COMPLETE` (R43). -/
def execTc10SleepComplete (t : Nat) (edge : Fin 8) (s : State) : Host.Outcome State Fault Refusal :=
  s.core t fun now m => sleepDone m now (8 + edge)

/-- `TC10_WAKE_RECEIVED` (R44). -/
def execTc10WakeReceived (t : Nat) (edge : Fin 8) (s : State) : Host.Outcome State Fault Refusal :=
  s.core t fun now m => tc10Wake m now (8 + edge)

/-- `TC10_SLEEP_REQUEST_RX` (R43): the link partner asks for sleep and the port acknowledges. -/
def execTc10SleepRequestRx (t : Nat) (edge : Fin 8) (s : State) : Host.Outcome State Fault Refusal :=
  s.core t fun now m => if domOn m (phyDom (8 + edge)) then sleepStart m now (8 + edge) else m

/-- `WARM_FALLBACK` (R48). -/
def execWarmFallback (t : Nat) (edge : Fin 8) (s : State) : Host.Outcome State Fault Refusal :=
  s.core t fun now m =>
    let n := 8 + edge.val
    match (portOf m n).warm with
    | none => m
    | some w =>
      if now < w + 4 * ms || linkOn m n then m
      else
        let m := updPort m n fun p => { p with warm := none, fellBack := true }
        emit (bump (portEvt m n 4) (A.warm_fallback n) 1) 0x0133 (srcId 1 n) now
          [(1, sqiOf m n), (1, fld m (A.MAC_PT1_CFG n) 0 1), (2, 0), (8, w)]

/-- `PLCA_LOST` (R50). -/
def execPlcaLost (t : Nat) (drop : Fin 4) (s : State) : Host.Outcome State Fault Refusal :=
  s.core t fun _ m =>
    let n := 16 + drop.val
    if plcaFollower m n && linkOn m n && flag m (A.MAC_PPLCA_STATUS n) 0 then
      bump (portEvt (setF m (A.MAC_PPLCA_STATUS n) 0 1 0) n 7) (A.plca_lost n) 1
    else m

/-- `PLCA_BEACON_RETURN` (R50). -/
def execPlcaBeaconReturn (t : Nat) (drop : Fin 4) (s : State) : Host.Outcome State Fault Refusal :=
  s.core t fun _ m =>
    let n := 16 + drop.val
    if plcaFollower m n && linkOn m n then setF m (A.MAC_PPLCA_STATUS n) 0 1 1 else m

/-- `PRBS_CHECKER_ERROR` (R66): `k` bit errors that the checker of a disabled lane counts. -/
def execPrbsCheckerError (t : Nat) (port : Fin 8) (k : Nat) (s : State) : Host.Outcome State Fault Refusal :=
  s.core t fun _ m =>
    if !portEn m port && flag m (A.MAC_PPRBS_CFG port) 4 && k ≠ 0 then
      let m := wrN m (A.MAC_PPRBS_ERR port) (sat 32 (rdN m (A.MAC_PPRBS_ERR port) + k))
      portEvt (setF m (A.MAC_PSTATUS port) 7 1 1) port 8
    else m

end Sys2Proof.Machine
end

