-- ==== Sys2Proof/Machine/PwrCmds.lean ====
section
/-! DEFINITION. Meanings of the commands of Pwr.lean. -/

namespace Sys2Proof.Machine

/-- `LT_FLOOR_ADVANCE` (R34): `ahead` counts beyond 2^36 ahead of LT. -/
def execLtFloorAdvance (t : Nat) (ahead : Nat) (s : State) : Host.Outcome State Fault Refusal :=
  s.run t fun now m => if m.pwr.mode == .off then m else updPwr m fun p => { p with floor := max p.floor (now + 2 ^ 36 + ahead) }

/-- `POWER_ON` (R671, R34): straps, bank supplies in mV, and what the flash holds: both directory copies, both first-stage objects. -/
def execPowerOn (t : Nat) (straps : Fin 4) (mvA mvB : Nat) (dir0 dir1 obj0 obj1 : List Byte) (s : State) :
    Host.Outcome State Fault Refusal :=
  s.run (if s.chip.pwr.mode == .off then max t s.chip.pwr.floor else t) fun now m => powerOn m now straps mvA mvB dir0 dir1 obj0 obj1

/-- `BROWN_OUT` (R671): how long VSUP has been below the threshold. -/
def execBrownOut (t low : Nat) (s : State) : Host.Outcome State Fault Refusal :=
  s.run t fun _ m => if 10 * us ≤ low then brownOut m else m

/-- `RESET_N_INPUT` (R829): how long the ball has been low. A pulse between 100 ns and 1 µs may reset or not. -/
def execResetNInput (t low : Nat) (s : State) : Host.Outcome State Fault Refusal :=
  s.run t fun now m =>
    if low ≤ 400 || !bit m.pwr.vddio 0 || !(m.pwr.mode == .run || m.pwr.mode == .parking) then m
    else
      let take := us ≤ low || freeVal m % 2 = 1
      let m := if us ≤ low then m else useFree m
      if take then updPwr m fun p => { p with held := true, rstAt := some (now, 2) } else m

/-- `RESET_N_RELEASE` (R829): the reset that the ball held ends and the boot proceeds. -/
def execResetNRelease (t : Nat) (straps : Fin 4) (dir0 dir1 obj0 obj1 : List Byte) (s : State) : Host.Outcome State Fault Refusal :=
  s.run t fun now m =>
    if m.pwr.held && (m.pwr.rstAt.map (·.2)) = some 2 then coldReset m now straps dir0 dir1 obj0 obj1 else m

/-- `COLD_RESET` (R806): 1 µs after its latch. -/
def execColdReset (t : Nat) (straps : Fin 4) (dir0 dir1 obj0 obj1 : List Byte) (s : State) : Host.Outcome State Fault Refusal :=
  s.run t fun now m => if (m.pwr.rstAt.map (·.2)) = some 2 then m else coldReset m now straps dir0 dir1 obj0 obj1

/-- `VDDIO_SUPPLY_CHANGE` (R823): the bank, 0 A or 1 B, and its supply in mV. -/
def execVddioSupplyChange (t : Nat) (bank : Fin 2) (mv : Nat) (s : State) : Host.Outcome State Fault Refusal :=
  s.run t fun now m => if m.pwr.mode == .off then m else vddioChange m now bank mv

/-- `CLOCK_LOSS` (R807). -/
def execClockLoss (t : Nat) (clk : Fin 6) (s : State) : Host.Outcome State Fault Refusal := s.run t fun now m => clockLoss m now clk

/-- `CLOCK_RETURN` (R807): the 32.768 kHz crystal runs. -/
def execClockReturn (t : Nat) (s : State) : Host.Outcome State Fault Refusal :=
  s.run t fun _ m => if m.pwr.mode == .off then m else orR m A.GLB_CLK_STATUS 32

/-- `TEMPERATURE_SCAN` (R835): the hottest reading in °C. -/
def execTemperatureScan (t : Nat) (temp : Int) (s : State) : Host.Outcome State Fault Refusal :=
  s.core t fun now m => [((0 : Nat), (150 : Int), (0x0DF4 : Nat), (2 : Nat)), (1, 160, 0x0DF5, 3)].foldl (hotCheck now temp) m

/-- `PARK_COMMIT` (R681). -/
def execParkCommit (t : Nat) (s : State) : Host.Outcome State Fault Refusal :=
  s.run t fun now m => if m.pwr.mode == .parking && m.pwr.phase = 2 then parkCommit m now else m

/-- `DRAIN_COMPLETE` (R676, R702). -/
def execDrainComplete (t : Nat) (s : State) : Host.Outcome State Fault Refusal :=
  s.core t fun now m =>
    if m.pwr.mode == .parking && m.pwr.phase = 1 && drained m then parkStore m now
    else if m.pwr.mintLatch.isSome && m.mint.jobs.all (·.core.isNone) then mintOff m else m

/-- `DRAIN_TIMEOUT` (R678, R702). -/
def execDrainTimeout (t : Nat) (s : State) : Host.Outcome State Fault Refusal :=
  s.core t fun now m =>
    let d := fld m A.PWR_DRAIN_TMO 0 17 * us
    if m.pwr.mode == .parking && m.pwr.phase = 1 then (if m.pwr.latch + d ≤ now then parkStore (drainAbort m now) now else m)
    else
      match m.pwr.mintLatch with
      | some l =>
        if l + d ≤ now then
          let k := m.mint.jobs.length
          mintOff (setF (drainRec now (mintDown m now true) (15, k, 0, 0, 0)) A.PWR_PARK_STATUS 16 16 (sat 16 k))
        else m
      | none => m

/-- `PMIC_ENABLE_STEP` (R694). -/
def execPmicEnableStep (t : Nat) (s : State) : Host.Outcome State Fault Refusal := s.run t fun now m => enableStep m now

/-- `CAN_PN_WAKE` (R486-R488): decoder, kind (0 frame, 1 wake-up pattern, 2 decode errors), the frame, the errors counted, and the LT
of the EOF. -/
def execCanPnWake (t : Nat) (dec : Fin 4) (kind : Fin 3) (ident : BitVec 29) (ide : Bool) (dlc : Fin 16) (data : List Byte)
    (errs eof : Nat) (s : State) : Host.Outcome State Fault Refusal :=
  s.run t fun now m =>
    if !wakeTaken m 2 || !bit m.pwr.vddio 1 || coreOn m || !pnMatches m dec kind ident.toNat ide dlc data errs then m
    else
      let m := wr64 (wrN m (A.CAN_PN_WAKE_ID dec) (ident.toNat + b2n ide * 2 ^ 29 + kind * 2 ^ 30)) (A.CAN_PN_WAKE_LT_LO dec) eof
      let m := lateRec (setIrq m .can (16 + dec)) 0x0704 (srcId 7 dec) eof [(4, ident.toNat + b2n ide * 2 ^ 29), (1, kind)]
      wakeDetect m now 2 dec

/-- `WAKE_SEQUENCE_START` (R683): whether PMIC_PG is low. -/
def execWakeSequenceStart (t : Nat) (pgLow : Bool) (s : State) : Host.Outcome State Fault Refusal := s.run t fun now m => wakeStart m now pgLow

/-- `PMIC_PG_RISE` (R694). -/
def execPmicPgRise (t : Nat) (s : State) : Host.Outcome State Fault Refusal := s.run t fun now m => pgRise m now

/-- `PLL_LOCK` (R33, R807): 0 oscillator, 1 core, 2 cluster, 3 SerDes, 4 PCIe. -/
def execPllLock (t : Nat) (clk : Fin 5) (s : State) : Host.Outcome State Fault Refusal := s.run t fun now m => pllLock m now clk

/-- `PMIC_PG_TIMEOUT` (R695). -/
def execPmicPgTimeout (t : Nat) (s : State) : Host.Outcome State Fault Refusal := s.run t fun now m => pgTimeout m now

/-- `PMIC_FAULT_INPUT` (R696): PMIC_IRQ_N went low, or PMIC_PG fell. -/
def execPmicFaultInput (t : Nat) (irqN : Bool) (s : State) : Host.Outcome State Fault Refusal :=
  s.core t fun now m =>
    if irqN then report (pmicFault m now 4) now 0x0D00 0x0D04 3 4
    else if m.pwr.en = 0xF && m.pwr.pg then report (pmicFault (updPwr m fun p => { p with pg := false }) now 2) now 0x0D00 0x0D04 3 2
    else m

/-- `PMIC_SPI_WRITE` (R697): what the register reads back, and what it reads after the repetition. -/
def execPmicSpiWrite (t back back2 : Nat) (s : State) : Host.Outcome State Fault Refusal := s.run t fun now m => spiWrite m now back back2

/-- `AVS_UPDATE` (R698): the voltage that the delay monitors need in mV, at a reading. -/
def execAvsUpdate (t : Nat) (need : Option Nat) (s : State) : Host.Outcome State Fault Refusal := s.core t fun now m => avsUpdate m now need

/-- `IDLE_GATING_START` (R670). -/
def execIdleGatingStart (t : Nat) (s : State) : Host.Outcome State Fault Refusal :=
  s.core t fun now m =>
    match m.pwr.idleSince with
    | some a =>
      if flag m A.PWR_IDLE_CFG 0 && quiet m && m.pwr.mode == .run && a + fld m A.PWR_IDLE_CFG 16 16 * us ≤ now then
        updPwr m fun p => { p with idle := true }
      else m
    | none => m

/-- `IDLE_GATING_END` (R670). -/
def execIdleGatingEnd (t : Nat) (s : State) : Host.Outcome State Fault Refusal :=
  s.core t fun _ m => if m.pwr.idle then updPwr m fun p => { p with idle := false, idleSince := none } else m

end Sys2Proof.Machine
end

