-- ==== Sys2Proof/Machine/SchedCmds.lean ====
section
/-! DEFINITION. Meanings of the commands of Sched.lean. -/

namespace Sys2Proof.Machine

/-- `RESIDENCE_EXPIRY` (R245). -/
def execResidenceExpiry (t : Nat) (port : Fin 24) (tc : Fin 8) (s : State) : Host.Outcome State Fault Refusal :=
  s.core t fun now m => ageHead m now port tc

/-- `MC_RESIDUE_AGE_EXPIRY` (R251). -/
def execMcResidueAgeExpiry (t fid : Nat) (s : State) : Host.Outcome State Fault Refusal :=
  s.core t fun now m =>
    match frameOf m fid with
    | some f => residueAge m now f
    | none => m

/-- `HOLD_EXPIRY` (R253). -/
def execHoldExpiry (t : Nat) (port : Fin 24) (s : State) : Host.Outcome State Fault Refusal :=
  s.core t fun now m =>
    match tmPort m port with
    | .hold e => if now < e then m else flushPort m now port
    | _ => m

end Sys2Proof.Machine
end

