-- ==== Sys2Proof/Machine/SgeCmds.lean ====
section
/-! DEFINITION. Meanings of the commands of Sge.lean. -/

namespace Sys2Proof.Machine

/-- `COPY_TX_END` (R236). -/
def execCopyTxEnd (t : Nat) (port : Fin 24) (s : State) : Host.Outcome State Fault Refusal :=
  s.core t fun now m => copyEnd m now port

/-- `SGE_SOURCE_TAKE` (R519). -/
def execSgeSourceTake (t : Nat) (elem : Bool) (ecc : Option (Nat × Nat)) (s : State) : Host.Outcome State Fault Refusal :=
  s.core t fun now m => sgeTake (canSettle m now) now elem ecc

/-- `SECOC_RX_VERIFY` (R539). -/
def execSecocRxVerify (t : Nat) (fault : Bool) (s : State) : Host.Outcome State Fault Refusal :=
  s.core t fun now m => sgeVerify (canSettle m now) now fault

/-- `SIGNAL_TIMEOUT` (R516): the scanner visits a route, whether the SGE runs or not (log entry 213). -/
def execSignalTimeout (t : Nat) (route : Fin 8192) (s : State) : Host.Outcome State Fault Refusal :=
  s.core t fun now m => sgeTimeout (canSettle m now) now route

/-- `MIN_GAP_EXPIRY` (R523). -/
def execMinGapExpiry (t : Nat) (pdu : Fin 2048) (ecc : Option (Nat × Nat)) (s : State) : Host.Outcome State Fault Refusal :=
  s.core t fun now m => sgeTrig m now ecc fun m => gapDue m now pdu

/-- `PERIODIC_EMISSION` (R522). -/
def execPeriodicEmission (t : Nat) (pdu : Fin 2048) (ecc : Option (Nat × Nat)) (s : State) : Host.Outcome State Fault Refusal :=
  s.core t fun now m => sgeTrig m now ecc fun m => periodic m now pdu

/-- `GATE_EMISSION` (R522). -/
def execGateEmission (t : Nat) (pdu : Fin 2048) (ecc : Option (Nat × Nat)) (s : State) : Host.Outcome State Fault Refusal :=
  s.core t fun now m => sgeTrig m now ecc fun m => gateDue m now pdu

/-- `PENDING_EMISSION_PLACE` (R527): the pending emission at a place of the list. -/
def execPendingEmissionPlace (t : Nat) (index : Nat) (s : State) : Host.Outcome State Fault Refusal :=
  s.core t fun now m => placePending (canSettle m now) now index

/-- `SECOC_TX_COMPLETE` (R537). -/
def execSecocTxComplete (t : Nat) (pdu : Fin 2048) (fault : Bool) (s : State) : Host.Outcome State Fault Refusal :=
  s.core t fun now m => macDone (canSettle m now) now pdu fault

end Sys2Proof.Machine
end

