-- ==== Sys2Proof/Machine/TablesCmds.lean ====
section
/-! DEFINITION. Meanings of the commands of Tables.lean. -/

namespace Sys2Proof.Machine

/-- `TABLE_SCRUB` (R181): the scrubber visits an entry and rewrites one with a single-symbol error, which is then in the memory no more. -/
def execTableScrub (t : Nat) (table : Fin 9) (index : Nat) (s : State) : Host.Outcome State Fault Refusal :=
  s.core t fun _ m => updPrs m fun p => { p with soft := p.soft.filter (· != table.val * 2 ^ 16 + index) }

end Sys2Proof.Machine
end

