-- ==== Sys2Proof/Machine/TimeCmds.lean ====
section
/-! DEFINITION. Meanings of the commands of Time.lean. -/

namespace Sys2Proof.Machine

/-- `SLEW_DONE` (R305). -/
def execSlewDone (t : Nat) (s : State) : Host.Outcome State Fault Refusal := s.core t fun now m => slewDone m now

/-- `HOLDOVER_ENTRY` (R307). -/
def execHoldoverEntry (t : Nat) (s : State) : Host.Outcome State Fault Refusal :=
  s.core t fun now m =>
    if !m.time.holdover && unsteered m now then setHoldover m now true else m

/-- `GATE_ENTRY_CHANGE` (R316). -/
def execGateEntryChange (t : Nat) (port : Fin 20) (s : State) : Host.Outcome State Fault Refusal :=
  s.core t fun now m => gateMove m port now 2

/-- `GATE_CHANGE_TIME` (R320). -/
def execGateChangeTime (t : Nat) (port : Fin 20) (s : State) : Host.Outcome State Fault Refusal :=
  s.core t fun now m =>
    match (gateOf m port).ct with
    | some ct => if workU m now < ct then m else changeTime m port now 2
    | none => m

/-- `MAC_HOLD_START` (R330). -/
def execMacHoldStart (t : Nat) (port : Fin 16) (s : State) : Host.Outcome State Fault Refusal :=
  s.core t fun now m =>
    let n := port.val
    if preActive m n && holdDue m n now 1 (fld m (A.GATE_PRE_ADV n) 0 16) then
      closeOn (updGate m n fun g => { g with hold := true }) n now (preMask m n) 2
    else m

/-- `MAC_HOLD_END` (R330). -/
def execMacHoldEnd (t : Nat) (port : Fin 16) (s : State) : Host.Outcome State Fault Refusal :=
  s.core t fun now m =>
    let n := port.val
    if (gateOf m n).hold && holdDue m n now 2 (fld m (A.GATE_PRE_ADV n) 16 16) then
      updGate m n fun g => { g with hold := false }
    else m

/-- `PREEMPTION_VERIFY` (R326): the device sends a verify mPacket. -/
def execPreemptionVerify (t : Nat) (port : Fin 16) (s : State) : Host.Outcome State Fault Refusal :=
  s.core t fun now m =>
    let n := port.val
    let g := gateOf m n
    let st := fld m (A.GATE_PRE_STATUS n) 1 2
    if flag m (A.GATE_PRE_CFG n) 0 && !flag m (A.GATE_PRE_CFG n) 1 && linkOn m n && st < 2 && g.tries < 3
        && (g.tries == 0 || g.lastTry + verifyLt m n ≤ now) then
      say (setF (updGate m n fun g => { g with tries := g.tries + 1, lastTry := now }) (A.GATE_PRE_STATUS n) 1 2 1) (.pin "VERIFY" n)
    else m

/-- `VERIFY_RESPONSE` (R326). -/
def execVerifyResponse (t : Nat) (port : Fin 16) (s : State) : Host.Outcome State Fault Refusal :=
  s.core t fun now m =>
    let n := port.val
    if fld m (A.GATE_PRE_STATUS n) 1 2 = 1 then
      let m := emit (setF m (A.GATE_PRE_STATUS n) 1 2 2) 0x0403 (srcId 4 n) now [(1, 1), (1, (gateOf m n).tries)]
      setEvt m (A.GATE_EVENT n) (A.GATE_EVENT_EN n) 4 .gate n
    else m

/-- `VERIFY_FAIL` (R326). -/
def execVerifyFail (t : Nat) (port : Fin 16) (s : State) : Host.Outcome State Fault Refusal :=
  s.core t fun now m =>
    let n := port.val
    let g := gateOf m n
    if fld m (A.GATE_PRE_STATUS n) 1 2 = 1 && g.tries = 3 && g.lastTry + verifyLt m n ≤ now then
      let m := emit (setF m (A.GATE_PRE_STATUS n) 1 2 3) 0x0403 (srcId 4 n) now [(1, 0), (1, 3)]
      setEvt (bump m (A.verify_fail n) 1) (A.GATE_EVENT n) (A.GATE_EVENT_EN n) 5 .gate n
    else m

/-- `TRIM_GATE_START` (R332). -/
def execTrimGateStart (t : Nat) (port : Fin 20) (s : State) : Host.Outcome State Fault Refusal :=
  s.core t fun now m =>
    let n := port.val
    match trimWindow m n now with
    | some w =>
      let early := match w.2 with
        | some b => decide (workU m now < b - 300 * nsU)
        | none => true
      if !(gateOf m n).trimmed && egressIdle m n now && early then trimGate m now n w else m
    | none => m

/-- `TRIM_RESTORE` (R332). -/
def execTrimRestore (t : Nat) (port : Fin 20) (s : State) : Host.Outcome State Fault Refusal :=
  s.core t fun now m =>
    let n := port.val
    let due := match trimWindow m n now with
      | some (_, some b) => decide (b - 300 * nsU ≤ workU m now)
      | some (_, none) => false
      | none => true
    if (gateOf m n).trimmed && due then updGate m n fun g => { g with trimmed := false, low := false } else m

/-- `RECOVERY_RESET_TIMER` (R339). -/
def execRecoveryResetTimer (t : Nat) (fn : Fin 1024) (s : State) : Host.Outcome State Fault Refusal :=
  s.core t fun now m =>
    match sget m.rcvy fn with
    | some r =>
      if r.last + fld m (A.GATE_RCVY0 fn) 16 16 * ms ≤ now then bump (rcvyReset m fn) (A.rc_resets fn) 1 else m
    | none => m

end Sys2Proof.Machine
end

