-- ==== Sys2Proof/Machine/TriadCmds.lean ====
section
/-! DEFINITION. Meanings of the commands of Triad.lean. -/

namespace Sys2Proof.Machine

/-- `TRIAD_SINGLE_MISMATCH` (R709, R710): the copy, whether its TCM gave an uncorrectable error, the output group, the voted PC. -/
def execTriadSingleMismatch (t : Nat) (copy : Fin 3) (tcm : Bool) (group : Fin 256) (pc : Word) (s : State) :
    Host.Outcome State Fault Refusal :=
  s.core t fun now m => singleMismatch m now copy (if tcm then 3 else 1) group pc.toNat

/-- `TRIAD_REJOIN` (R711, R714). -/
def execTriadRejoin (t : Nat) (s : State) : Host.Outcome State Fault Refusal :=
  s.core t fun now m => if m.triad.mode = 1 then rejoin m now else m

/-- `TRIAD_DOUBLE_MISMATCH` (R715): the copies that disagree, as a mask. -/
def execTriadDoubleMismatch (t : Nat) (copies : Fin 8) (group : Fin 256) (pc : Word) (s : State) :
    Host.Outcome State Fault Refusal :=
  s.core t fun now m => doubleMismatch m now copies group pc.toNat

/-- `TRIAD_RESTART` (R716): `ecc` tells that the triad image cannot be read (R777). -/
def execTriadRestart (t : Nat) (ecc : Bool) (s : State) : Host.Outcome State Fault Refusal :=
  s.core t fun now m =>
    match m.triad.restartAt with
    | some d => if m.triad.mode = 3 && d ≤ now then triadReload m now ecc else m
    | none => m

/-- `TRIAD_WDT_EXPIRY` (R717). -/
def execTriadWdtExpiry (t : Nat) (s : State) : Host.Outcome State Fault Refusal :=
  s.core t fun now m =>
    if lapsed m.triad.kick m.triad.pause (fld m A.TRIAD_WDT_CFG 0 16 * us) now then wdtExpire m now else m

/-- `CWDT_EXPIRY` (R718); the watchdog counts anew from its expiry. -/
def execCwdtExpiry (t : Nat) (s : State) : Host.Outcome State Fault Refusal :=
  s.core t fun now m =>
    if lapsed m.triad.ckick m.triad.cpause (fld m A.TRIAD_CWDT_CFG 0 24 * us) now then
      report (setIrq (bump (updTriad m fun x => { x with ckick := some now }) A.cwdt_expiries 1) .safe 20) now 0x0E02 0x0EF1 2 0
    else m

/-- `DMI_ACCESS` (R720): a read or write (op 1 or 2) of a register of a debug module; what a read returns is free. -/
def execDmiAccess (t : Nat) (dm : Fin 2) (addr : Fin 128) (op : Fin 4) (data : Word) (s : State) :
    Host.Outcome State Fault Refusal :=
  s.core t fun _ m =>
    if !svcDebug m then dmiAnswer m 2
    else if op.val = 1 then useFree (say (dmiAnswer m 0) (.read 7 (dm.val * 128 + addr.val) (BitVec.ofNat 32 (freeVal m))))
    else if op.val = 2 then say (dmiAnswer m 0) (.pin "DMI_WRITE" data.toNat)
    else dmiAnswer m 0

/-- `DEBUG_HALT_REQUEST` (R724-R727): a module and its harts as a mask. -/
def execDebugHaltRequest (t : Nat) (dm : Fin 2) (harts : Fin 16) (s : State) : Host.Outcome State Fault Refusal :=
  s.core t fun now m => debugOp m now dm harts (fun m => clusterHalt m now harts) (fun k m => triadHalt m now k)

/-- `DEBUG_RESUME_REQUEST` (R724, R727). -/
def execDebugResumeRequest (t : Nat) (dm : Fin 2) (harts : Fin 16) (s : State) : Host.Outcome State Fault Refusal :=
  s.core t fun now m => debugOp m now dm harts (fun m => clusterRun m now harts) (fun k m => triadRun m now k)

/-- `ABSTRACT_COMMAND` (R724): the value returned is free; `odd` is a copy whose value differs from the majority. -/
def execAbstractCommand (t : Nat) (dm : Fin 2) (harts : Fin 16) (odd : Option (Fin 3)) (s : State) :
    Host.Outcome State Fault Refusal :=
  s.core t fun now m =>
    let answer := fun (m : Chip) => useFree (say m (.read 7 0x104 (BitVec.ofNat 32 (freeVal m))))
    debugOp m now dm harts answer fun k m =>
      if haltRefused m then haltDenied m now
      else if clearMask k m.triad.halted ≠ 0 then say m (.pin "DMI_CMDERR" 4)
      else
        let m := answer m
        match odd with
        | some c => if m.triad.split then m else singleMismatch (useFree (useFree m)) now c 1 (freeVal m % 2 ^ 16) (freeVal (useFree m) % 2 ^ 32)
        | none => m

/-- `SESSION_EXPIRY` (R722). -/
def execSessionExpiry (t : Nat) (s : State) : Host.Outcome State Fault Refusal :=
  s.core t fun now m =>
    match m.triad.session with
    | some e => if e ≤ now then sessionClose m now else m
    | none => m

/-- `TAP_INSTRUCTION` (R720): 0 IDCODE, 1 BYPASS, 2 SAMPLE/PRELOAD, 3 EXTEST. -/
def execTapInstruction (t : Nat) (ins : Fin 4) (s : State) : Host.Outcome State Fault Refusal :=
  s.run t fun _ m =>
    if m.pwr.mode ≠ .off && (ins.val < 2 || m.life = 0 || m.life = 3) then
      say (updTriad m fun x => { x with tap := ins }) (.pin "TAP" ins)
    else m

end Sys2Proof.Machine
end

