-- ==== Sys2Proof/Machine/VaultCmds.lean ====
section
/-! DEFINITION. Meanings of the commands of Vault.lean. -/

namespace Sys2Proof.Machine

/-- `GENERATE` (R429). -/
def execGenerate (t : Nat) (mb : Fin 4) (s : State) : Host.Outcome State Fault Refusal :=
  s.core t fun now m => vaultRun m mb 1 true fun q =>
    let (m, k) := random m (klenBytes (bits q.pol 1 2))
    loadKey m now q q.pol k 0

/-- `LOAD_BLOB` (R426): `mem` is the blob in host memory, `readOk` whether the read succeeded. -/
def execLoadBlob (t : Nat) (mb : Fin 4) (mem : List Byte) (readOk : Bool) (s : State) : Host.Outcome State Fault Refusal :=
  s.core t fun now m => vaultRun m mb 2 readOk fun q =>
    match openBlob m (vaultMem m q mem 96) with
    | some (pol, k, tag) => loadKey m now q pol k tag
    | none => endVault m q.mb 0x03

/-- `EXPORT_BLOB` (R424, R425): its IV counter is a value of counter 1. -/
def execExportBlob (t : Nat) (mb : Fin 4) (writeOk : Bool) (s : State) : Host.Outcome State Fault Refusal :=
  s.core t fun now m => vaultRun m mb 3 true fun q =>
    match slotOf m q.slot, ctrAsk m 1 with
    | some k, (m, .value v) => endWrite (keyEvent (reshare m q.slot) now q k.policy k.tag) q writeOk (makeBlob m k (q.sel = 1) v)
    | _, (m, .failed) => endVault m q.mb 0x81
    | _, (m, .exhausted) => endVault m q.mb 0x04
    | _, (m, _) => m

/-- `ERASE` (R430): the slot is empty from the next cycle on. -/
def execErase (t : Nat) (mb : Fin 4) (s : State) : Host.Outcome State Fault Refusal :=
  s.core t fun now m => vaultRun m mb 4 true fun q =>
    let pol := policyOf m q.slot
    endVault (keyEvent (nextCycle m now (.erase q.slot)) now q pol 0) q.mb 0

/-- `DERIVE_SLOT` (R414, R422). -/
def execDeriveSlot (t : Nat) (mb : Fin 4) (mem : List Byte) (readOk : Bool) (s : State) : Host.Outcome State Fault Refusal :=
  s.core t fun now m => vaultRun m mb 5 readOk fun q =>
    match slotOf m q.aux with
    | none => endVault m q.mb 0x03
    | some r =>
      let input := vaultMem m q mem q.len
      let n := klenBytes (bits q.pol 1 2)
      loadKey (reshare m q.aux) now q q.pol (if q.sel = 0 then kmac r.key input n "VXG8640 DERIVE" else kdfCmac r.key input n) 0

/-- `KW_UNWRAP` (RFC 3394). -/
def execKwUnwrap (t : Nat) (mb : Fin 4) (mem : List Byte) (readOk : Bool) (s : State) : Host.Outcome State Fault Refusal :=
  s.core t fun now m => vaultRun m mb 6 readOk fun q =>
    match slotOf m q.aux with
    | none => endVault m q.mb 0x03
    | some r =>
      let w := vaultMem m q mem q.len
      if Config.verifies "AES-KW" r.key [w] then loadKey (reshare m q.aux) now q q.pol (Config.crypto "AES-KW-UNWRAP" r.key [w] (q.len - 8)) 0
      else endVault m q.mb 0x03

/-- `KW_WRAP` (RFC 3394). -/
def execKwWrap (t : Nat) (mb : Fin 4) (writeOk : Bool) (s : State) : Host.Outcome State Fault Refusal :=
  s.core t fun now m => vaultRun m mb 7 true fun q =>
    match slotOf m q.slot, slotOf m q.aux with
    | some k, some r =>
      endWrite (keyEvent (reshare (reshare m q.slot) q.aux) now q k.policy k.tag) q writeOk (Config.crypto "AES-KW-WRAP" r.key [k.key] (k.key.length + 8))
    | _, _ => endVault m q.mb 0x03

/-- `EXTEND` (R419, R420). -/
def execExtend (t : Nat) (mb : Fin 4) (mem : List Byte) (readOk : Bool) (s : State) : Host.Outcome State Fault Refusal :=
  s.core t fun _ m => vaultRun m mb 8 readOk fun q =>
    if q.aux = 0 || q.aux = 2 || q.aux = 3 || (q.aux = 1 && q.mb ≠ 2) then endVault m q.mb 0x84
    else endVault (extendBmr m q.aux (vaultMem m q mem 32)) q.mb 0

/-- `CHALLENGE` (R438). -/
def execChallenge (t : Nat) (mb : Fin 4) (mem : List Byte) (readOk writeOk : Bool) (s : State) : Host.Outcome State Fault Refusal :=
  s.core t fun now m => vaultRun m mb 9 readOk fun q => endWrite m q writeOk (challengeBlock m now (vaultMem m q mem 32))

/-- `ATTEST` (R442, R443): the leaf is a value of counter 0. -/
def execAttest (t : Nat) (mb : Fin 4) (mem : List Byte) (readOk writeOk : Bool) (s : State) : Host.Outcome State Fault Refusal :=
  s.core t fun now m => vaultRun m mb 10 readOk fun q =>
    match ctrAsk m 0 with
    | (m, .value v) =>
      let l := vaultMem m q mem 96
      let st := attestBlock m now v (slice l 0 32) (slice l 32 64)
      let m := emit m 0x0603 (srcId 6 0x90) now [(4, v), (8, leNat (slice l 0 8))]
      endWrite m q writeOk (st ++ Config.crypto "XMSS_SIGN" xmssSeeds [leBytes 4 v, st] 2820)
    | (m, .failed) => endVault m q.mb 0x81
    | (m, .exhausted) => setIrq (endVault m q.mb 0x04) .vault 5
    | (m, .wait) => m

/-- `VERIFY` (R439, R440): `mem` holds the 32-byte block, the public key, the message and the signature as host memory gives them. -/
def execVerify (t : Nat) (mb : Fin 4) (mem pk msg sig : List Byte) (readOk : Bool) (s : State) : Host.Outcome State Fault Refusal :=
  s.core t fun _ m => vaultRun m mb 11 readOk fun q =>
    endVault m q.mb (vVerdict m q mem pk msg sig)

/-- `XMSS_PUB` (R429). -/
def execXmssPub (t : Nat) (mb : Fin 4) (writeOk : Bool) (s : State) : Host.Outcome State Fault Refusal :=
  s.core t fun _ m => vaultRun m mb 12 true fun q => endWrite m q writeOk xmssPub

/-- `CTR_ADVANCE` (R437): `nvmOk` tells whether the NVM write completes. -/
def execCtrAdvance (t : Nat) (mb : Fin 4) (nvmOk : Bool) (s : State) : Host.Outcome State Fault Refusal :=
  s.core t fun now m => vaultRun m mb 13 true fun q =>
    let (m, code) := ctrAdvance m now q.aux q.addr nvmOk
    endVault m q.mb code

/-- `OTP_PROG` (R415, R416). -/
def execOtpProg (t : Nat) (mb : Fin 4) (mem : List Byte) (readOk : Bool) (s : State) : Host.Outcome State Fault Refusal :=
  s.core t fun _ m => vaultRun m mb 14 readOk fun q =>
    let l := vaultMem m q mem 32
    if q.aux = 0 then
      if (rowOf m 0).isSome then endVault m q.mb 0x86 else endVault (setRow m 0 l) q.mb 0
    else if (rowOf m 1).isSome then endVault m q.mb 0x86
    else endVault (setRow m 1 l) q.mb 0

/-- `XMSS_KEYGEN` (R441). -/
def execXmssKeygen (t : Nat) (mb : Fin 4) (s : State) : Host.Outcome State Fault Refusal :=
  s.core t fun _ m => vaultRun m mb 15 true fun q =>
    if m.vault.keygen then endVault m q.mb 0x86 else endVault (updVault m fun v => { v with keygen := true }) q.mb 0

/-- `NVM_WRITE_DONE` (R432, R434). -/
def execNvmWriteDone (t : Nat) (ok : Bool) (s : State) : Host.Outcome State Fault Refusal := s.run t fun now m => nvmDone m now ok

/-- `SHARE_RERANDOMISE` (R417, R418): the shares of every slot change and the keys do not; `bad` is a slot whose check value fails. -/
def execShareRerandomise (t : Nat) (bad : Option (Fin 256)) (s : State) : Host.Outcome State Fault Refusal :=
  s.core t fun now m =>
    let m :=
      match bad with
      | some i => if (slotOf m i).isSome then shareFault m now i else m
      | none => m
    (m.vault.slots.map (·.1)).foldl reshare m

end Sys2Proof.Machine
end

