-- ==== Sys2Proof/Machine/Dispatch.lean ====
section
/-! DEFINITION. One arm for each command: a direct call of its meaning, or a refusal by name. -/

namespace Sys2Proof.Machine

def exec (i : Instr) (s : State) : Host.Outcome State Fault Refusal :=
  match i with
  | .registerWrite t who addr data => Sys2Proof.Machine.execRegisterWrite t who addr data s
  | .errClr t who blk => Sys2Proof.Machine.execErrClr t who blk s
  | .lowWordRead t who addr => Sys2Proof.Machine.execLowWordRead t who addr s
  | .highWordRead t who addr => Sys2Proof.Machine.execHighWordRead t who addr s
  | .rcRead t who port => Sys2Proof.Machine.execRcRead t who port s
  | .counterClear t who port => Sys2Proof.Machine.execCounterClear t who port s
  | .ltFloorAdvance t ahead => Sys2Proof.Machine.execLtFloorAdvance t ahead s
  | .powerOn t straps mvA mvB dir0 dir1 obj0 obj1 => Sys2Proof.Machine.execPowerOn t straps mvA mvB dir0 dir1 obj0 obj1 s
  | .brownOut t low => Sys2Proof.Machine.execBrownOut t low s
  | .resetNInput t low => Sys2Proof.Machine.execResetNInput t low s
  | .coldResetCmd t who data => Sys2Proof.Machine.execColdResetCmd t who data s
  | .coldReset t straps dir0 dir1 obj0 obj1 => Sys2Proof.Machine.execColdReset t straps dir0 dir1 obj0 obj1 s
  | .bootRecoveryGo t who ecc => Sys2Proof.Machine.execBootRecoveryGo t who ecc s
  | .triadWindowWrite t who word data => Sys2Proof.Machine.execTriadWindowWrite t who word data s
  | .triadGo t who => Sys2Proof.Machine.execTriadGo t who s
  | .clockLoss t clk => Sys2Proof.Machine.execClockLoss t clk s
  | .temperatureScan t temp => Sys2Proof.Machine.execTemperatureScan t temp s
  | .usxgmiiSpeedWord t port code => Sys2Proof.Machine.execUsxgmiiSpeedWord t port code s
  | .linkTrainingStart t port => Sys2Proof.Machine.execLinkTrainingStart t port s
  | .trainFail t port => Sys2Proof.Machine.execTrainFail t port s
  | .retrainDelayExpiry t port => Sys2Proof.Machine.execRetrainDelayExpiry t port s
  | .linkUp t port word sqi => Sys2Proof.Machine.execLinkUp t port word sqi s
  | .linkDown t port loss lf rf => Sys2Proof.Machine.execLinkDown t port loss lf rf s
  | .portDisable t who port => Sys2Proof.Machine.execPortDisable t who port s
  | .tc10SleepReq t who edge => Sys2Proof.Machine.execTc10SleepReq t who edge s
  | .tc10SleepComplete t edge => Sys2Proof.Machine.execTc10SleepComplete t edge s
  | .tc10WakeReq t who edge => Sys2Proof.Machine.execTc10WakeReq t who edge s
  | .tc10WakeReceived t edge => Sys2Proof.Machine.execTc10WakeReceived t edge s
  | .warmFallback t edge => Sys2Proof.Machine.execWarmFallback t edge s
  | .plcaLost t drop => Sys2Proof.Machine.execPlcaLost t drop s
  | .plcaBeaconReturn t drop => Sys2Proof.Machine.execPlcaBeaconReturn t drop s
  | .frameReceive t port bytes fcsOk frags crcOk queueFull errs => Sys2Proof.Machine.execFrameReceive t port bytes fcsOk frags crcOk queueFull errs s
  | .headReady t fid => Sys2Proof.Machine.execHeadReady t fid s
  | .laneSelection t fid => Sys2Proof.Machine.execLaneSelection t fid s
  | .laneDecision t lane s0 ecc ctEcc fault => Sys2Proof.Machine.execLaneDecision t lane s0 ecc ctEcc fault s
  | .tailVerified t fid => Sys2Proof.Machine.execTailVerified t fid s
  | .ctOverlen t fid port => Sys2Proof.Machine.execCtOverlen t fid port s
  | .ctUnderrun t fid port got => Sys2Proof.Machine.execCtUnderrun t fid port got s
  | .laneSlow t lane throttled retries => Sys2Proof.Machine.execLaneSlow t lane throttled retries s
  | .laneClear t lane => Sys2Proof.Machine.execLaneClear t lane s
  | .laneCfgWrite t who data => Sys2Proof.Machine.execLaneCfgWrite t who data s
  | .returnAll t who => Sys2Proof.Machine.execReturnAll t who s
  | .lagTableRebuild t group => Sys2Proof.Machine.execLagTableRebuild t group s
  | .tblRead t who table staged ecc => Sys2Proof.Machine.execTblRead t who table staged ecc s
  | .tblWrite t who table staged ecc => Sys2Proof.Machine.execTblWrite t who table staged ecc s
  | .tblInsert t who table staged ecc => Sys2Proof.Machine.execTblInsert t who table staged ecc s
  | .tblDelete t who table staged ecc => Sys2Proof.Machine.execTblDelete t who table staged ecc s
  | .tblSearch t who table staged ecc => Sys2Proof.Machine.execTblSearch t who table staged ecc s
  | .tblClearState t who table staged ecc => Sys2Proof.Machine.execTblClearState t who table staged ecc s
  | .tableScrub t table index => Sys2Proof.Machine.execTableScrub t table index s
  | .ctAgerVisit t index => Sys2Proof.Machine.execCtAgerVisit t index s
  | .ctRead t who ecc => Sys2Proof.Machine.execCtRead t who ecc s
  | .ctInsert t who ecc => Sys2Proof.Machine.execCtInsert t who ecc s
  | .ctDelete t who ecc => Sys2Proof.Machine.execCtDelete t who ecc s
  | .ctFlush t who ecc => Sys2Proof.Machine.execCtFlush t who ecc s
  | .schedulerGrant t port start corr ecc descs => Sys2Proof.Machine.execSchedulerGrant t port start corr ecc descs s
  | .residenceExpiry t port tc => Sys2Proof.Machine.execResidenceExpiry t port tc s
  | .copyTxEnd t port => Sys2Proof.Machine.execCopyTxEnd t port s
  | .bufferScrub t found sym owner => Sys2Proof.Machine.execBufferScrub t found sym owner s
  | .mcResidueAgeExpiry t fid => Sys2Proof.Machine.execMcResidueAgeExpiry t fid s
  | .holdExpiry t port => Sys2Proof.Machine.execHoldExpiry t port s
  | .tmPortFlush t who port => Sys2Proof.Machine.execTmPortFlush t who port s
  | .schPortCfgWrite t who port data => Sys2Proof.Machine.execSchPortCfgWrite t who port data s
  | .quantumWrite t who port tc data => Sys2Proof.Machine.execQuantumWrite t who port tc data s
  | .cbsCfgWrite t who port tc data => Sys2Proof.Machine.execCbsCfgWrite t who port tc data s
  | .purseCfgWrite t who port data => Sys2Proof.Machine.execPurseCfgWrite t who port data s
  | .rateWrite t who dom data => Sys2Proof.Machine.execRateWrite t who dom data s
  | .offsetCommand t who dom => Sys2Proof.Machine.execOffsetCommand t who dom s
  | .workingDomainChange t who data => Sys2Proof.Machine.execWorkingDomainChange t who data s
  | .slewDone t => Sys2Proof.Machine.execSlewDone t s
  | .holdoverEntry t => Sys2Proof.Machine.execHoldoverEntry t s
  | .baseCycleBoundary t => Sys2Proof.Machine.execBaseCycleBoundary t s
  | .timeSnap t who => Sys2Proof.Machine.execTimeSnap t who s
  | .txtsPop t who => Sys2Proof.Machine.execTxtsPop t who s
  | .gateEntryChange t port => Sys2Proof.Machine.execGateEntryChange t port s
  | .gateSwapRequest t who port => Sys2Proof.Machine.execGateSwapRequest t who port s
  | .gateSwapCancel t who port => Sys2Proof.Machine.execGateSwapCancel t who port s
  | .gateChangeTime t port => Sys2Proof.Machine.execGateChangeTime t port s
  | .gateDisable t who port => Sys2Proof.Machine.execGateDisable t who port s
  | .macHoldStart t port => Sys2Proof.Machine.execMacHoldStart t port s
  | .macHoldEnd t port => Sys2Proof.Machine.execMacHoldEnd t port s
  | .preemptionVerify t port => Sys2Proof.Machine.execPreemptionVerify t port s
  | .verifyResponse t port => Sys2Proof.Machine.execVerifyResponse t port s
  | .verifyFail t port => Sys2Proof.Machine.execVerifyFail t port s
  | .trimGateStart t port => Sys2Proof.Machine.execTrimGateStart t port s
  | .trimRestore t port => Sys2Proof.Machine.execTrimRestore t port s
  | .recoveryResetTimer t fn => Sys2Proof.Machine.execRecoveryResetTimer t fn s
  | .recoveryEntryWrite t who fn word data => Sys2Proof.Machine.execRecoveryEntryWrite t who fn word data s
  | .cipherJobStart t desc blk blob ctx blkOk keyOk => Sys2Proof.Machine.execCipherJobStart t desc blk blob ctx blkOk keyOk s
  | .provisionalCompletion t core src => Sys2Proof.Machine.execProvisionalCompletion t core src s
  | .cipherJobComplete t core src => Sys2Proof.Machine.execCipherJobComplete t core src s
  | .tellerPreempt t client kecc blocks src => Sys2Proof.Machine.execTellerPreempt t client kecc blocks src s
  | .coreSlowDeclare t core est blocks src => Sys2Proof.Machine.execCoreSlowDeclare t core est blocks src s
  | .slowCoreKat t core rate => Sys2Proof.Machine.execSlowCoreKat t core rate s
  | .mintMismatch t core client who block => Sys2Proof.Machine.execMintMismatch t core client who block s
  | .mintQuarantine t core client who block out fid => Sys2Proof.Machine.execMintQuarantine t core client who block out fid s
  | .coreRelease t who core => Sys2Proof.Machine.execCoreRelease t who core s
  | .selfTestDone t core pass => Sys2Proof.Machine.execSelfTestDone t core pass s
  | .coreQuarantineCmd t who core => Sys2Proof.Machine.execCoreQuarantineCmd t who core s
  | .encodingAnWrite t who port data => Sys2Proof.Machine.execEncodingAnWrite t who port data s
  | .generate t mb => Sys2Proof.Machine.execGenerate t mb s
  | .loadBlob t mb mem readOk => Sys2Proof.Machine.execLoadBlob t mb mem readOk s
  | .exportBlob t mb writeOk => Sys2Proof.Machine.execExportBlob t mb writeOk s
  | .erase t mb => Sys2Proof.Machine.execErase t mb s
  | .deriveSlot t mb mem readOk => Sys2Proof.Machine.execDeriveSlot t mb mem readOk s
  | .kwUnwrap t mb mem readOk => Sys2Proof.Machine.execKwUnwrap t mb mem readOk s
  | .kwWrap t mb writeOk => Sys2Proof.Machine.execKwWrap t mb writeOk s
  | .extend t mb mem readOk => Sys2Proof.Machine.execExtend t mb mem readOk s
  | .challenge t mb mem readOk writeOk => Sys2Proof.Machine.execChallenge t mb mem readOk writeOk s
  | .attest t mb mem readOk writeOk => Sys2Proof.Machine.execAttest t mb mem readOk writeOk s
  | .verify t mb mem pk msg sig readOk => Sys2Proof.Machine.execVerify t mb mem pk msg sig readOk s
  | .xmssPub t mb writeOk => Sys2Proof.Machine.execXmssPub t mb writeOk s
  | .ctrAdvance t mb nvmOk => Sys2Proof.Machine.execCtrAdvance t mb nvmOk s
  | .otpProg t mb mem readOk => Sys2Proof.Machine.execOtpProg t mb mem readOk s
  | .xmssKeygen t mb => Sys2Proof.Machine.execXmssKeygen t mb s
  | .sealLock t who => Sys2Proof.Machine.execSealLock t who s
  | .nvmWriteDone t ok => Sys2Proof.Machine.execNvmWriteDone t ok s
  | .shareRerandomise t bad => Sys2Proof.Machine.execShareRerandomise t bad s
  | .canTxEnqueue t ring desc data readOk => Sys2Proof.Machine.execCanTxEnqueue t ring desc data readOk s
  | .canFrameStart t chan sof ecc => Sys2Proof.Machine.execCanFrameStart t chan sof ecc s
  | .canArbitrationLost t chan => Sys2Proof.Machine.execCanArbitrationLost t chan s
  | .canFrameError t chan dTec dRec => Sys2Proof.Machine.execCanFrameError t chan dTec dRec s
  | .canTxComplete t chan eof => Sys2Proof.Machine.execCanTxComplete t chan eof s
  | .canTxCancel t who data => Sys2Proof.Machine.execCanTxCancel t who data s
  | .canFrameReceived t chan ident ide rtr fmt brs esi sdt vcid af data sof eof => Sys2Proof.Machine.execCanFrameReceived t chan ident ide rtr fmt brs esi sdt vcid af data sof eof s
  | .canRxRingDeliver t chan ring desc ecc => Sys2Proof.Machine.execCanRxRingDeliver t chan ring desc ecc s
  | .canWindowLockRead t who chan buf ecc => Sys2Proof.Machine.execCanWindowLockRead t who chan buf ecc s
  | .canWindowReleaseRead t who chan buf ecc => Sys2Proof.Machine.execCanWindowReleaseRead t who chan buf ecc s
  | .rxLockBroken t chan buf => Sys2Proof.Machine.execRxLockBroken t chan buf s
  | .canRecover t who chan => Sys2Proof.Machine.execCanRecover t who chan s
  | .recoveryComplete t chan => Sys2Proof.Machine.execRecoveryComplete t chan s
  | .stuckDominant t chan => Sys2Proof.Machine.execStuckDominant t chan s
  | .canPnWake t dec kind ident ide dlc data errs eof => Sys2Proof.Machine.execCanPnWake t dec kind ident ide dlc data errs eof s
  | .linScheduleSelect t who chan table run => Sys2Proof.Machine.execLinScheduleSelect t who chan table run s
  | .linSlotStart t chan => Sys2Proof.Machine.execLinSlotStart t chan s
  | .linHeaderReceived t chan ident err => Sys2Proof.Machine.execLinHeaderReceived t chan ident err s
  | .linFrameReceived t chan data err eof => Sys2Proof.Machine.execLinFrameReceived t chan data err eof s
  | .linNoResponse t chan => Sys2Proof.Machine.execLinNoResponse t chan s
  | .linIdleSleep t chan => Sys2Proof.Machine.execLinIdleSleep t chan s
  | .linWake t who chan => Sys2Proof.Machine.execLinWake t who chan s
  | .linWakeReceived t chan pulse => Sys2Proof.Machine.execLinWakeReceived t chan pulse s
  | .linScheduleResume t chan => Sys2Proof.Machine.execLinScheduleResume t chan s
  | .sgeSourceTake t elem ecc => Sys2Proof.Machine.execSgeSourceTake t elem ecc s
  | .secocRxVerify t fault => Sys2Proof.Machine.execSecocRxVerify t fault s
  | .signalTimeout t route => Sys2Proof.Machine.execSignalTimeout t route s
  | .minGapExpiry t pdu ecc => Sys2Proof.Machine.execMinGapExpiry t pdu ecc s
  | .periodicEmission t pdu ecc => Sys2Proof.Machine.execPeriodicEmission t pdu ecc s
  | .gateEmission t pdu ecc => Sys2Proof.Machine.execGateEmission t pdu ecc s
  | .pendingEmissionPlace t index => Sys2Proof.Machine.execPendingEmissionPlace t index s
  | .secocTxComplete t pdu fault => Sys2Proof.Machine.execSecocTxComplete t pdu fault s
  | .sgeTblRead t who table staged ecc => Sys2Proof.Machine.execSgeTblRead t who table staged ecc s
  | .sgeTblWrite t who table staged ecc => Sys2Proof.Machine.execSgeTblWrite t who table staged ecc s
  | .freshRead t who fn => Sys2Proof.Machine.execFreshRead t who fn s
  | .raise t who fn => Sys2Proof.Machine.execRaise t who fn s
  | .raiseAll t who => Sys2Proof.Machine.execRaiseAll t who s
  | .sgeRun t who run => Sys2Proof.Machine.execSgeRun t who run s
  | .doorbell t who ring index => Sys2Proof.Machine.execDoorbell t who ring index s
  | .transferStart t reads wrote => Sys2Proof.Machine.execTransferStart t reads wrote s
  | .frameTxHandover t ring => Sys2Proof.Machine.execFrameTxHandover t ring s
  | .gatherTmo t ring => Sys2Proof.Machine.execGatherTmo t ring s
  | .frameRxComplete t ring => Sys2Proof.Machine.execFrameRxComplete t ring s
  | .memoryCopyComplete t ring => Sys2Proof.Machine.execMemoryCopyComplete t ring s
  | .coalTimeout t ring => Sys2Proof.Machine.execCoalTimeout t ring s
  | .dmaError t ring kind ecc addr => Sys2Proof.Machine.execDmaError t ring kind ecc addr s
  | .ringStop t who ring => Sys2Proof.Machine.execRingStop t who ring s
  | .ringStopped t ring => Sys2Proof.Machine.execRingStopped t ring s
  | .ringStart t who ring => Sys2Proof.Machine.execRingStart t who ring s
  | .ringWithdraw t who ring => Sys2Proof.Machine.execRingWithdraw t who ring s
  | .ringClearErr t who ring => Sys2Proof.Machine.execRingClearErr t who ring s
  | .ringEnable t who ring data => Sys2Proof.Machine.execRingEnable t who ring data s
  | .ringDisable t who ring data => Sys2Proof.Machine.execRingDisable t who ring data s
  | .busMasterDisable t fn link => Sys2Proof.Machine.execBusMasterDisable t fn link s
  | .functionLevelReset t fn => Sys2Proof.Machine.execFunctionLevelReset t fn s
  | .pcieLinkUp t link speed width => Sys2Proof.Machine.execPcieLinkUp t link speed width s
  | .bar2Write t fn off bytes => Sys2Proof.Machine.execBar2Write t fn off bytes s
  | .bar0PartialWrite t fn off => Sys2Proof.Machine.execBar0PartialWrite t fn off s
  | .postedWriteError t who addr data code => Sys2Proof.Machine.execPostedWriteError t who addr data code s
  | .targetTimeout t who addr data write since => Sys2Proof.Machine.execTargetTimeout t who addr data write since s
  | .pwePop t who => Sys2Proof.Machine.execPwePop t who s
  | .lrW t hart addr => Sys2Proof.Machine.execLrW t hart addr s
  | .scW t hart addr data => Sys2Proof.Machine.execScW t hart addr data s
  | .amoW t hart op addr data => Sys2Proof.Machine.execAmoW t hart op addr data s
  | .exclusive64Access t hart addr => Sys2Proof.Machine.execExclusive64Access t hart addr s
  | .monitorTimeout t hart => Sys2Proof.Machine.execMonitorTimeout t hart s
  | .safeErrorReport t src code sev info => Sys2Proof.Machine.execSafeErrorReport t src code sev info s
  | .safeEcAck t who => Sys2Proof.Machine.execSafeEcAck t who s
  | .safeEcOvfClr t who => Sys2Proof.Machine.execSafeEcOvfClr t who s
  | .faultSet t who => Sys2Proof.Machine.execFaultSet t who s
  | .faultRelease t who => Sys2Proof.Machine.execFaultRelease t who s
  | .ledgerAccept t => Sys2Proof.Machine.execLedgerAccept t s
  | .timeAnchor t => Sys2Proof.Machine.execTimeAnchor t s
  | .anchorMsWrite t who data => Sys2Proof.Machine.execAnchorMsWrite t who data s
  | .ledgerLost t => Sys2Proof.Machine.execLedgerLost t s
  | .exportEnable t who data => Sys2Proof.Machine.execExportEnable t who data s
  | .exportBufferFull t ecc => Sys2Proof.Machine.execExportBufferFull t ecc s
  | .exportFlushTimeout t ecc => Sys2Proof.Machine.execExportFlushTimeout t ecc s
  | .park t who => Sys2Proof.Machine.execPark t who s
  | .parkCancel t who => Sys2Proof.Machine.execParkCancel t who s
  | .drainComplete t => Sys2Proof.Machine.execDrainComplete t s
  | .drainTimeout t => Sys2Proof.Machine.execDrainTimeout t s
  | .parkCommit t => Sys2Proof.Machine.execParkCommit t s
  | .pmicEnableStep t => Sys2Proof.Machine.execPmicEnableStep t s
  | .wakeInDetect t levels => Sys2Proof.Machine.execWakeInDetect t levels s
  | .rtcAlarm t => Sys2Proof.Machine.execRtcAlarm t s
  | .tc10WakeDetect t edge => Sys2Proof.Machine.execTc10WakeDetect t edge s
  | .wakeSequenceStart t pgLow => Sys2Proof.Machine.execWakeSequenceStart t pgLow s
  | .pmicPgRise t => Sys2Proof.Machine.execPmicPgRise t s
  | .pllLock t clk => Sys2Proof.Machine.execPllLock t clk s
  | .restoreDone t ecc => Sys2Proof.Machine.execRestoreDone t ecc s
  | .pmicPgTimeout t => Sys2Proof.Machine.execPmicPgTimeout t s
  | .pmicFaultInput t irqN => Sys2Proof.Machine.execPmicFaultInput t irqN s
  | .pmicSpiWrite t back back2 => Sys2Proof.Machine.execPmicSpiWrite t back back2 s
  | .avsUpdate t need => Sys2Proof.Machine.execAvsUpdate t need s
  | .idleGatingStart t => Sys2Proof.Machine.execIdleGatingStart t s
  | .idleGatingEnd t => Sys2Proof.Machine.execIdleGatingEnd t s
  | .domainPowerDown t who dom => Sys2Proof.Machine.execDomainPowerDown t who dom s
  | .domainPowerUp t who dom => Sys2Proof.Machine.execDomainPowerUp t who dom s
  | .triadSingleMismatch t copy tcm group pc => Sys2Proof.Machine.execTriadSingleMismatch t copy tcm group pc s
  | .triadRejoin t => Sys2Proof.Machine.execTriadRejoin t s
  | .triadDoubleMismatch t copies group pc => Sys2Proof.Machine.execTriadDoubleMismatch t copies group pc s
  | .triadRestart t ecc => Sys2Proof.Machine.execTriadRestart t ecc s
  | .triadWdtKick t who data => Sys2Proof.Machine.execTriadWdtKick t who data s
  | .triadWdtExpiry t => Sys2Proof.Machine.execTriadWdtExpiry t s
  | .cwdtKick t who => Sys2Proof.Machine.execCwdtKick t who s
  | .cwdtExpiry t => Sys2Proof.Machine.execCwdtExpiry t s
  | .dmiAccess t dm addr op data => Sys2Proof.Machine.execDmiAccess t dm addr op data s
  | .debugHaltRequest t dm harts => Sys2Proof.Machine.execDebugHaltRequest t dm harts s
  | .debugResumeRequest t dm harts => Sys2Proof.Machine.execDebugResumeRequest t dm harts s
  | .abstractCommand t dm harts odd => Sys2Proof.Machine.execAbstractCommand t dm harts odd s
  | .systemBusAccess t write addr data => Sys2Proof.Machine.execSystemBusAccess t write addr data s
  | .tokenSubmit t who => Sys2Proof.Machine.execTokenSubmit t who s
  | .lcDeploy t who => Sys2Proof.Machine.execLcDeploy t who s
  | .sessionClose t who => Sys2Proof.Machine.execSessionClose t who s
  | .sessionExpiry t => Sys2Proof.Machine.execSessionExpiry t s
  | .tokenClaim t samples fltIn => Sys2Proof.Machine.execTokenClaim t samples fltIn s
  | .guardedPortsRelease t => Sys2Proof.Machine.execGuardedPortsRelease t s
  | .pairActLineFault t cycles => Sys2Proof.Machine.execPairActLineFault t cycles s
  | .leaseExpiry t => Sys2Proof.Machine.execLeaseExpiry t s
  | .holdoffExpiry t => Sys2Proof.Machine.execHoldoffExpiry t s
  | .pairCycleClose t => Sys2Proof.Machine.execPairCycleClose t s
  | .bundleReceive t crcOk flags ver cycle lt len secs => Sys2Proof.Machine.execBundleReceive t crcOk flags ver cycle lt len secs s
  | .selfCheckEnd t mintOk replayOk eccOk => Sys2Proof.Machine.execSelfCheckEnd t mintOk replayOk eccOk s
  | .selfCheckResultTimeout t => Sys2Proof.Machine.execSelfCheckResultTimeout t s
  | .pairAccept t who => Sys2Proof.Machine.execPairAccept t who s
  | .acceptExpiry t => Sys2Proof.Machine.execAcceptExpiry t s
  | .pairHandover t who => Sys2Proof.Machine.execPairHandover t who s
  | .handoverRelease t => Sys2Proof.Machine.execHandoverRelease t s
  | .clearAlert t who => Sys2Proof.Machine.execClearAlert t who s
  | .cfgCommit t who => Sys2Proof.Machine.execCfgCommit t who s
  | .cfgLoad t who ecc => Sys2Proof.Machine.execCfgLoad t who ecc s
  | .cfgLoadComplete t => Sys2Proof.Machine.execCfgLoadComplete t s
  | .cfgActivate t who => Sys2Proof.Machine.execCfgActivate t who s
  | .cfgRollback t who => Sys2Proof.Machine.execCfgRollback t who s
  | .cfgCancel t who => Sys2Proof.Machine.execCfgCancel t who s
  | .cfgFloor t who nvmOk => Sys2Proof.Machine.execCfgFloor t who nvmOk s
  | .activationEffect t => Sys2Proof.Machine.execActivationEffect t s
  | .gclApply t => Sys2Proof.Machine.execGclApply t s
  | .fwRestart t who ecc => Sys2Proof.Machine.execFwRestart t who ecc s
  | .fwDone t who => Sys2Proof.Machine.execFwDone t who s
  | .irqRouteWrite t who agent data => Sys2Proof.Machine.execIrqRouteWrite t who agent data s
  | .clockReturn t => Sys2Proof.Machine.execClockReturn t s
  | .resetNRelease t straps dir0 dir1 obj0 obj1 => Sys2Proof.Machine.execResetNRelease t straps dir0 dir1 obj0 obj1 s
  | .vddioSupplyChange t bank mv => Sys2Proof.Machine.execVddioSupplyChange t bank mv s
  | .busMasterEnable t fn => Sys2Proof.Machine.execBusMasterEnable t fn s
  | .tc10SleepRequestRx t edge => Sys2Proof.Machine.execTc10SleepRequestRx t edge s
  | .canChannelReady t chan => Sys2Proof.Machine.execCanChannelReady t chan s
  | .prbsCheckerError t port k => Sys2Proof.Machine.execPrbsCheckerError t port k s
  | .tapInstruction t ins => Sys2Proof.Machine.execTapInstruction t ins s

end Sys2Proof.Machine
end

