-- ==== Sys2Proof/Machine/Step.lean ====
section
/-! DEFINITION. One step: the command at the front of the queue, or one FCLK cycle where none waits. -/

namespace Sys2Proof.Machine

/-- Nothing is commanded: one FCLK cycle passes, 10 counts of LT, or one tick of the crystal while FCLK does not run (R14, R33, R840; log
entry 1). -/
def idleCycle (s : State) : Host.Outcome State Fault Refusal := s.core s.nextLt fun now m => canSettle m now

/-- Take the command at the front of the queue and run it with the queue's rest. -/
def step (s : State) : Host.Outcome State Fault Refusal :=
  match s.pending with
  | [] => idleCycle s
  | c :: rest => exec c { s with pending := rest }

/-- The state with the command that a word spells at the front of its queue; the state itself where the word spells none. -/
def State.withFetchWord (s : State) (nbits w : Nat) : State :=
  match Sys2Proof.decodeTableWord nbits w with
  | some c => { s with pending := c :: s.pending }
  | none => s

end Sys2Proof.Machine
end

