-- ==== Sys2Proof/WellFormed.lean ====
section
/-! DEFINITION. Which commands can be sent: bounds that an operand's type does not state. No meaning relies on them; a command that
breaks one stands for nothing that happens on the pins or buses of the device. -/

namespace Sys2Proof

/-- Well-formed commands: lengths of frames, records and messages, table indices, and offsets within BAR0, BAR2 and the range of BRG
(R556, R557, R612). -/
def Instr.wf : Instr → Bool
  | .usxgmiiSpeedWord _ _ code => decide (code < 65536)
  | .linkUp _ _ word _ => decide (word < 65536)
  | .frameReceive _ _ bytes .. => !bytes.isEmpty
  | .tableScrub _ table index => decide (index < [4096, 65536, 4096, 2048, 1024, 4096, 1024, 4096, 64].getD table 0)
  | .cipherJobStart _ desc _ _ _ _ _ => desc.length == 32
  | .canTxEnqueue _ _ desc _ _ => desc.length == 32
  | .canFrameReceived _ _ ident ide _ _ _ _ _ _ _ data _ _ => (ide || decide (ident.toNat < 2048)) && decide (data.length ≤ 2048)
  | .canPnWake _ _ _ ident ide _ data _ _ => (ide || decide (ident.toNat < 2048)) && decide (data.length ≤ 8)
  | .linFrameReceived _ _ data .. => decide (data.1.length ≤ 8)
  | .bar2Write _ _ off bytes => !bytes.isEmpty && decide (off + bytes.length ≤ 0x4000000)
  | .bar0PartialWrite _ _ off => decide (off < 0x2000000)
  | .postedWriteError _ _ addr _ _ => decide (0x40000000 ≤ addr) && decide (addr < 0x42000000) && addr % 4 == 0
  | .targetTimeout _ _ addr _ _ _ => decide (0x40000000 ≤ addr) && decide (addr < 0x42000000) && addr % 4 == 0
  | .exclusive64Access _ _ addr => decide (addr < 0x100000000)
  | .safeErrorReport _ _ _ _ info => decide (info < 0x100000000)
  | .registerWrite .. | .errClr .. | .lowWordRead .. | .highWordRead .. | .rcRead .. | .counterClear .. | .ltFloorAdvance ..
  | .powerOn .. | .brownOut .. | .resetNInput .. | .coldResetCmd .. | .coldReset .. | .bootRecoveryGo .. | .triadWindowWrite ..
  | .triadGo .. | .clockLoss .. | .temperatureScan .. | .linkTrainingStart .. | .trainFail .. | .retrainDelayExpiry .. | .linkDown ..
  | .portDisable .. | .tc10SleepReq .. | .tc10SleepComplete .. | .tc10WakeReq .. | .tc10WakeReceived .. | .warmFallback ..
  | .plcaLost .. | .plcaBeaconReturn .. | .headReady .. | .laneSelection .. | .laneDecision .. | .tailVerified .. | .ctOverlen ..
  | .ctUnderrun .. | .laneSlow .. | .laneClear .. | .laneCfgWrite .. | .returnAll .. | .lagTableRebuild .. | .tblRead .. | .tblWrite ..
  | .tblInsert .. | .tblDelete .. | .tblSearch .. | .tblClearState .. | .ctAgerVisit .. | .ctRead .. | .ctInsert .. | .ctDelete ..
  | .ctFlush .. | .schedulerGrant .. | .residenceExpiry .. | .copyTxEnd .. | .bufferScrub .. | .mcResidueAgeExpiry .. | .holdExpiry ..
  | .tmPortFlush .. | .schPortCfgWrite .. | .quantumWrite .. | .cbsCfgWrite .. | .purseCfgWrite .. | .rateWrite .. | .offsetCommand ..
  | .workingDomainChange .. | .slewDone .. | .holdoverEntry .. | .baseCycleBoundary .. | .timeSnap .. | .txtsPop ..
  | .gateEntryChange .. | .gateSwapRequest .. | .gateSwapCancel .. | .gateChangeTime .. | .gateDisable .. | .macHoldStart ..
  | .macHoldEnd .. | .preemptionVerify .. | .verifyResponse .. | .verifyFail .. | .trimGateStart .. | .trimRestore ..
  | .recoveryResetTimer .. | .recoveryEntryWrite .. | .provisionalCompletion .. | .cipherJobComplete .. | .tellerPreempt ..
  | .coreSlowDeclare .. | .slowCoreKat .. | .mintMismatch .. | .mintQuarantine .. | .coreRelease .. | .selfTestDone ..
  | .coreQuarantineCmd .. | .encodingAnWrite .. | .generate .. | .loadBlob .. | .exportBlob .. | .erase .. | .deriveSlot ..
  | .kwUnwrap .. | .kwWrap .. | .extend .. | .challenge .. | .attest .. | .verify .. | .xmssPub .. | .ctrAdvance .. | .otpProg ..
  | .xmssKeygen .. | .sealLock .. | .nvmWriteDone .. | .shareRerandomise .. | .canFrameStart .. | .canArbitrationLost ..
  | .canFrameError .. | .canTxComplete .. | .canTxCancel .. | .canRxRingDeliver .. | .canWindowLockRead .. | .canWindowReleaseRead ..
  | .rxLockBroken .. | .canRecover .. | .recoveryComplete .. | .stuckDominant .. | .linScheduleSelect .. | .linSlotStart ..
  | .linHeaderReceived .. | .linNoResponse .. | .linIdleSleep .. | .linWake .. | .linWakeReceived .. | .linScheduleResume ..
  | .sgeSourceTake .. | .secocRxVerify .. | .signalTimeout .. | .minGapExpiry .. | .periodicEmission .. | .gateEmission ..
  | .pendingEmissionPlace .. | .secocTxComplete .. | .sgeTblRead .. | .sgeTblWrite .. | .freshRead .. | .raise .. | .raiseAll ..
  | .sgeRun .. | .doorbell .. | .transferStart .. | .frameTxHandover .. | .gatherTmo .. | .frameRxComplete .. | .memoryCopyComplete ..
  | .coalTimeout .. | .dmaError .. | .ringStop .. | .ringStopped .. | .ringStart .. | .ringWithdraw .. | .ringClearErr ..
  | .ringEnable .. | .ringDisable .. | .busMasterDisable .. | .functionLevelReset .. | .pcieLinkUp .. | .pwePop .. | .lrW .. | .scW ..
  | .amoW .. | .monitorTimeout .. | .safeEcAck .. | .safeEcOvfClr .. | .faultSet .. | .faultRelease .. | .ledgerAccept ..
  | .timeAnchor .. | .anchorMsWrite .. | .ledgerLost .. | .exportEnable .. | .exportBufferFull .. | .exportFlushTimeout .. | .park ..
  | .parkCancel .. | .drainComplete .. | .drainTimeout .. | .parkCommit .. | .pmicEnableStep .. | .wakeInDetect .. | .rtcAlarm ..
  | .tc10WakeDetect .. | .wakeSequenceStart .. | .pmicPgRise .. | .pllLock .. | .restoreDone .. | .pmicPgTimeout ..
  | .pmicFaultInput .. | .pmicSpiWrite .. | .avsUpdate .. | .idleGatingStart .. | .idleGatingEnd .. | .domainPowerDown ..
  | .domainPowerUp .. | .triadSingleMismatch .. | .triadRejoin .. | .triadDoubleMismatch .. | .triadRestart .. | .triadWdtKick ..
  | .triadWdtExpiry .. | .cwdtKick .. | .cwdtExpiry .. | .dmiAccess .. | .debugHaltRequest .. | .debugResumeRequest ..
  | .abstractCommand .. | .systemBusAccess .. | .tokenSubmit .. | .lcDeploy .. | .sessionClose .. | .sessionExpiry .. | .tokenClaim ..
  | .guardedPortsRelease .. | .pairActLineFault .. | .leaseExpiry .. | .holdoffExpiry .. | .pairCycleClose .. | .bundleReceive ..
  | .selfCheckEnd .. | .selfCheckResultTimeout .. | .pairAccept .. | .acceptExpiry .. | .pairHandover .. | .handoverRelease ..
  | .clearAlert .. | .cfgCommit .. | .cfgLoad .. | .cfgLoadComplete .. | .cfgActivate .. | .cfgRollback .. | .cfgCancel ..
  | .cfgFloor .. | .activationEffect .. | .gclApply .. | .fwRestart .. | .fwDone .. | .irqRouteWrite .. | .clockReturn ..
  | .resetNRelease .. | .vddioSupplyChange .. | .busMasterEnable .. | .tc10SleepRequestRx .. | .canChannelReady ..
  | .prbsCheckerError .. | .tapInstruction .. => true

/-- The LT at which a command happens, by its own account: Ledger time never moves back for it (R14). -/
def Instr.at : Instr → Nat
  | .registerWrite t .. | .errClr t .. | .lowWordRead t .. | .highWordRead t .. | .rcRead t .. | .counterClear t ..
  | .ltFloorAdvance t .. | .powerOn t .. | .brownOut t .. | .resetNInput t .. | .coldResetCmd t .. | .coldReset t ..
  | .bootRecoveryGo t .. | .triadWindowWrite t .. | .triadGo t .. | .clockLoss t .. | .temperatureScan t .. | .usxgmiiSpeedWord t ..
  | .linkTrainingStart t .. | .trainFail t .. | .retrainDelayExpiry t .. | .linkUp t .. | .linkDown t .. | .portDisable t ..
  | .tc10SleepReq t .. | .tc10SleepComplete t .. | .tc10WakeReq t .. | .tc10WakeReceived t .. | .warmFallback t .. | .plcaLost t ..
  | .plcaBeaconReturn t .. | .frameReceive t .. | .headReady t .. | .laneSelection t .. | .laneDecision t .. | .tailVerified t ..
  | .ctOverlen t .. | .ctUnderrun t .. | .laneSlow t .. | .laneClear t .. | .laneCfgWrite t .. | .returnAll t ..
  | .lagTableRebuild t .. | .tblRead t .. | .tblWrite t .. | .tblInsert t .. | .tblDelete t .. | .tblSearch t .. | .tblClearState t ..
  | .tableScrub t .. | .ctAgerVisit t .. | .ctRead t .. | .ctInsert t .. | .ctDelete t .. | .ctFlush t .. | .schedulerGrant t ..
  | .residenceExpiry t .. | .copyTxEnd t .. | .bufferScrub t .. | .mcResidueAgeExpiry t .. | .holdExpiry t .. | .tmPortFlush t ..
  | .schPortCfgWrite t .. | .quantumWrite t .. | .cbsCfgWrite t .. | .purseCfgWrite t .. | .rateWrite t .. | .offsetCommand t ..
  | .workingDomainChange t .. | .slewDone t .. | .holdoverEntry t .. | .baseCycleBoundary t .. | .timeSnap t .. | .txtsPop t ..
  | .gateEntryChange t .. | .gateSwapRequest t .. | .gateSwapCancel t .. | .gateChangeTime t .. | .gateDisable t ..
  | .macHoldStart t .. | .macHoldEnd t .. | .preemptionVerify t .. | .verifyResponse t .. | .verifyFail t .. | .trimGateStart t ..
  | .trimRestore t .. | .recoveryResetTimer t .. | .recoveryEntryWrite t .. | .cipherJobStart t .. | .provisionalCompletion t ..
  | .cipherJobComplete t .. | .tellerPreempt t .. | .coreSlowDeclare t .. | .slowCoreKat t .. | .mintMismatch t ..
  | .mintQuarantine t .. | .coreRelease t .. | .selfTestDone t .. | .coreQuarantineCmd t .. | .encodingAnWrite t .. | .generate t ..
  | .loadBlob t .. | .exportBlob t .. | .erase t .. | .deriveSlot t .. | .kwUnwrap t .. | .kwWrap t .. | .extend t .. | .challenge t ..
  | .attest t .. | .verify t .. | .xmssPub t .. | .ctrAdvance t .. | .otpProg t .. | .xmssKeygen t .. | .sealLock t ..
  | .nvmWriteDone t .. | .shareRerandomise t .. | .canTxEnqueue t .. | .canFrameStart t .. | .canArbitrationLost t ..
  | .canFrameError t .. | .canTxComplete t .. | .canTxCancel t .. | .canFrameReceived t .. | .canRxRingDeliver t ..
  | .canWindowLockRead t .. | .canWindowReleaseRead t .. | .rxLockBroken t .. | .canRecover t .. | .recoveryComplete t ..
  | .stuckDominant t .. | .canPnWake t .. | .linScheduleSelect t .. | .linSlotStart t .. | .linHeaderReceived t ..
  | .linFrameReceived t .. | .linNoResponse t .. | .linIdleSleep t .. | .linWake t .. | .linWakeReceived t .. | .linScheduleResume t ..
  | .sgeSourceTake t .. | .secocRxVerify t .. | .signalTimeout t .. | .minGapExpiry t .. | .periodicEmission t .. | .gateEmission t ..
  | .pendingEmissionPlace t .. | .secocTxComplete t .. | .sgeTblRead t .. | .sgeTblWrite t .. | .freshRead t .. | .raise t ..
  | .raiseAll t .. | .sgeRun t .. | .doorbell t .. | .transferStart t .. | .frameTxHandover t .. | .gatherTmo t ..
  | .frameRxComplete t .. | .memoryCopyComplete t .. | .coalTimeout t .. | .dmaError t .. | .ringStop t .. | .ringStopped t ..
  | .ringStart t .. | .ringWithdraw t .. | .ringClearErr t .. | .ringEnable t .. | .ringDisable t .. | .busMasterDisable t ..
  | .functionLevelReset t .. | .pcieLinkUp t .. | .bar2Write t .. | .bar0PartialWrite t .. | .postedWriteError t ..
  | .targetTimeout t .. | .pwePop t .. | .lrW t .. | .scW t .. | .amoW t .. | .exclusive64Access t .. | .monitorTimeout t ..
  | .safeErrorReport t .. | .safeEcAck t .. | .safeEcOvfClr t .. | .faultSet t .. | .faultRelease t .. | .ledgerAccept t ..
  | .timeAnchor t .. | .anchorMsWrite t .. | .ledgerLost t .. | .exportEnable t .. | .exportBufferFull t .. | .exportFlushTimeout t ..
  | .park t .. | .parkCancel t .. | .drainComplete t .. | .drainTimeout t .. | .parkCommit t .. | .pmicEnableStep t ..
  | .wakeInDetect t .. | .rtcAlarm t .. | .tc10WakeDetect t .. | .wakeSequenceStart t .. | .pmicPgRise t .. | .pllLock t ..
  | .restoreDone t .. | .pmicPgTimeout t .. | .pmicFaultInput t .. | .pmicSpiWrite t .. | .avsUpdate t .. | .idleGatingStart t ..
  | .idleGatingEnd t .. | .domainPowerDown t .. | .domainPowerUp t .. | .triadSingleMismatch t .. | .triadRejoin t ..
  | .triadDoubleMismatch t .. | .triadRestart t .. | .triadWdtKick t .. | .triadWdtExpiry t .. | .cwdtKick t .. | .cwdtExpiry t ..
  | .dmiAccess t .. | .debugHaltRequest t .. | .debugResumeRequest t .. | .abstractCommand t .. | .systemBusAccess t ..
  | .tokenSubmit t .. | .lcDeploy t .. | .sessionClose t .. | .sessionExpiry t .. | .tokenClaim t .. | .guardedPortsRelease t ..
  | .pairActLineFault t .. | .leaseExpiry t .. | .holdoffExpiry t .. | .pairCycleClose t .. | .bundleReceive t .. | .selfCheckEnd t ..
  | .selfCheckResultTimeout t .. | .pairAccept t .. | .acceptExpiry t .. | .pairHandover t .. | .handoverRelease t ..
  | .clearAlert t .. | .cfgCommit t .. | .cfgLoad t .. | .cfgLoadComplete t .. | .cfgActivate t .. | .cfgRollback t ..
  | .cfgCancel t .. | .cfgFloor t .. | .activationEffect t .. | .gclApply t .. | .fwRestart t .. | .fwDone t .. | .irqRouteWrite t ..
  | .clockReturn t .. | .resetNRelease t .. | .vddioSupplyChange t .. | .busMasterEnable t .. | .tc10SleepRequestRx t ..
  | .canChannelReady t .. | .prbsCheckerError t .. | .tapInstruction t .. => t

end Sys2Proof
end

