-- ==== Sys2Proof/Safety.lean ====
section
/-! DEFINITION. What counts as a safe run: no command stops the device, Ledger time never moves back (R14), and the commands of a queue
are taken in their order. With it the words that the statements are written in: how a command finds the device, when a block takes a
register write, and what a write leaves. -/

namespace Sys2Proof.Machine

/-- A step that does not stop the device. -/
def Completes (r : Host.Outcome State Fault Refusal) : Prop := ∃ u, r = .next u

/-- The state after `n` steps, none of which stops the device. -/
def after : Nat → State → Option State
  | 0, s => some s
  | n + 1, s =>
    match step s with
    | .next u => after n u
    | _ => none

/-- Every stored word of the register file and every byte of system SRAM is listed once, in rising order, and only where it differs from
what an unlisted address reads as. -/
def Chip.canonical (m : Chip) : Bool :=
  rising m.regs && (m.regs.all fun p => p.2 != resetWord p.1) && rising m.cnts && (m.cnts.all fun p => p.2 != 0) && Memory.wf m.dma.sram

/-! ### How a command finds the device -/

/-- A command of LT `t` finds the device at `m`, at the LT `now` at which it happens. -/
def FindsAny (s : State) (t : Nat) (m : Chip) (now : Nat) : Prop := s.found t = m ∧ s.when_ t = now

/-- The same with the CORE domain running (R671). -/
def Finds (s : State) (t : Nat) (m : Chip) (now : Nat) : Prop := FindsAny s t m now ∧ coreOn m = true

/-- The same for the CAN channels, which run on through a wake (R692): `m` is the device with the cancellations that are due. -/
def FindsCan (s : State) (t : Nat) (m : Chip) (now : Nat) : Prop :=
  s.when_ t = now ∧ canOn (s.found t) = true ∧ canSettle (s.found t) now = m

/-- Commands that logic outside the CORE domain takes: power, reset, wake, the PMIC, NVM, the pairing lease, JTAG, and CAN. -/
def outsideCore : Instr → Bool
  | .wakeInDetect .. | .rtcAlarm .. | .tc10WakeDetect .. | .restoreDone .. | .leaseExpiry .. | .holdoffExpiry .. | .ltFloorAdvance ..
  | .powerOn .. | .brownOut .. | .resetNInput .. | .resetNRelease .. | .coldReset .. | .vddioSupplyChange .. | .clockLoss ..
  | .clockReturn .. | .parkCommit .. | .pmicEnableStep .. | .canPnWake .. | .wakeSequenceStart .. | .pmicPgRise .. | .pllLock ..
  | .pmicPgTimeout .. | .pmicSpiWrite .. | .tapInstruction .. | .nvmWriteDone .. | .canTxEnqueue .. | .canFrameStart ..
  | .canArbitrationLost .. | .canFrameError .. | .canTxComplete .. | .canFrameReceived .. | .canRxRingDeliver .. | .rxLockBroken ..
  | .recoveryComplete .. | .stuckDominant .. | .canChannelReady .. => true
  | _ => false

/-! ### Register accesses (R11, R12, R612-R617, R839) -/

/-- An access that an initiator sends at LT `t` is accepted at LT `u` (R612, R613, R617) and happens at LT `now`, where it finds the device
at `m`: cancellations of CAN messages that are due are done, and BRG has taken the access. -/
def Accepts (s : State) (t who a : Nat) (wr posted : Bool) (u : Nat) (m : Chip) (now : Nat) : Prop :=
  s.accept t who a wr = u ∧ s.when_ u = now ∧ coreOn (s.found u) = true ∧ brgTake (canSettle (s.found u) now) now who a posted = m

/-- The word that a write finds: 0 where the register is write-only. -/
def oldWord (m : Chip) (a : Nat) : Nat :=
  match regRow a with
  | some (_, r, _) => if r.kind = .writeOnly then 0 else rdN m a
  | none => 0

/-- The word that a write leaves: RW fields take the data, RWL fields while they are open, W1C and W1S bits act, but for events of the
same cycle, and the rest stays (R11, R12, R13). -/
def newWord (m : Chip) (a data : Nat) : Nat :=
  match regRow a with
  | some (_, r, _) => fieldsWritten (committed m) r (oldWord m a) data (freshBits m a)
  | none => 0

/-- The device with the fields of a write stored, before the write's effect; `<BLK>_ERR_CLR` clears the record of its block (R836). -/
def stored (m : Chip) (a data : Nat) : Chip :=
  match regRow a with
  | some (b, r, _) =>
    let m1 := if r.kind = .writeOnly then m else wrN m a (newWord m a data)
    if r.off = 0xC && bit data 0 then wrN m1 (errCapture b) 0 else m1
  | none => m

/-- An initiator can send a write of a word in BRG's range, and the write finds `x` there (R612-R616, R720, R721). -/
def carries (m : Chip) (who a : Nat) (x : Reach) : Bool := sends m who && !serviceDenied m who a true && brgRange a && reach m a == x

/-- A row that holds fields: neither the MSI-X table nor the load window, and not read only. -/
def fieldRow (b : Blk) (r : RegRow) : Bool :=
  !(b == .hif && r.off == 0x70000) && !(b == .safe && r.off == 0x40000) && (r.kind == .stored || r.kind == .writeOnly)

/-- After commit, a write would change an RWL field (R12). -/
def rwlBroken (m : Chip) (r : RegRow) (a data : Nat) : Bool := committed m && Nat.land (Nat.xor (oldWord m a) data) r.rwl != 0

/-- The data of a write as its register judges it (R12). -/
def judged (m : Chip) (r : RegRow) (a data : Nat) : Nat := dataJudged (committed m) r (oldWord m a) data

/-- No check of a row refuses a write: every field's value is in range and applies, and the block's chapter does not refuse it (R69, R839). -/
def allowed (m : Chip) (now who : Nat) (b : Blk) (r : RegRow) (a data : Nat) : Bool :=
  blockFirst b a (judged m r a data) == none && rangeCause (committed m) r (oldWord m a) data == none
    && blockCheck m now who b a (oldWord m a) (newWord m a data) (judged m r a data) == 0

/-- A write that its block takes whole: the initiator can send it, BRG carries it to a register that is powered, no RWL field that it would
change is read only, and no check refuses it (R11, R12, R612-R616, R839). -/
def taken (m : Chip) (now who a data : Nat) : Bool :=
  carries m who a .ok &&
    match regRow a with
    | some (b, r, _) => fieldRow b r && !rwlBroken m r a data && allowed m now who b r a data
    | none => false

/-- A command of LT `t` is a write that BRG accepts at LT `u` and carries to where it finds `x`: at LT `now` it finds the device at `m`, where
the monitors on the word are gone (R623). -/
def Reaches (s : State) (t u : Nat) (m : Chip) (now who a : Nat) (x : Reach) : Prop :=
  ∃ m0, Accepts s t who a true (isPosted s.chip who) u m0 now ∧ monClear m0 a = m ∧ carries m who a x = true

/-- A command of LT `t` is a register write that BRG accepts at LT `u` and the block takes whole: at LT `now` it finds the device at `m`,
where the monitors on the word are gone (R623). -/
def Writes (s : State) (t u : Nat) (m : Chip) (now who a data : Nat) : Prop :=
  ∃ m0, Accepts s t who a true (isPosted s.chip who) u m0 now ∧ monClear m0 a = m ∧ taken m now who a data = true

/-- The device after a taken write with the effect `f`: its fields stored, the effect, the summary bits of the block set where an enabled
event shows (R838). -/
def effected (m : Chip) (a data : Nat) (b : Blk) (f : Chip → Chip) : Chip := resummary (f (stored m a data)) b

/-- The device after a taken write whose effect is at once: the effect, and the writes applied that a port held while its domain was off
(R70). -/
def wrote (m : Chip) (now a data : Nat) (b : Blk) (f : Chip → Chip) : Chip := applyHeld (effected m a data b f) now

/-- The device after a taken write that is in force from the next cycle on: it waits for that cycle (R120, R262, R274, R291, R302). -/
def noted (m : Chip) (now who a data : Nat) : Chip := applyHeld (nextCycle m now (.write who a data)) now

/-- A mailbox whose operation the Vault performs now: no check refuses it, and a core is there for it if it needs one (R32, R427-R431). -/
def serves (m : Chip) (mb op : Nat) (readOk : Bool) : Bool :=
  m.vault.queue.head? == some mb && (vreq m mb).op == op && m.pwr.mode == .run && domOn m 15 && vJudge m (vreq m mb) readOk == none
    && !(onCore op && poolEmpty m)

end Sys2Proof.Machine
end

