-- ==== Sys2Proof/Certificates/Slice0/Obligations.lean ====
section
/-! DEFINITION. The statements for the provers. Those whose names end in `Complete` say, for every command of the table, at which next
state it answers and under which conditions: the state is `s.done t E`, the queue's rest, the LT of the command, and the device at `E`. -/

open Sys2Proof Sys2Proof.Machine

/-- The queue is first in, first out: a step of `s` with `c` in front is `exec c` on `s` with the queue's rest. -/
def Obligations.StepRunsFrontCommand : Prop :=
  ∀ (c : Instr) (s : State), step { s with pending := c :: s.pending } = exec c s

/-- Log entry 1 (a choice of the model): a step of an empty queue is one FCLK cycle of 10 counts (R840), or one tick of the crystal (R33). -/
def Obligations.EmptyQueuePassesOneCycle : Prop :=
  ∀ s : State, s.pending = [] →
    (coreOn (s.found s.nextLt) = true → step s = .next (s.done s.nextLt (canSettle (s.found s.nextLt) (s.when_ s.nextLt)))) ∧
    (coreOn (s.found s.nextLt) = false → step s = .next (s.done s.nextLt (s.found s.nextLt))) ∧
    (s.chip.pwr.fclk = true → s.when_ s.nextLt = s.lt + 10) ∧
    (s.chip.pwr.fclk = false → s.chip.pwr.mode ≠ .off → s.when_ s.nextLt = s.lt + (s.chip.pwr.frac + 1953125) / 16)

/-- What reset leaves: reset words, counters at 0 (R68), FAULT asserted (R633), every TM port DOWN. -/
def Obligations.ResetState : Prop :=
  (∀ a, rd State.reset.chip a = resetWord a) ∧ (∀ a, cnt State.reset.chip a = 0) ∧
    State.reset.chip.safe.fault = true ∧ State.reset.chip.safe.q = [] ∧ State.reset.chip.pair.active = false ∧
    (∀ n : Fin 24, tmPort State.reset.chip n = .down) ∧ State.reset.chip.tm.frames = [] ∧ State.reset.chip.tm.copies = [] ∧
    committed State.reset.chip = false ∧ State.reset.chip.canonical = true ∧ State.reset.pending = []

/-- No command stops the device; LT becomes that of the cycle, or of the tick, of the command, or of a later one in which BRG accepts it (R14, R33, R612, R840). -/
def Obligations.EveryCommandCompletes : Prop :=
  ∀ (c : Instr) (s : State), ∃ u, exec c s = .next u ∧ u.pending = s.pending ∧ s.lt ≤ u.lt ∧ c.at < u.lt + 122071 ∧
    (s.chip.pwr.fclk = true → c.at < u.lt + cyc)

/-- A headline over whole runs: every queue of commands is worked off, in as many steps, with LT at the cycle or tick of each of them or past it. -/
def Obligations.QueueRunsToItsEnd : Prop :=
  ∀ s : State, ∃ u, after s.pending.length s = some u ∧ u.pending = [] ∧ s.lt ≤ u.lt ∧ ∀ c ∈ s.pending, c.at < u.lt + 122071

/-- R14, for every step from every state: resets, power states, configuration swaps and fail-over are commands among the others. -/
def Obligations.LedgerTimeNeverMovesBack : Prop :=
  ∀ (x : Nat) (s u : State), x ≤ s.lt → step s = .next u → x ≤ u.lt

/-- R670: after every step `idleSince` is held exactly while no copy, head, transfer, job or emission is left. -/
def Obligations.IdleTimeFollowsWork : Prop :=
  ∀ s u : State, step s = .next u → u.chip.pwr.idleSince.isSome = quiet u.chip

/-- R671, R818: a command of logic in CORE leaves the device as time alone leaves it while CORE is off. -/
def Obligations.CoreOffLeavesDevice : Prop :=
  ∀ (c : Instr) (s : State), outsideCore c = false → coreOn s.chip = false → ∃ t, c.at ≤ t ∧ exec c s = .next (s.done t (s.found t))

/-- What happens by itself between commands is only what waits: the end of the cycle, effects that fall due, lanes, fills, credit and tokens (R232, R281, R286). -/
def Obligations.TimeAloneChangesNothing : Prop :=
  ∀ (s : State) (t : Nat), s.chip.tm.frames = [] → s.chip.tm.copies = [] → (∀ x ∈ s.chip.tm.sch, x.shapers = [] ∧ x.purse = none) →
    (∀ l ∈ s.chip.prs.lanes, l.fifo = [] ∧ l.pipe = []) → s.chip.prs.dec = [] → s.chip.tm.adm = [] → s.chip.sge.dueNow = [] → s.chip.late
      = [] →
    s.chip.cfg.pend = none → s.chip.fresh = [] → s.chip.pwr.fclk = true → s.found t = s.chip

/-- Read after write, frame and canonical form of the register file; a counter is a number that never wraps (R68). -/
def Obligations.RegisterFileHoldsWhatIsWritten : Prop :=
  ∀ (m : Chip) (a b k : Nat) (v : Word),
    rd (wr m a v) a = v ∧ (b ≠ a → rd (wr m a v) b = rd m b) ∧ wr m a v = { m with regs := (wr m a v).regs } ∧
    (rising m.regs = true → (m.regs.all fun p => p.2 != resetWord p.1) = true →
      rising (wr m a v).regs = true ∧ ((wr m a v).regs.all fun p => p.2 != resetWord p.1) = true) ∧
    cnt (bump m a k) a = cnt m a + k ∧ (b ≠ a → cnt (bump m a k) b = cnt m b)

/-- Read after write, frame and canonical form of system SRAM. -/
def Obligations.SramHoldsWhatIsStored : Prop :=
  ∀ (m : Chip) (a : Nat) (l : List Byte), sramBase ≤ a → a + l.length ≤ sramBase + sramSize →
    innerRead (memStore m 2 a l) a l.length = l ∧
    (∀ x, x < a ∨ a + l.length ≤ x → innerByte (memStore m 2 a l) x = innerByte m x) ∧
    (Memory.wf m.dma.sram = true → Memory.wf (memStore m 2 a l).dma.sram = true)

/-- The storing command of the host window, with the bytes that it stores and the frame of memory. -/
def Obligations.Bar2WriteStoresItsBytes : Prop :=
  ∀ (s : State) (t : Nat) (m : Chip) (now : Nat), Finds s t m now → ∀ (f : Fin 2) (off : Nat) (l : List Byte), fnUp m f = true →
    off + l.length ≤ sramSize → flag m A.HIF_BAR2_CFG f = true →
    ∃ u, exec (.bar2Write t f off l) s = .next u ∧ innerRead u.chip (sramBase + off) l.length = l ∧
      (∀ x, x < sramBase + off ∨ sramBase + off + l.length ≤ x → innerByte u.chip x = innerByte m x) ∧
      u.chip.regs = m.regs ∧ u.chip.cnts = m.cnts ∧ u.chip.ledger = m.ledger ∧ u.pending = s.pending

/-- R12, R70, R614-R616, R839: every way a write of a register can go. -/
def Obligations.RegisterWriteCompletes : Prop :=
  ∀ (s : State) (t u : Nat) (m0 m : Chip) (now : Nat) (who : Fin 8) (a : BitVec 32) (d : Word), Accepts s t who a.toNat true
      (isPosted s.chip who) u m0 now →
    monClear m0 a.toNat = m →
    (∀ (b : Blk) (r : RegRow) (ix : List Nat), carries m who a.toNat .ok = true → regRow a.toNat = some (b, r, ix) → fieldRow b r = true →
      (rwlBroken m r a.toNat d.toNat = false → allowed m now who b r a.toNat d.toNat = true → 4 < r.off →
        (inForceLater a.toNat = false → exec (.registerWrite t who a d) s = .next (s.done u (wrote m now a.toNat d.toNat b fun x =>
          blockEffect m x now who b a.toNat (oldWord m a.toNat) (newWord m a.toNat d.toNat) d.toNat false))) ∧
        (inForceLater a.toNat = true → exec (.registerWrite t who a d) s = .next (s.done u (noted m now who a.toNat d.toNat)) ∧
          land now m (.write who a.toNat d.toNat) = effected m a.toNat d.toNat b fun x =>
            blockEffect m x now who b a.toNat (oldWord m a.toNat) (newWord m a.toNat d.toNat) d.toNat false)) ∧
      (∀ c, (blockFirst b a.toNat (judged m r a.toNat d.toNat) = some c ∨
          blockFirst b a.toNat (judged m r a.toNat d.toNat) = none ∧ rangeCause (committed m) r (oldWord m a.toNat) d.toNat = some c) →
        exec (.registerWrite t who a d) s = .next (s.done u (applyHeld (refuse m b a.toNat c) now)) ∧
        ∀ x, x ≠ errCapture b → x ≠ irqStatus b → rd (refuse m b a.toNat c) x = rd m x) ∧
      (∀ c, c ≠ 0 → blockFirst b a.toNat (judged m r a.toNat d.toNat) = none → rangeCause (committed m) r (oldWord m a.toNat) d.toNat =
      none →
        blockCheck m now who b a.toNat (oldWord m a.toNat) (newWord m a.toNat d.toNat) (judged m r a.toNat d.toNat) = c →
        exec (.registerWrite t who a d) s = .next (s.done u (applyHeld (refuseWrite m now b a.toNat c) now))) ∧
      (rwlBroken m r a.toNat d.toNat = true → allowed m now who b r a.toNat d.toNat = true → inForceLater a.toNat = false →
        exec (.registerWrite t who a d) s = .next (s.done u (applyHeld (applyWrite (refuse m b a.toNat 1) now who a.toNat (judged m r
      a.toNat d.toNat) false b r) now))) ∧
      (rwlBroken m r a.toNat d.toNat = true → allowed m now who b r a.toNat d.toNat = true → inForceLater a.toNat = true →
        exec (.registerWrite t who a d) s = .next (s.done u (applyHeld (nextCycle (refuse m b a.toNat 1) now (.write who a.toNat (judged m
      r a.toNat d.toNat))) now))) ∧
      (rwlBroken m r a.toNat d.toNat = false → allowed m now who b r a.toNat d.toNat = true → r.off ≤ 4 → inForceLater a.toNat = false →
        exec (.registerWrite t who a d) s = .next (s.done u (applyHeld (msixAgain m b (effected m a.toNat d.toNat b fun x =>
          blockEffect m x now who b a.toNat (oldWord m a.toNat) (newWord m a.toNat d.toNat) d.toNat false)) now)))) ∧
    (∀ (b : Blk) (r : RegRow) (ix : List Nat), carries m who a.toNat .ok = true → regRow a.toNat = some (b, r, ix) →
      (b == .hif && r.off == 0x70000) = false → (b == .safe && r.off == 0x40000) = false → r.kind ≠ .stored → r.kind ≠ .writeOnly →
      exec (.registerWrite t who a d) s = .next (s.done u (applyHeld m now))) ∧
    (carries m who a.toNat .ok = true → regRow a.toNat = none → exec (.registerWrite t who a d) s = .next (s.done u (applyHeld m now))) ∧
    (∀ n, carries m who a.toNat (.held n) = true →
      exec (.registerWrite t who a d) s = .next (s.done u (updPort m n fun p => { p with held := p.held ++ [(who.val, a.toNat, d)] }))) ∧
    (∀ c, carries m who a.toNat (.err c) = true → exec (.registerWrite t who a d) s = .next (s.done u (accFail m now who a.toNat d c false
      true)))

/-- R12: a bit of an RWL field keeps its value once the configuration is committed; an RW bit takes the data. -/
def Obligations.RwlFieldsStayAfterCommit : Prop :=
  ∀ (r : RegRow) (old data fresh i : Nat), (Nat.testBit r.w1c i = false → Nat.testBit r.w1s i = false →
    (Nat.testBit r.rw i = false → Nat.testBit (fieldsWritten true r old data fresh) i = Nat.testBit old i) ∧
    (Nat.testBit r.rw i = true → Nat.testBit (fieldsWritten true r old data fresh) i = Nat.testBit data i)) ∧
    (Nat.testBit r.w1c i = false → Nat.testBit r.w1s i = false → Nat.testBit r.rwl i = true →
      Nat.testBit (fieldsWritten false r old data fresh) i = Nat.testBit data i)

/-- R836: layout of the record, the first one kept, cleared by ERR_CLR. -/
def Obligations.FirstRejectedAccessIsKept : Prop :=
  ∀ (m : Chip) (b : Blk) (off cause : Nat),
    (flag m (errCapture b) 31 = false → b ≠ .hif → off < 2 ^ 21 → cause < 16 →
      rdN (capture m b off cause) (errCapture b) = off + cause * 2 ^ 24 + 2 ^ 31) ∧
    (flag m (errCapture b) 31 = false → b = .hif → off < 2 ^ 26 → cause < 16 →
      rdN (capture m b off cause) (errCapture b) = off + cause * 2 ^ 26 + 2 ^ 31) ∧
    (flag m (errCapture b) 31 = true →
      rdN (capture m b off cause) (errCapture b) = Nat.lor (rdN m (errCapture b)) (2 ^ 30) ∧
      ∀ x, x ≠ errCapture b → rd (capture m b off cause) x = rd m x) ∧
    (∀ data, bit data 0 = true → rd (stored m (errClr b) data) (errCapture b) = 0) ∧
    (∀ data, bit data 0 = false → rd (stored m (errClr b) data) (errCapture b) = rd m (errCapture b))

/-- R837: low word and high word of a 64-bit register, with a shadow for each initiator and group. -/
def Obligations.ShadowIsOfTheInitiator : Prop :=
  ∀ (m m1 : Chip) (now now1 who who1 a : Nat) (b : Blk) (r r1 : RegRow) (ix ix1 : List Nat), who < 8 → who1 < 8 →
    regRow a = some (b, r, ix) → wordPart b r ix = some false → regRow (a + 4) = some (b, r1, ix1) → wordPart b r1 ix1 = some true →
    (readReg m now who a).1 = { m with shad := (readReg m now who a).1.shad } ∧
    sget (readReg m now who a).1.shad (shadowGroup b a * 8 + who) = (if BitVec.ofNat 32 (liveAt m now who (a + 4)) = 0 then none else some
      (BitVec.ofNat 32 (liveAt m now who (a + 4)))) ∧
    (∀ grp, (grp, who1) ≠ (shadowGroup b a, who) → sget (readReg m now who a).1.shad (grp * 8 + who1) = sget m.shad (grp * 8 + who1)) ∧
    (m1.shad = (readReg m now who a).1.shad → readReg m1 now1 who (a + 4) = (m1, (BitVec.ofNat 32 (liveAt m now who (a + 4))).toNat))

/-- R808: `GLB_IRQ_SUMMARY` and `GLB_IRQ_PEND` bit by bit. -/
def Obligations.InterruptSummaryShowsBlocks : Prop :=
  ∀ (m : Chip) (b : Blk), (bit (irqSummary m) b.irqBit = true ↔ irqLevel m b ≠ 0) ∧
    ∀ a, b.ownMask = 0 → b ≠ .safe → (bit (irqPend m a) b.irqBit = true ↔ irqLevel m b ≠ 0 ∧ flag m (irqRoute a) b.irqBit = true)

/-- R811: what is sent after a command for the interrupts that rose. -/
def Obligations.RisenInterruptsAreSent : Prop :=
  ∀ (m0 m : Chip) (f : Nat) (b : Blk), f < 2 → irqTo m f b = true → irqTo m0 f b = false →
    (msixMasked m f (64 + b.irqBit) = false → .msix f (64 + b.irqBit) ∈ (msixRise m0 m).out) ∧
    (msixMasked m f (64 + b.irqBit) = true → f * 128 + (64 + b.irqBit) ∈ (msixRise m0 m).pba) ∧
    ∀ o ∈ m.out, o ∈ (msixRise m0 m).out

/-- R627, R628, R630: the queue of the SAFE collector under reports and acknowledgements. -/
def Obligations.CollectorKeepsItsHead : Prop :=
  ∀ (m : Chip) (now src code sev info : Nat),
    (m.safe.q.length ≤ 64 → (report m now src code sev info).safe.q.length ≤ 64) ∧
    (∀ h r, m.safe.q = h :: r → (report m now src code sev info).safe.q.head? = some h) ∧
    (m.safe.q.length < 64 → (report m now src code sev info).safe.q.length = m.safe.q.length + 1 ∧
      ∃ x ∈ (report m now src code sev info).safe.q, x.lt = now ∧ x.src = src ∧ x.code = code ∧ x.sev = sev) ∧
    (safeAck m now).safe.q = m.safe.q.tail

/-- R630, of a report command and of a write of `SAFE_EC_OVF_CLR`. -/
def Obligations.FullCollectorLosesReports : Prop :=
  ∀ (s : State) (t u : Nat) (m : Chip) (now : Nat),
    (Finds s t m now → 64 ≤ m.safe.q.length → ∀ (src code : Fin 65536) (sev : Fin 4) (info : Nat), sev ≠ 0 →
      ∃ v, exec (.safeErrorReport t src code sev info) s = .next v ∧ v.chip.safe.q = m.safe.q ∧ cnt v.chip A.lost = cnt m A.lost + 1 ∧
        v.chip.safe.overflow = true ∧ v.chip.safe.fault = true) ∧
    (∀ who : Fin 8, Writes s t u m now who A.SAFE_EC_OVF_CLR 1 →
      exec (.safeEcOvfClr t who) s = .next (s.done u (wrote m now A.SAFE_EC_OVF_CLR 1 .safe fun x =>
        if m.safe.q.length < 64 then { x with safe := { x.safe with overflow := false } } else x)))

/-- R644, of the one operation by which every block hands over an event record. -/
def Obligations.EventQueueHolds256Records : Prop :=
  ∀ (m : Chip) (typ src lt : Nat) (pay : List (Nat × Nat)),
    (m.ledger.evtQ.length < 256 → (emit m typ src lt pay).ledger.evtQ.length = m.ledger.evtQ.length + 1 ∧
      (⟨typ, src, lt, payload pay⟩ : Rec) ∈ (emit m typ src lt pay).ledger.evtQ ∧ cnt (emit m typ src lt pay) A.evt_lost = cnt m
      A.evt_lost) ∧
    (256 ≤ m.ledger.evtQ.length → (emit m typ src lt pay).ledger.evtQ = m.ledger.evtQ ∧
      cnt (emit m typ src lt pay) A.evt_lost = cnt m A.evt_lost + 1)

/-- R633, R635, R741: FAULT and the pair's token. -/
def Obligations.FaultTakesTheToken : Prop :=
  ∀ (m : Chip) (now cause : Nat), (assertFault m now cause).safe.fault = true ∧
    (m.safe.fault = false → (assertFault m now cause).pair.active = false) ∧
    (m.safe.fault = false → m.pair.active = true →
      (assertFault m now cause).pair.holdoff = some (now + fld m A.PAIR_TIMING 16 8 * ms)) ∧
    (m.safe.fault = true → assertFault m now cause = m)

/-- R38-R51: each port command answers the state that its operation gives. That a refused word gives cause 1 is the model's choice (log entry 157). -/
def Obligations.LinkCommandsComplete : Prop :=
  ∀ (s : State) (t : Nat) (m : Chip) (now : Nat), Finds s t m now →
    (∀ (p : Fin 8) (code : Nat), isB p = true → laneMode m p = 3 → portEn m p = true → (code = 1 ∨ code = 2) → exec (.usxgmiiSpeedWord t p
      code) s = .next (s.done t (portEvt (updPort (linkLost m now p 1 now false false) p fun x =>
      { x with refused := true, word := code }) p 3))) ∧
    (∀ (p : Fin 8) (code : Nat), isB p = true → laneMode m p = 3 → portEn m p = true → 3 ≤ code → code ≤ 6 → linkOn m p = false → exec
      (.usxgmiiSpeedWord t p code) s = .next (s.done t (updPort m p fun x => { x with refused := false, word := code }))) ∧
    (∀ (p : Fin 8) (code : Nat), isB p = true → laneMode m p = 3 → portEn m p = true → 3 ≤ code → code ≤ 6 → linkOn m p = true → speedOf m
      p ≠ code → exec (.usxgmiiSpeedWord t p code) s = .next (s.done t (updCopies (setF (updSch (updPort m p fun x =>
      { x with refused := false, word := code }) p fun y => { y with rateWas := some (now, rateOf (speedOf m p)) }) (A.MAC_PSTATUS p) 1 3
      code) (fun c => c.port == p.val && c.st == .sending) fun c => { c with cause := 3 }))) ∧
    (∀ (p : Fin 8), portEn m p = true → laneMode m p = 2 → linkOn m p = false → (portOf m p).train = none → (portOf m p).retrain = none →
      exec (.linkTrainingStart t p) s = .next (s.done t (updPort m p fun x =>
      { x with train := some now, attempt := some (x.attempt.getD now) }))) ∧
    (∀ (p : Fin 8) (t0 : Nat), (portOf m p).train = some t0 → t0 + 500 * ms ≤ now → exec (.trainFail t p) s = .next (s.done t
      (emit (portEvt (updPort m p fun x =>
      { x with train := none, fails := sat 8 ((portOf m p).fails + 1), retrain := some (now + fld m (A.MAC_PSD_CFG p) 8 8 * ms) }) p 2)
      0x0132 (srcId 1 p) now [(1, sat 8 ((portOf m p).fails + 1)), (3, 0), (8, t0)]))) ∧
    (∀ (p : Fin 8) (r : Nat), (portOf m p).retrain = some r → r ≤ now → exec (.retrainDelayExpiry t p) s = .next (s.done t (updPort m p
      fun x => { x with retrain := none, train := some now }))) ∧
    (∀ (p : Fin 24) (word : Nat) (sqi : Fin 8), p.val < 20 → exec (.linkUp t p word sqi) s = .next (s.done t (linkUpFront m now p word
      sqi))) ∧
    (∀ (word : Nat) (sqi : Fin 8), exec (.linkUp t 23 word sqi) s = .next (s.done t (tmPortUp m 23))) ∧
    (∀ (p : Fin 24) (loss : Nat) (lf rf : Bool), p.val < 20 → loss + fld m (A.MAC_PLINK p) 0 16 * us ≤ now → exec (.linkDown t p loss lf
      rf) s = .next (s.done t (linkLost m now p (if isB p then 1 else 2) loss lf rf))) ∧
    (∀ (loss : Nat) (lf rf : Bool), exec (.linkDown t 23 loss lf rf) s = .next (s.done t (tmPortDown m now 23)))

/-- R41-R66: each command of an edge or drop port answers the state that its operation gives. When prbs_lock is set is the model's choice (log entry 155). -/
def Obligations.EdgePortCommandsComplete : Prop :=
  ∀ (s : State) (t : Nat) (m : Chip) (now : Nat), Finds s t m now →
    (∀ (e : Fin 8), exec (.tc10SleepComplete t e) s = .next (s.done t (sleepDone m now (8 + e)))) ∧
    (∀ (e : Fin 8), (domOn m (phyDom (8 + e)) = true ∨ flag m (A.MAC_PT1_CFG (8 + e)) 2 = true) → exec (.tc10WakeReceived t e) s = .next
      (s.done t (sleepAbandon (portEvt m (8 + e) 5) now (8 + e) 0))) ∧
    (∀ (e : Fin 8), domOn m (phyDom (8 + e)) = true → exec (.tc10SleepRequestRx t e) s = .next (s.done t (sleepStart m now (8 + e)))) ∧
    (∀ (e : Fin 8) (w : Nat), (portOf m (8 + e)).warm = some w → w + 4 * ms ≤ now → linkOn m (8 + e) = false → exec (.warmFallback t e) s
      = .next (s.done t (emit (bump (portEvt (updPort m (8 + e) fun p => { p with warm := none, fellBack := true }) (8 + e) 4)
      (A.warm_fallback (8 + e)) 1) 0x0133 (srcId 1 (8 + e)) now
      [(1, sqiOf (updPort m (8 + e) fun p => { p with warm := none, fellBack := true }) (8 + e)), (1, fld (updPort m (8 + e) fun p => { p with warm := none, fellBack := true }) (A.MAC_PT1_CFG (8 + e)) 0 1), (2, 0), (8, w)])))
      ∧
    (∀ (d : Fin 4), plcaFollower m (16 + d) = true → linkOn m (16 + d) = true → flag m (A.MAC_PPLCA_STATUS (16 + d)) 0 = true → exec
      (.plcaLost t d) s = .next (s.done t (bump (portEvt (setF m (A.MAC_PPLCA_STATUS (16 + d)) 0 1 0) (16 + d) 7) (A.plca_lost (16 + d))
      1))) ∧
    (∀ (d : Fin 4), plcaFollower m (16 + d) = true → linkOn m (16 + d) = true → exec (.plcaBeaconReturn t d) s = .next (s.done t (setF m
      (A.MAC_PPLCA_STATUS (16 + d)) 0 1 1))) ∧
    (∀ (p : Fin 8) (k : Nat), portEn m p = false → flag m (A.MAC_PPRBS_CFG p) 4 = true → k ≠ 0 → exec (.prbsCheckerError t p k) s = .next
      (s.done t (portEvt (setF (wrN m (A.MAC_PPRBS_ERR p) (sat 32 (rdN m (A.MAC_PPRBS_ERR p) + k))) (A.MAC_PSTATUS p) 7 1 1) p 8)))

/-- R55-R110: the commands of the frame path answer the states that their operations give. -/
def Obligations.IngressCommandsComplete : Prop :=
  ∀ (s : State) (t : Nat) (m : Chip) (now : Nat), Finds s t m now →
    (∀ (p : Fin 20) (bytes : List Byte) (fcsOk : Bool) (frags : List (Fin 4 × Fin 4)) (crcOk : List Bool) (full : Bool) (errs : Nat),
      loopMode m p = 0 → exec (.frameReceive t p bytes fcsOk frags crcOk full errs) s = .next (s.done t (receive m now (max now t) p bytes
      fcsOk (mPackets frags crcOk) full errs))) ∧
    (∀ (fid : Nat) (f : Frame), frameOf m fid = some f → f.phase = .arriving → f.dead = false → (f.secured && (f.tooLong || !f.fcsOk)) =
      false → exec (.headReady t fid) s = .next (s.done t (headReady m now f))) ∧
    (∀ (fid : Nat) (f : Frame), frameOf m fid = some f → f.phase = .headReady → exec (.laneSelection t fid) s = .next (s.done t
      (laneSelect m now f))) ∧
    (∀ (l : Fin 4) (s0 : Nat) (soft : List (Nat × Nat)) (ecc : Option (Nat × Nat)) (ctEcc : Option (Fin 4)) (fault : Bool) (fid k a : Nat)
      (r : List (Nat × Nat × Nat)), (laneOf m l).pipe = (fid, k, a) :: r → exec (.laneDecision t l s0 (soft, ecc) ctEcc fault) s = .next
      (s.done t (updPrs (laneRetry (updLane m l fun x => { x with pipe := r }) now l soft.length) fun p =>
      { p with soft := soft.foldl (fun y x => if y.contains (x.1 * 2 ^ 16 + x.2) then y else y ++ [x.1 * 2 ^ 16 + x.2]) p.soft, dec := p.dec ++ [{ lane := l, fid := fid, bucket := k, s0 := max a (min s0 now), ecc := ecc, ctEcc := ctEcc.map (·.val), fault := fault }] })))
      ∧
    (∀ d : LaneDec, m.prs.dec = [d] → decisions m now = decideHead now (updPrs m fun p => { p with dec := [] }) d) ∧
    (∀ (fid : Nat) (f : Frame), frameOf m fid = some f → f.ended = false → f.tailIn now = true → f.tooLong = false → f.fcsOk = false →
      exec (.tailVerified t fid) s = .next (s.done t (killFrame (correctLater (bump (updFrame m f.id fun x => { x with ended := true })
      (A.rx_fcs_err f.port) 1) now f) now f.id))) ∧
    (∀ (fid : Nat) (f : Frame), frameOf m fid = some f → f.ended = false → f.tailIn now = true → f.tooLong = true → exec (.tailVerified t
      fid) s = .next (s.done t (truncate (bump (updFrame m f.id fun x => { x with ended := true }) (A.rx_oversize f.port) 1) now f 3
      (arrived (bump (updFrame m f.id fun x => { x with ended := true }) (A.rx_oversize f.port) 1) f now)))) ∧
    (∀ (fid : Nat) (f : Frame), frameOf m fid = some f → f.ended = false → f.tailIn now = true → f.tooLong = false → f.fcsOk = true →
      f.dead = false → exec (.tailVerified t fid) s = .next (s.done t (gcFrame (bring (correctLater (updFrame (bump (bump (updFrame m f.id
      fun x => { x with ended := true }) (A.rx_frames f.port) 1) (A.rx_octets f.port) f.len) f.id fun x => { x with verified := true })
      now f) f.id f.waiting false) now f.id))) ∧
    (∀ (fid : Nat) (p : Fin 20) (f : Frame) (c : Copy), openCut m fid p = some (f, c) → c.len ≤ copySent m c now → f.tailIn now = false →
      exec (.ctOverlen t fid p) s = .next (s.done t (cutEnd (laneEvt (bump m A.PRS_CNT_CT_OVERLEN 1) 10) now f c 5 (arrived m f now)))) ∧
    (∀ (fid : Nat) (p : Fin 20) (got : Nat) (f : Frame) (c : Copy), openCut m fid p = some (f, c) → got ≤ frameByte f c (copySent m c now)
      → f.verified = false → exec (.ctUnderrun t fid p got) s = .next (s.done t (cutEnd (laneEvt (bump m A.PRS_CNT_CT_UNDERRUN 1) 9) now f
      c 4 got)))

/-- R100-R118, R181, R211: lane, group, scrubber and ager commands answer the states that their operations give. -/
def Obligations.LaneAndTableCommandsComplete : Prop :=
  ∀ (s : State) (t : Nat) (m : Chip) (now : Nat), Finds s t m now →
    (∀ (l : Fin 4) (thr : Bool) (n a : Nat), (laneOf m l).above = some a → (laneOf m l).slow = false → m.late.any (·.2 == .lane l true) =
      false → a + 7999 * cyc ≤ now → exec (.laneSlow t l thr n) s = .next (s.done t (laneEvt (emit (nextCycle (updLane m l fun x =>
      { x with moved := 0, pinned0 := cnt m (A.pinned_frames l) }) now (.lane l true)) 0x0201 (srcId 2 l) now
      [(1, laneOcc (updLane m l fun x => { x with moved := 0, pinned0 := cnt m (A.pinned_frames l) }) l), (1, b2n thr), (2, sat 16 ((((laneOf m l).retries.filter fun x => now < x.1 + 20 * us).map (·.2)).sum + n))])
      l))) ∧
    (∀ (l : Fin 4) (b : Nat), (laneOf m l).below = some b → (laneOf m l).slow = true → m.late.any (·.2 == .lane l false) = false → b +
      39999 * cyc ≤ now → exec (.laneClear t l) s = .next (s.done t (laneEvt (updPrs (nextCycle (emit m 0x0202 (srcId 2 l) now
      [(2, sat 16 (laneOf m l).moved), (2, (m.prs.buckets.filter fun x => x.2.lane == l.val && x.2.seen).length), (8, cnt m (A.pinned_frames l) - (laneOf m l).pinned0)])
      now (.lane l false)) fun p =>
      { p with buckets := p.buckets.map fun x => if x.2.lane == l.val then (x.1, { x.2 with seen := false }) else x }) (4 + l)))) ∧
    (∀ (l : Fin 4) (b : Bool), land now m (.lane l b) = updLane m l (fun x =>
      { x with slow := b, clearAt := if b then x.clearAt else some now })) ∧
    (∀ (g : Fin 8), m.prs.lag.getD g [] ≠ distributing m g → exec (.lagTableRebuild t g) s = .next (s.done t (laneEvt (updPrs m fun p =>
      { p with lag := lset p.lag g fun _ => distributing m g }) 12))) ∧
    (∀ (k : Fin 9) (i : Nat), exec (.tableScrub t k i) s = .next (s.done t (updPrs m fun p =>
      { p with soft := p.soft.filter (· != k.val * 2 ^ 16 + i) }))) ∧
    (∀ (i : Fin 65536) (e : CtEnt), sget m.prs.ct i.val = some e → ctLive m e now = false → exec (.ctAgerVisit t i) s = .next (s.done t
      (ctExpire m i))) ∧
    (∀ (i : Fin 65536) (e : CtEnt), sget m.prs.ct i.val = some e → ctLive m e now = true → exec (.ctAgerVisit t i) s = .next (s.done t
      (m)))

/-- R245-R299: the commands of the queues answer the states that their operations give. When the next read of the scrubber is due is the model's choice (log entry 164). -/
def Obligations.QueueCommandsComplete : Prop :=
  ∀ (s : State) (t : Nat) (m : Chip) (now : Nat), Finds s t m now →
    (∀ (p : Fin 24) (start corr : Nat) (ecc : Option (Fin 65536 × Fin 8)) (descs : List (List Byte)), exec (.schedulerGrant t p start corr
      ecc descs) s = .next (s.done t (decision (eccCorrected m corr) now p start (ecc.map fun x => (x.1.val, x.2.val)) descs))) ∧
    (∀ (p : Fin 24) (tc : Fin 8) (c : Copy), headOf m p tc = some c → c.st = .queued → headDue m now p tc = true → aged m now c = true →
      c.multi = false → exec (.residenceExpiry t p tc) s = .next (s.done t (gcFrame (bump (headGone (dropCopy m c.fid c.port) now p tc)
      (A.drop_aged (p * 8 + tc)) 1) now c.fid))) ∧
    (∀ (p : Fin 24) (c : Copy) (f : Frame), oldestTx m p = some c → frameOf m c.fid = some f → f.verified = true → p.val < 20 → c.start +
      txLt m c ≤ now → exec (.copyTxEnd t p) s = .next (s.done t (endTx m now c))) ∧
    (∀ (p : Fin 24) (c : Copy) (f : Frame), oldestTx m p = some c → frameOf m c.fid = some f → f.verified = true → 20 ≤ p.val → exec
      (.copyTxEnd t p) s = .next (s.done t (gcFrame (dropCopy (updSge m fun x =>
      { x with q23 := x.q23 ++ [(now + cyc, f.stamp, copyBytes f c)] }) c.fid p) now c.fid))) ∧
    (∀ (fid : Nat) (f : Frame), frameOf m fid = some f → f.stamp + fld m A.TM_MC_RESIDUE_AGE 0 20 * us < now → exec (.mcResidueAgeExpiry t
      fid) s = .next (s.done t (gcFrame (updFrame ((f.waiting.filter (·.multi)).foldl (fun m d => abandon (bump m (A.drop_aged ((copyFor f
      d f.len false).port * 8 + (copyFor f d f.len false).tc)) 1) now 5 { copyFor f d f.len false with charge := 0 }) ((m.tm.copies.filter
      fun c => c.fid == f.id && c.multi && c.st == .queued).foldl (fun m c => voidCopy (abandon (bump m (A.drop_aged (c.port * 8 + c.tc))
      1) now 5 c) now c) m)) f.id fun x => { x with waiting := x.waiting.filter fun d => !d.multi }) now f.id))) ∧
    (∀ (p : Fin 24) (e : Nat), tmPort m p = .hold e → e ≤ now → exec (.holdExpiry t p) s = .next (s.done t (flushPort m now p))) ∧
    (∀ (word : Fin 8) (sym : Fin 36) (wrote : Bool) (owner : Option Nat), m.tm.scrub < 65535 → m.tm.scrubDue ≤ now → exec (.bufferScrub t
      0 (word, sym, wrote) owner) s = .next (s.done t (updTm m fun x =>
      { x with scrub := m.tm.scrub + 1, scrubDue := max x.scrubDue (now - 1024 * cyc) + 12207 * cyc, scrubAt := now, single := sdel x.single m.tm.scrub })))

/-- R302-R330: the commands of TIME and of the gate lists answer the states that their operations give. -/
def Obligations.TimeAndGateCommandsComplete : Prop :=
  ∀ (s : State) (t : Nat) (m : Chip) (now : Nat), Finds s t m now →
    (m.time.slewing = true → wOff m now = 0 → exec (.slewDone t) s = .next (s.done t (setIrq (updTime m fun x =>
      { x with w := 0, wAt := now, slewing := false }) .time 4))) ∧
    (m.time.holdover = false → unsteered m now = true → exec (.holdoverEntry t) s = .next (s.done t (setHoldover m now true))) ∧
    (flag m A.TIME_BCYC_CFG 31 = true → ((bcycBase m + m.time.bnext * bcycLen m : Nat) : Int) * nsU ≤ workU m now → exec
      (.baseCycleBoundary t) s = .next (s.done t (boundary m now m.time.bnext))) ∧
    (∀ (p : Fin 20), exec (.gateEntryChange t p) s = .next (s.done t (gateMove m p now 2))) ∧
    (∀ (p : Fin 20) (ct : Int), (gateOf m p).ct = some ct → ct ≤ workU m now → exec (.gateChangeTime t p) s = .next (s.done t
      (changeTime m p now 2)))

/-- R325-R342: the commands of frame preemption, trim windows and recovery answer the states that their operations give. -/
def Obligations.PreemptionAndTrimCommandsComplete : Prop :=
  ∀ (s : State) (t : Nat) (m : Chip) (now : Nat), Finds s t m now →
    (∀ (p : Fin 16), preActive m p = true → holdDue m p now 1 (fld m (A.GATE_PRE_ADV p) 0 16) = true → exec (.macHoldStart t p) s = .next
      (s.done t (closeOn (updGate m p fun g => { g with hold := true }) p now (preMask m p) 2))) ∧
    (∀ (p : Fin 16), (gateOf m p).hold = true → holdDue m p now 2 (fld m (A.GATE_PRE_ADV p) 16 16) = true → exec (.macHoldEnd t p) s =
      .next (s.done t (updGate m p fun g => { g with hold := false }))) ∧
    (∀ (p : Fin 16), flag m (A.GATE_PRE_CFG p) 0 = true → flag m (A.GATE_PRE_CFG p) 1 = false → linkOn m p = true → fld m
      (A.GATE_PRE_STATUS p) 1 2 < 2 → (gateOf m p).tries < 3 → ((gateOf m p).tries = 0 ∨ (gateOf m p).lastTry + verifyLt m p ≤ now) → exec
      (.preemptionVerify t p) s = .next (s.done t (say (setF (updGate m p fun g => { g with tries := g.tries + 1, lastTry := now })
      (A.GATE_PRE_STATUS p) 1 2 1) (.pin "VERIFY" p)))) ∧
    (∀ (p : Fin 16), fld m (A.GATE_PRE_STATUS p) 1 2 = 1 → exec (.verifyResponse t p) s = .next (s.done t (setEvt (emit (setF m
      (A.GATE_PRE_STATUS p) 1 2 2) 0x0403 (srcId 4 p) now [(1, 1), (1, (gateOf m p).tries)]) (A.GATE_EVENT p) (A.GATE_EVENT_EN p) 4 .gate
      p))) ∧
    (∀ (p : Fin 16), fld m (A.GATE_PRE_STATUS p) 1 2 = 1 → (gateOf m p).tries = 3 → (gateOf m p).lastTry + verifyLt m p ≤ now → exec
      (.verifyFail t p) s = .next (s.done t (setEvt (bump (emit (setF m (A.GATE_PRE_STATUS p) 1 2 3) 0x0403 (srcId 4 p) now
      [(1, 0), (1, 3)]) (A.verify_fail p) 1) (A.GATE_EVENT p) (A.GATE_EVENT_EN p) 5 .gate p))) ∧
    (∀ (p : Fin 20) (a : Option Int) (b : Int), trimWindow m p now = some (a, some b) → (gateOf m p).trimmed = false → egressIdle m p now
      = true → workU m now < b - 300 * nsU → exec (.trimGateStart t p) s = .next (s.done t (trimGate m now p (a, some b)))) ∧
    (∀ (p : Fin 20) (a : Option Int) (b : Int), (gateOf m p).trimmed = true → trimWindow m p now = some (a, some b) → b - 300 * nsU ≤
      workU m now → exec (.trimRestore t p) s = .next (s.done t (updGate m p fun g => { g with trimmed := false, low := false }))) ∧
    (∀ (p : Fin 20), (gateOf m p).trimmed = true → trimWindow m p now = none → exec (.trimRestore t p) s = .next (s.done t (updGate m p
      fun g => { g with trimmed := false, low := false }))) ∧
    (∀ (fn : Fin 1024) (r : RcvySt), sget m.rcvy fn = some r → r.last + fld m (A.GATE_RCVY0 fn) 16 16 * ms ≤ now → exec
      (.recoveryResetTimer t fn) s = .next (s.done t (bump (rcvyReset m fn) (A.rc_resets fn) 1)))

/-- R347-R405: the commands of the Mint answer the states that their operations give. -/
def Obligations.CipherJobCommandsComplete : Prop :=
  ∀ (s : State) (t : Nat) (m : Chip) (now : Nat), Finds s t m now →
    (∀ (desc blk blob ctx : List Byte) (blkOk keyOk : Bool), exec (.cipherJobStart t desc blk blob ctx blkOk keyOk) s = .next (s.done t
      (jobStart m now desc blk blob ctx blkOk keyOk))) ∧
    (∀ (c : Fin 8) (src : List Byte) (j : CJob), jobOn m c = some j → exec (.provisionalCompletion t c src) s = .next (s.done t
      (provisional m now j src))) ∧
    (∀ (c : Fin 10) (src : List Byte) (j : CJob), jobOn m c = some j → exec (.cipherJobComplete t c src) s = .next (s.done t (jobDone m
      now j src))) ∧
    (∀ (kecc : Bool) (blocks p : Nat) (src : List Byte), waitingPri m kecc = some p → exec (.tellerPreempt t 0 kecc blocks src) s = .next
      (s.done t (tellerPreempt m kecc p blocks src))) ∧
    (∀ (client : Fin 3) (kecc : Bool) (blocks : Nat) (src : List Byte), client ≠ 0 → exec (.tellerPreempt t client kecc blocks src) s =
      .next (s.done t (tellerPreempt m kecc (3 + client.val) blocks src))) ∧
    (∀ (c : Fin 8) (est blocks : Nat) (src : List Byte), (coreOf m c).slow = false → (coreOf m c).quar = false → (coreOf m c).resv = false
      → est < fld m A.MINT_TELLER_CFG 8 7 → jobOn (emit (setIrq (updCore m c fun x => { x with slow := true, rate := est, resv := false })
      .mint 2) 0x0503 (srcId 5 c) now [(1, 1), (1, est)]) c = none → exec (.coreSlowDeclare t c est blocks src) s = .next (s.done t
      (emit (setIrq (updCore m c fun x => { x with slow := true, rate := est, resv := false }) .mint 2) 0x0503 (srcId 5 c) now
      [(1, 1), (1, est)]))) ∧
    (∀ (c : Fin 8) (est blocks : Nat) (src : List Byte), exec (.coreSlowDeclare t c est blocks src) s = .next (s.done t (declareSlow m now
      c est blocks src))) ∧
    (∀ (c : Fin 8) (rate : Nat), (coreOf m c).slow = true → fld m A.MINT_TELLER_CFG 8 7 + 10 ≤ rate → exec (.slowCoreKat t c rate) s =
      .next (s.done t (emit (setIrq (updCore (updCore m c fun x => { x with rate := min 100 rate }) c fun x => { x with slow := false })
      .mint 2) 0x0503 (srcId 5 c) now [(1, 0), (1, min 100 rate)]))) ∧
    (∀ (c : Fin 10) (client : Fin 4) (who block : Nat), jobOn m c = none → client ≠ 1 → exec (.mintMismatch t c client who block) s =
      .next (s.done t (bump (mismatch m now c client 1 who block) A.retries 1))) ∧
    (∀ (c : Fin 10) (client : Fin 4) (who block : Nat) (j : CJob), jobOn m c = some j → j.retried = false → exec (.mintMismatch t c client
      who block) s = .next (s.done t (firstMismatch m now c client who block))) ∧
    (∀ (c : Fin 10) (who block : Nat) (out : Bool) (fid : Nat), jobOn m c = none → (coreOf m c).resv = false → exec (.mintQuarantine t c 2
      who block out fid) s = .next (s.done t (quarantine (mismatch m now c 2 2 who block) now c 1))) ∧
    (∀ (c : Fin 10) (client : Fin 4) (who block : Nat) (out : Bool) (fid : Nat) (j : CJob), jobOn m c = some j → j.retried = true →
      (coreOf m c).resv = false → exec (.mintQuarantine t c client who block out fid) s = .next (s.done t (quarantine (endJob (mismatch m
      now c 1 2 j.ring block) now { j with core := none } 0x09 0 false true) now c 1))) ∧
    (∀ (c : Fin 10), (coreOf m c).test = true → exec (.selfTestDone t c true) s = .next (s.done t (updCore (clrR (updCore m c fun x =>
      { x with test := false }) (A.MINT_CORE_CTRL c) 1) c fun x => { x with quar := false }))) ∧
    (∀ (c : Fin 10), (coreOf m c).test = true → exec (.selfTestDone t c false) s = .next (s.done t (quarantine (clrR (updCore m c fun x =>
      { x with test := false }) (A.MINT_CORE_CTRL c) 1) now c 3)))

/-- R413-R430: a key command that its mailbox may run answers the state that its operation gives (crypto results: log entry 4). -/
def Obligations.VaultKeyCommandsComplete : Prop :=
  ∀ (s : State) (t : Nat) (m : Chip) (now : Nat), Finds s t m now →
    (∀ (mb : Fin 4), serves m mb 1 true = true → exec (.generate t mb) s = .next (s.done t (loadKey (random m
      (klenBytes (bits (vreq m mb).pol 1 2))).1 now (vreq m mb) (vreq m mb).pol (random m (klenBytes (bits (vreq m mb).pol 1 2))).2 0))) ∧
    (∀ (mb : Fin 4) (mem : List Byte) (ok : Bool), serves m mb 2 ok = true → exec (.loadBlob t mb mem ok) s = .next (s.done t ((openBlob m
      (vaultMem m (vreq m mb) mem 96)).elim (endVault m mb 0x03) fun x => loadKey m now (vreq m mb) x.1 x.2.1 x.2.2))) ∧
    (∀ (mb : Fin 4) (ok : Bool) (k : KeySlot) (m1 : Chip) (v : Nat), serves m mb 3 true = true → slotOf m (vreq m mb).slot = some k →
      ctrAsk m 1 = (m1, .value v) → exec (.exportBlob t mb ok) s = .next (s.done t (endWrite (keyEvent (reshare m1 (vreq m mb).slot) now
      (vreq m mb) k.policy k.tag) (vreq m mb) ok (makeBlob m1 k ((vreq m mb).sel = 1) v)))) ∧
    (∀ (mb : Fin 4), serves m mb 4 true = true → exec (.erase t mb) s = .next (s.done t (endVault (keyEvent (nextCycle m now (.erase
      (vreq m mb).slot)) now (vreq m mb) (policyOf m (vreq m mb).slot) 0) mb 0))) ∧
    (∀ i : Nat, land now m (.erase i) = clearSlot m i) ∧
    (∀ (mb : Fin 4) (mem : List Byte) (ok : Bool) (r : KeySlot), serves m mb 5 ok = true → slotOf m (vreq m mb).aux = some r → exec
      (.deriveSlot t mb mem ok) s = .next (s.done t (loadKey (reshare m (vreq m mb).aux) now (vreq m mb) (vreq m mb).pol
      (if (vreq m mb).sel = 0 then kmac r.key (vaultMem m (vreq m mb) mem (vreq m mb).len) (klenBytes (bits (vreq m mb).pol 1 2)) "VXG8640
      DERIVE" else kdfCmac r.key (vaultMem m (vreq m mb) mem (vreq m mb).len) (klenBytes (bits (vreq m mb).pol 1 2))) 0))) ∧
    (∀ (mb : Fin 4) (mem : List Byte) (ok : Bool) (r : KeySlot), serves m mb 6 ok = true → slotOf m (vreq m mb).aux = some r → exec
      (.kwUnwrap t mb mem ok) s = .next (s.done t (if Config.verifies "AES-KW" r.key [vaultMem m (vreq m mb) mem (vreq m mb).len] then
      loadKey (reshare m (vreq m mb).aux) now (vreq m mb) (vreq m mb).pol (Config.crypto "AES-KW-UNWRAP" r.key
      [vaultMem m (vreq m mb) mem (vreq m mb).len] ((vreq m mb).len - 8)) 0 else endVault m mb 0x03))) ∧
    (∀ (mb : Fin 4) (ok : Bool) (k r : KeySlot), serves m mb 7 true = true → slotOf m (vreq m mb).slot = some k → slotOf m (vreq m mb).aux
      = some r → exec (.kwWrap t mb ok) s = .next (s.done t (endWrite (keyEvent (reshare (reshare m (vreq m mb).slot) (vreq m mb).aux) now
      (vreq m mb) k.policy k.tag) (vreq m mb) ok (Config.crypto "AES-KW-WRAP" r.key [k.key] (k.key.length + 8)))))

/-- R417-R445: attestation, counter, OTP and share commands answer the states that their operations give (crypto results: log entry 4). -/
def Obligations.VaultAttestationCommandsComplete : Prop :=
  ∀ (s : State) (t : Nat) (m : Chip) (now : Nat), Finds s t m now →
    (∀ (mb : Fin 4) (mem : List Byte) (ok : Bool), serves m mb 8 ok = true → ((vreq m mb).aux = 0 ∨ (vreq m mb).aux = 2 ∨ (vreq m mb).aux
      = 3 ∨ (vreq m mb).aux = 1 ∧ mb ≠ 2) → exec (.extend t mb mem ok) s = .next (s.done t (endVault m mb 0x84))) ∧
    (∀ (mb : Fin 4) (mem : List Byte) (ok : Bool), serves m mb 8 ok = true → (vreq m mb).aux ≠ 0 → (vreq m mb).aux ≠ 2 → (vreq m mb).aux ≠
      3 → ((vreq m mb).aux = 1 → mb = 2) → exec (.extend t mb mem ok) s = .next (s.done t (endVault (extendBmr m (vreq m mb).aux
      (vaultMem m (vreq m mb) mem 32)) mb 0))) ∧
    (∀ (mb : Fin 4) (mem : List Byte) (ok wok : Bool), serves m mb 9 ok = true → exec (.challenge t mb mem ok wok) s = .next (s.done t
      (endWrite m (vreq m mb) wok (challengeBlock m now (vaultMem m (vreq m mb) mem 32))))) ∧
    (∀ (mb : Fin 4) (mem : List Byte) (ok wok : Bool) (m1 : Chip) (v : Nat), serves m mb 10 ok = true → ctrAsk m 0 = (m1, .value v) → exec
      (.attest t mb mem ok wok) s = .next (s.done t (endWrite (emit m1 0x0603 (srcId 6 0x90) now
      [(4, v), (8, leNat (slice (vaultMem m1 (vreq m mb) mem 96) 0 8))]) (vreq m mb) wok (attestBlock m1 now v (slice (vaultMem m1
      (vreq m mb) mem 96) 0 32) (slice (vaultMem m1 (vreq m mb) mem 96) 32 64) ++ Config.crypto "XMSS_SIGN" xmssSeeds
      [leBytes 4 v, attestBlock m1 now v (slice (vaultMem m1 (vreq m mb) mem 96) 0 32) (slice (vaultMem m1 (vreq m mb) mem 96) 32 64)]
      2820)))) ∧
    (∀ (mb : Fin 4) (mem pk msg sig : List Byte) (ok : Bool), serves m mb 11 ok = true → exec (.verify t mb mem pk msg sig ok) s = .next
      (s.done t (endVault m mb (vVerdict m (vreq m mb) mem pk msg sig)))) ∧
    (∀ (mb : Fin 4) (wok : Bool), serves m mb 12 true = true → exec (.xmssPub t mb wok) s = .next (s.done t (endWrite m (vreq m mb) wok
      xmssPub))) ∧
    (∀ (mb : Fin 4) (nvmOk : Bool), serves m mb 13 true = true → exec (.ctrAdvance t mb nvmOk) s = .next (s.done t (endVault (ctrAdvance m
      now (vreq m mb).aux (vreq m mb).addr nvmOk).1 mb (ctrAdvance m now (vreq m mb).aux (vreq m mb).addr nvmOk).2))) ∧
    (∀ (mb : Fin 4) (mem : List Byte) (ok : Bool) (i : Nat), serves m mb 14 ok = true → i = (if (vreq m mb).aux = 0 then 0 else 1) → rowOf
      m i = none → exec (.otpProg t mb mem ok) s = .next (s.done t (endVault (setRow m i (vaultMem m (vreq m mb) mem 32)) mb 0))) ∧
    (∀ (mb : Fin 4) (mem : List Byte) (ok : Bool) (i : Nat), serves m mb 14 ok = true → i = (if (vreq m mb).aux = 0 then 0 else 1) →
      (rowOf m i).isSome = true → exec (.otpProg t mb mem ok) s = .next (s.done t (endVault m mb 0x86))) ∧
    (∀ (mb : Fin 4), serves m mb 15 true = true → m.vault.keygen = false → exec (.xmssKeygen t mb) s = .next (s.done t
      (endVault (updVault m fun v => { v with keygen := true }) mb 0))) ∧
    (∀ (mb : Fin 4), serves m mb 15 true = true → m.vault.keygen = true → exec (.xmssKeygen t mb) s = .next (s.done t (endVault m mb
      0x86))) ∧
    (∀ (c l : Nat), m.vault.nvm = some (c, l) → exec (.nvmWriteDone t true) s = .next (s.done t (updCtr (emit (updVault m fun v =>
      { v with nvm := none }) 0x0602 (srcId 6 (0x80 + c)) now [(1, 1), (3, 0), (8, l)]) c fun x =>
      { x with limit := l, wear := sat 32 (x.wear + 1) }))) ∧
    (∀ (c l : Nat), m.vault.nvm = some (c, l) → exec (.nvmWriteDone t false) s = .next (s.done t (setIrq (updVault (emit (updVault m fun v
      => { v with nvm := none }) 0x0602 (srcId 6 (0x80 + c)) now [(1, 0), (3, 0), (8, l)]) fun v => { v with failed := some c }) .vault
      4))) ∧
    (∀ (i : Fin 256) (k : KeySlot), slotOf m i = some k → exec (.shareRerandomise t (some i)) s = .next (s.done t (((shareFault m now
      i).vault.slots.map (·.1)).foldl reshare (shareFault m now i)))) ∧
    (exec (.shareRerandomise t none) s = .next (s.done t ((m.vault.slots.map (·.1)).foldl reshare m)))

/-- R456-R480: the transmit commands of the CAN channels answer the states that their operations give. -/
def Obligations.CanTransmitCommandsComplete : Prop :=
  ∀ (s : State) (t : Nat) (m : Chip) (now : Nat), FindsCan s t m now →
    (∀ (r : Fin 64) (d data : List Byte) (ok : Bool), exec (.canTxEnqueue t r d data ok) s = .next (s.done t (canEnqueue m now r d data
      ok))) ∧
    (∀ (c : Fin 16) (sof : Nat) (f : Nat), canEn m c = true → (canOf m c).ready = true → (canOf m c).st < 2 → m.pwr.mode = .run → (canOf m
      c).begun = none → (canOf m c).holdOff ≤ now → canSends m c = true → candidate (canOf m c) = some f → exec (.canFrameStart t c sof
      false) s = .next (s.done t (updCan m c fun y =>
      { y with begun := some f, fifos := lset y.fifos f fun l => lset l 0 fun z => { z with attempts := z.attempts + 1, sof := onCycle now sof } })))
      ∧
    (∀ (c : Fin 16) (f : Nat), (canOf m c).begun = some f → exec (.canArbitrationLost t c) s = .next (s.done t
      (canSettlePark (msgBack (bump m (A.arb_lost c) 1) now c) now c))) ∧
    (∀ (c : Fin 16) (dTec dRec : Nat), canEn m c = true → (canOf m c).ready = true → (canOf m c).st < 2 → exec (.canFrameError t c dTec
      dRec) s = .next (s.done t (canSettlePark (canCounters (msgBack m now c) now c ((canOf m c).tec + dTec) ((canOf m c).rec_ + dRec))
      now c))) ∧
    (∀ (c : Fin 16) (eof : Nat), exec (.canTxComplete t c eof) s = .next (s.done t (canSettlePark (canSent m now c eof) now c))) ∧
    (∀ (c : Fin 16), canEn m c = true → (canOf m c).st = 3 → exec (.recoveryComplete t c) s = .next (s.done t (canEnter (updCan m c fun x
      => { x with tec := 0, rec_ := 0 }) now c 0))) ∧
    (∀ (c : Fin 16), canEn m c = true → exec (.stuckDominant t c) s = .next (s.done t (canEvt (canStateRec m now c 4) c 4))) ∧
    (∀ (c : Fin 16), canEn m c = true → exec (.canChannelReady t c) s = .next (s.done t (updCan m c fun x => { x with ready := true })))

/-- R457-R476: the receive commands of the CAN channels answer the states that their operations give. -/
def Obligations.CanReceiveCommandsComplete : Prop :=
  ∀ (s : State) (t u : Nat) (m : Chip) (now : Nat),
    (FindsCan s t m now →
    (∀ (c : Fin 16) (ident : BitVec 29) (ide rtr : Bool) (fmt : Fin 3) (brs esi : Bool) (sdt vcid : BitVec 8) (af : BitVec 32) (data :
      List Byte) (sof eof : Nat), exec (.canFrameReceived t c ident ide rtr fmt brs esi sdt vcid af data sof eof) s = .next (s.done t
      (canReceive m now c
      { ident := ident.toNat, ide := ide, rtr := rtr, fmt := fmt, brs := brs, esi := esi, sdt := sdt.toNat, vcid := vcid.toNat, af := if fmt.val = 2 then af.toNat else 0, data := data, sof := sof, eof := eof })))
      ∧
    (∀ (c : Fin 24) (r : Fin 64) (d : List Byte) (ecc : Bool), exec (.canRxRingDeliver t c r d ecc) s = .next (s.done t (canDeliver m now
      c r d ecc))) ∧
    (∀ (c : Fin 16) (b l : Nat), (bufOf m c b).lock = some l → l + fld m (A.CAN_RX_LOCK c) 0 16 * us < now → exec (.rxLockBroken t c b) s
      = .next (s.done t (canEvt (bump (emit (updBuf m c b fun x => { x with lock := none, broken := true, host := false }) 0x0702 (srcId 7
      c) now [(2, b), (1, (bufOf m c b).gen), (1, 0), (8, (bufOf m c b).eof)]) (A.rx_lock_broken c) 1) c 3)))) ∧
    (∀ (who : Fin 8) (c : Fin 16) (b : Nat), Accepts s t who (elemAddr s.chip c b 0) false false u m now → b < rxBufs m c → sends m who =
      true → serviceDenied m who (elemAddr m c b (0)) false = false → brgRange (elemAddr m c b (0)) = true → reach m (elemAddr m c b (0))
      = .ok → canSlotOf m ((elemAddr m c b (0)) - A.CAN_RAM_WINDOW 0) = some (c.val, b, 0) → exec (.canWindowLockRead t who c b false) s =
      .next (s.done u (say (windowTouch (readReg m now who (elemAddr m c b (0))).1 now c b (0)) (.read who (elemAddr m c b (0))
      (BitVec.ofNat 32 (readReg m now who (elemAddr m c b (0))).2))))) ∧
    (∀ (who : Fin 8) (c : Fin 16) (b : Nat), Accepts s t who (elemAddr s.chip c b 0) false false u m now → b < rxBufs m c → sends m who =
      true → serviceDenied m who (elemAddr m c b (0)) false = false → brgRange (elemAddr m c b (0)) = true → reach m (elemAddr m c b (0))
      = .ok → canSlotOf m ((elemAddr m c b (0)) - A.CAN_RAM_WINDOW 0) = some (c.val, b, 0) → exec (.canWindowLockRead t who c b true) s =
      .next (s.done u (bufEcc (useFree (say (windowTouch (readReg m now who (elemAddr m c b (0))).1 now c b (0)) (.read who (elemAddr m c
      b (0)) (BitVec.ofNat 32 (freeVal (windowTouch (readReg m now who (elemAddr m c b (0))).1 now c b (0))))))) c b))) ∧
    (∀ (who : Fin 8) (c : Fin 16) (b : Nat), Accepts s t who (elemAddr s.chip c b 0) false false u m now → b < rxBufs m c → sends m who =
      true → serviceDenied m who (elemAddr m c b (lastWord (bufOf m c b))) false = false → brgRange (elemAddr m c b (lastWord (bufOf m c
      b))) = true → reach m (elemAddr m c b (lastWord (bufOf m c b))) = .ok → canSlotOf m ((elemAddr m c b (lastWord (bufOf m c b))) -
      A.CAN_RAM_WINDOW 0) = some (c.val, b, lastWord (bufOf m c b)) → exec (.canWindowReleaseRead t who c b false) s = .next (s.done u
      (say (windowTouch (readReg m now who (elemAddr m c b (lastWord (bufOf m c b)))).1 now c b (lastWord (bufOf m c b))) (.read who
      (elemAddr m c b (lastWord (bufOf m c b))) (BitVec.ofNat 32 (readReg m now who (elemAddr m c b (lastWord (bufOf m c b)))).2))))) ∧
    (∀ (who : Fin 8) (c : Fin 16) (b : Nat), Accepts s t who (elemAddr s.chip c b 0) false false u m now → b < rxBufs m c → sends m who =
      true → serviceDenied m who (elemAddr m c b (lastWord (bufOf m c b))) false = false → brgRange (elemAddr m c b (lastWord (bufOf m c
      b))) = true → reach m (elemAddr m c b (lastWord (bufOf m c b))) = .ok → canSlotOf m ((elemAddr m c b (lastWord (bufOf m c b))) -
      A.CAN_RAM_WINDOW 0) = some (c.val, b, lastWord (bufOf m c b)) → exec (.canWindowReleaseRead t who c b true) s = .next (s.done u
      (bufEcc (useFree (say (windowTouch (readReg m now who (elemAddr m c b (lastWord (bufOf m c b)))).1 now c b (lastWord (bufOf m c b)))
      (.read who (elemAddr m c b (lastWord (bufOf m c b))) (BitVec.ofNat 32 (freeVal (windowTouch (readReg m now who (elemAddr m c b
      (lastWord (bufOf m c b)))).1 now c b (lastWord (bufOf m c b)))))))) c b)))

/-- R487-R497: the LIN commands answer the states that their operations give. -/
def Obligations.LinCommandsComplete : Prop :=
  ∀ (s : State) (t : Nat) (m : Chip) (now : Nat), Finds s t m now →
    (∀ (c : Fin 8), exec (.linSlotStart t c) s = .next (s.done t (linSlot m now c))) ∧
    (∀ (c : Fin 8) (i : Fin 64) (err sof : Nat), linEn m c = true → (flag m (A.LIN_CH_CFG c) 1 && !chanGuarded m (16 + c.val)) = false →
      flag m (A.LIN_STATUS c) 0 = false → m.pwr.mode = .run → (err = 5 ∨ err = 6) → exec (.linHeaderReceived t c i (err, sof)) s = .next
      (s.done t (linErr (updLin m c fun x => { x with lastAct := now, cur := none }) now c err i))) ∧
    (∀ (c : Fin 8) (i : Fin 64) (err sof : Nat), linEn m c = true → (flag m (A.LIN_CH_CFG c) 1 && !chanGuarded m (16 + c.val)) = false →
      flag m (A.LIN_STATUS c) 0 = false → m.pwr.mode = .run → err ≠ 5 → err ≠ 6 → exec (.linHeaderReceived t c i (err, sof)) s = .next
      (s.done t (linHeader m now (onCycle now sof) c i))) ∧
    (∀ (c : Fin 8) (data : List Byte) (sum : BitVec 8) (err eof : Nat), linEn m c = true → (err = 0 ∨ err = 1 ∨ err = 4) → exec
      (.linFrameReceived t c (data, sum) err eof) s = .next (s.done t (linSettlePark (linEnd m now c (linFault m c err sum.toNat data)
      data eof) now c))) ∧
    (∀ (c : Fin 8) (i sof : Nat), (linOf m c).cur = some (i, sof, false) → linEn m c = true → linDir m c i = 2 → sof + linLimit m c i ≤
      now → exec (.linNoResponse t c) s = .next (s.done t (linSettlePark (linErr (updLin m c fun x => { x with cur := none }) now c 3 i)
      now c))) ∧
    (∀ (c : Fin 8), linEn m c = true → flag m (A.LIN_CH_CFG c) 1 = false → flag m (A.LIN_STATUS c) 0 = false → (linOf m c).lastAct + 4 *
      sec ≤ now → exec (.linIdleSleep t c) s = .next (s.done t (linSleep m now c))) ∧
    (∀ (c : Fin 8) (pulse : Nat), linEn m c = true → flag m (A.LIN_STATUS c) 0 = true → 150 ≤ pulse → exec (.linWakeReceived t c pulse) s
      = .next (s.done t (linSleepRec (updLin (setF (linEvt m c 2) (A.LIN_STATUS c) 0 1 0) c fun x =>
      { x with lastAct := now, resumeAt := if flag (setF (linEvt m c 2) (A.LIN_STATUS c) 0 1 0) (A.LIN_CH_CFG c) 1 then some (now + 100 * ms) else none })
      now c 2))) ∧
    (∀ (c : Fin 8) (e : Nat), (linOf m c).resumeAt = some e → linEn m c = true → e ≤ now → exec (.linScheduleResume t c) s = .next (s.done
      t (updLin m c fun x => { x with resumeAt := none, running := flag m (A.LIN_SCHED_CMD c) 2, nextAt := now })))

/-- R508-R543: the commands of the signal gateway answer the states that their operations give. -/
def Obligations.SignalCommandsComplete : Prop :=
  ∀ (s : State) (t : Nat) (m : Chip) (now : Nat), Finds s t m now →
    (∀ (elem : Bool) (ecc : Option (Nat × Nat)), exec (.sgeSourceTake t elem ecc) s = .next (s.done t (sgeTake (canSettle m now) now elem
      ecc))) ∧
    (∀ (fault : Bool), exec (.secocRxVerify t fault) s = .next (s.done t (sgeVerify (canSettle m now) now fault))) ∧
    (∀ (r : Fin 8192), exec (.signalTimeout t r) s = .next (s.done t (sgeTimeout (canSettle m now) now r))) ∧
    (∀ (i : Fin 2048), exec (.minGapExpiry t i none) s = .next (s.done t (gapDue (canSettle m now) now i))) ∧
    (∀ (i : Fin 2048) (k : Nat), exec (.minGapExpiry t i (some (6, k))) s = .next (s.done t (gapDue (sgeEcc (canSettle m now) now 6 k) now
      i))) ∧
    (∀ (i : Fin 2048) (j k : Nat), j ≠ 6 → exec (.minGapExpiry t i (some (j, k))) s = .next (s.done t (sgeEcc (canSettle m now) now j k)))
      ∧
    (∀ (i : Fin 2048), exec (.periodicEmission t i none) s = .next (s.done t (periodic (canSettle m now) now i))) ∧
    (∀ (i : Fin 2048) (k : Nat), exec (.periodicEmission t i (some (6, k))) s = .next (s.done t (periodic (sgeEcc (canSettle m now) now 6
      k) now i))) ∧
    (∀ (i : Fin 2048) (j k : Nat), j ≠ 6 → exec (.periodicEmission t i (some (j, k))) s = .next (s.done t (sgeEcc (canSettle m now) now j
      k))) ∧
    (∀ (i : Fin 2048), exec (.gateEmission t i none) s = .next (s.done t (gateDue (canSettle m now) now i))) ∧
    (∀ (i : Fin 2048) (k : Nat), exec (.gateEmission t i (some (6, k))) s = .next (s.done t (gateDue (sgeEcc (canSettle m now) now 6 k)
      now i))) ∧
    (∀ (i : Fin 2048) (j k : Nat), j ≠ 6 → exec (.gateEmission t i (some (j, k))) s = .next (s.done t (sgeEcc (canSettle m now) now j k)))
      ∧
    (∀ (k : Nat), exec (.pendingEmissionPlace t k) s = .next (s.done t (placePending (canSettle m now) now k))) ∧
    (∀ (i : Fin 2048) (fault : Bool), exec (.secocTxComplete t i fault) s = .next (s.done t (macDone (canSettle m now) now i fault)))

/-- R563-R603: the commands of the DMA engine answer the states that their operations give. -/
def Obligations.DmaCommandsComplete : Prop :=
  ∀ (s : State) (t : Nat) (m : Chip) (now : Nat), Finds s t m now →
    (∀ (reads : List (List Byte × List Byte)) (wrote : List (Fin 64)), exec (.transferStart t reads wrote) s = .next (s.done t
      (transferStart (wrote.foldl (fun m (r : Fin 64) => copyWrite m r) m) now reads))) ∧
    (∀ (r : Fin 64), ringType m r = 0 → exec (.frameTxHandover t r) s = .next (s.done t (txHandover m now r))) ∧
    (∀ (r : Fin 64) (d : Nat), (ringOf m r).gather = some d → d ≤ now → exec (.gatherTmo t r) s = .next (s.done t (gatherDiscard m now
      r))) ∧
    (∀ (r : Fin 64), ringType m r = 1 → exec (.frameRxComplete t r) s = .next (s.done t (rxComplete m now r))) ∧
    (∀ (r : Fin 64) (w : DmaWork), ringType m r = 7 → openWork m r (fun _ => true) = some w → (copyDesc w.desc).total ≤ w.pos → exec
      (.memoryCopyComplete t r) s = .next (s.done t (endWork (copyDrain r w.xfers.length m) now r 0 (fun x => x.idx == w.idx &&
      x.ended.isNone)))) ∧
    (∀ (r : Fin 64), ringType m r = 5 → fld m (A.HIF_RING_COAL r) 0 16 ≠ 0 → (ringOf m r).unsig ≠ 0 → (ringOf m r).first + fld m
      (A.HIF_RING_COAL r) 0 16 * us ≤ now → exec (.coalTimeout t r) s = .next (s.done t (cplRaise m r))) ∧
    (∀ (r : Fin 64), (ringOf m r).stopping = true → ringBusy m r = false → (ringOf m r).err = 0 → exec (.ringStopped t r) s = .next
      (s.done t (updRing m r fun x => { x with stopping := false, stopped := true }))) ∧
    (∀ (r : Fin 64) (ecc : Bool) (a : BitVec 64), exec (.dmaError t r 0 ecc a) s = .next (s.done t (dataFail m now r false ecc a.toNat)))
      ∧
    (∀ (r : Fin 64) (ecc : Bool) (a : BitVec 64), exec (.dmaError t r 1 ecc a) s = .next (s.done t (dataFail m now r true false a.toNat)))
      ∧
    (∀ (r : Fin 64) (ecc : Bool) (a : BitVec 64), exec (.dmaError t r 2 ecc a) s = .next (s.done t (descFail m now r ecc a.toNat))) ∧
    (∀ (r : Fin 64) (ecc : Bool) (a : BitVec 64), exec (.dmaError t r 3 ecc a) s = .next (s.done t (recordFail m now r a.toNat)))

/-- R551-R606: the PCIe commands answer the states that their operations give. -/
def Obligations.PcieCommandsComplete : Prop :=
  ∀ (s : State) (t : Nat) (m : Chip) (now : Nat), Finds s t m now →
    (∀ (l : Fin 2) (sp w : Fin 5), sp ≠ 0 → w ≠ 0 → (l = 1 → flag m A.HIF_LINK_STATUS 0 = true) → domOn m 12 = true → exec (.pcieLinkUp t
      l sp w) s = .next (s.done t (hostPorts (setF (setF (orR m A.HIF_LINK_STATUS (2 ^ (1 + l.val))) A.HIF_LINK_STATUS (4 + 8 * l.val) 3
      sp) A.HIF_LINK_STATUS (8 + 8 * l.val) 3 w) now))) ∧
    (∀ (f : Fin 2), fnUp m f = true → exec (.busMasterEnable t f) s = .next (s.done t (hostPorts (updDma m fun d =>
      { d with bme := lset d.bme f fun _ => true }) now))) ∧
    (∀ (f : Fin 2), bmeOf m f = true → exec (.busMasterDisable t f false) s = .next (s.done t (memoryLost m now f))) ∧
    (∀ (l : Fin 2), flag m A.HIF_LINK_STATUS (1 + l.val) = true → exec (.busMasterDisable t l true) s = .next (s.done t (linkDown m now
      l))) ∧
    (∀ (f : Fin 2), fnUp m f = true → exec (.functionLevelReset t f) s = .next (s.done t (functionReset m now f))) ∧
    (∀ (f : Fin 2) (off : Nat) (b : List Byte), fnUp m f = true → off + b.length ≤ sramSize → flag m A.HIF_BAR2_CFG f = true → exec
      (.bar2Write t f off b) s = .next (s.done t (memStore m 2 (sramBase + off) b))) ∧
    (∀ (f : Fin 2) (off : Nat) (b : List Byte), fnUp m f = true → (sramSize < off + b.length ∨ flag m A.HIF_BAR2_CFG f = false) → exec
      (.bar2Write t f off b) s = .next (s.done t (capture m .hif off 8))) ∧
    (∀ (f : Fin 2) (off : Nat), fnUp m f = true → exec (.bar0PartialWrite t f off) s = .next (s.done t (capture m .hif off 7)))

/-- R616-R661: the error and Ledger commands answer the states that their operations give. -/
def Obligations.ErrorAndLedgerCommandsComplete : Prop :=
  ∀ (s : State) (t : Nat) (m : Chip) (now : Nat), Finds s t m now →
    (∀ (who : Fin 8) (a : Nat) (d : Word) (c : Fin 5), c ≠ 0 → exec (.postedWriteError t who a d c) s = .next (s.done t (brgFail m now who
      (a % 2 ^ 32) d c true))) ∧
    (∀ (who : Fin 8) (a : Nat) (d : Word) (w : Bool) (since : Nat), since + fld m A.BRG_CFG 0 16 * cyc ≤ now → exec (.targetTimeout t who
      a d w since) s = .next (s.done t (brgFail m now who (a % 2 ^ 32) d 4 w))) ∧
    (∀ (h : Fin 5) (a : Nat), brgRange a = true → sends m (2 + h) = true → exec (.exclusive64Access t h a) s = .next (s.done t
      (say (bump m A.err_decode 1) (.busError (2 + h) a 1)))) ∧
    (∀ (h : Fin 5), exec (.monitorTimeout t h) s = .next (s.done t (updBrg m fun b =>
      { b with monitors := b.monitors.filter fun x => x.hart != 2 + h.val || monLive m now x }))) ∧
    (∀ (src code : Fin 65536) (sev : Fin 4) (info : Nat), sev ≠ 0 → exec (.safeErrorReport t src code sev info) s = .next (s.done t
      (report m now src code sev info))) ∧
    (exec (.ledgerAccept t) s = .next (s.done t (ledgerAccept m now))) ∧
    (anchorIsDue m now = true → ledgerFull m now = false → exec (.timeAnchor t) s = .next (s.done t (anchorWrite m now))) ∧
    (m.ledger.lostF + m.ledger.lostO + m.ledger.lostE ≠ 0 → m.ledger.lostWin ≠ some (now / ms) → m.ledger.startDue = none → ledgerFull m
      now = false → exec (.ledgerLost t) s = .next (s.done t (ledgerTake (updLedger m fun l =>
      { l with lostF := 0, lostO := 0, lostE := 0, lostWin := some (now / ms) }) now true
      ⟨0x0002, 0, now, payload [(4, sat 32 m.ledger.lostF), (4, sat 32 m.ledger.lostO), (4, sat 32 m.ledger.lostE)]⟩))) ∧
    (∀ (ecc : Option Nat) (e : ExportBuf), (exportMove m now ecc).ledger.exp = some e → e.cap ≤ e.count → exec (.exportBufferFull t ecc) s
      = .next (s.done t (exportEnd (exportMove m now ecc) now 0))) ∧
    (∀ (ecc : Option Nat) (e : ExportBuf), m.ledger.exp = some e → 0 < e.count → e.firstLt + fld m A.LEDGER_EXPORT_CFG 16 16 * us ≤ now →
      exec (.exportFlushTimeout t ecc) s = .next (s.done t (exportEnd (exportMove m now ecc) now 0)))

/-- R34, R671, R803-R832: the reset and supply commands answer the states that their operations give. -/
def Obligations.ResetAndSupplyCommandsComplete : Prop :=
  ∀ (s : State) (t : Nat) (m : Chip) (now : Nat), FindsAny s t m now →
    (∀ (ahead : Nat), m.pwr.mode ≠ .off → exec (.ltFloorAdvance t ahead) s = .next (s.done t (updPwr m fun p =>
      { p with floor := max p.floor (now + 2 ^ 36 + ahead) }))) ∧
    (∀ (straps : Fin 4) (a b : Nat) (d0 d1 o0 o1 : List Byte), s.chip.pwr.mode = .off → exec (.powerOn t straps a b d0 d1 o0 o1) s = .next
      (s.done (max t s.chip.pwr.floor) (powerOn (s.found (max t s.chip.pwr.floor)) (s.when_ (max t s.chip.pwr.floor)) straps a b d0 d1 o0
      o1))) ∧
    (∀ (low : Nat), 10 * us ≤ low → exec (.brownOut t low) s = .next (s.done t (brownOut m))) ∧
    (∀ (low : Nat), us ≤ low → bit m.pwr.vddio 0 = true → (m.pwr.mode = .run ∨ m.pwr.mode = .parking) → exec (.resetNInput t low) s =
      .next (s.done t (updPwr m fun p => { p with held := true, rstAt := some (now, 2) }))) ∧
    (∀ (low : Nat), low ≤ 400 → exec (.resetNInput t low) s = .next (s.done t (m))) ∧
    (∀ (straps : Fin 4) (d0 d1 o0 o1 : List Byte) (l : Nat), m.pwr.held = true → m.pwr.rstAt = some (l, 2) → exec (.resetNRelease t straps
      d0 d1 o0 o1) s = .next (s.done t (coldReset m now straps d0 d1 o0 o1))) ∧
    (∀ (straps : Fin 4) (d0 d1 o0 o1 : List Byte) (l c : Nat), m.pwr.rstAt = some (l, c) → c ≠ 2 → exec (.coldReset t straps d0 d1 o0 o1)
      s = .next (s.done t (coldReset m now straps d0 d1 o0 o1))) ∧
    (∀ (b : Fin 2) (mv : Nat), m.pwr.mode ≠ .off → exec (.vddioSupplyChange t b mv) s = .next (s.done t (vddioChange m now b mv))) ∧
    (∀ (k : Fin 6), flag m A.GLB_CLK_STATUS k = true → coreOn m = true → k.val < 3 → exec (.clockLoss t k) s = .next (s.done t
      (report (setIrq (clrR m A.GLB_CLK_STATUS (2 ^ k.val)) .glb 0) now 0x0D10 0x0DF2 3 k))) ∧
    (∀ (k : Fin 6), flag m A.GLB_CLK_STATUS k = true → coreOn m = true → 3 ≤ k.val → k.val < 5 → exec (.clockLoss t k) s = .next (s.done t
      (report (clrR m A.GLB_CLK_STATUS (2 ^ k.val)) now 0x0D10 0x0DF3 2 k))) ∧
    (flag m A.GLB_CLK_STATUS 5 = true → coreOn m = true → exec (.clockLoss t 5) s = .next (s.done t (setIrq (clrR m A.GLB_CLK_STATUS 32)
      .glb 1))) ∧
    (m.pwr.mode ≠ .off → exec (.clockReturn t) s = .next (s.done t (orR m A.GLB_CLK_STATUS 32))) ∧
    (∀ (i : Fin 4), m.pwr.mode ≠ .off → (i.val < 2 ∨ m.life = 0 ∨ m.life = 3) → exec (.tapInstruction t i) s = .next (s.done t
      (say (updTriad m fun x => { x with tap := i }) (.pin "TAP" i))))

/-- R678-R700: the park and wake commands answer the states that their operations give. -/
def Obligations.WakeCommandsComplete : Prop :=
  ∀ (s : State) (t : Nat) (m : Chip) (now : Nat), FindsAny s t m now →
    (m.pwr.mode = .parking → m.pwr.phase = 2 → exec (.parkCommit t) s = .next (s.done t (parkCommit m now))) ∧
    ((m.pwr.mode = .listen ∨ m.pwr.mode = .deep) → m.pwr.enAt + 10 * us ≤ now → bit m.pwr.en 0 = true → exec (.pmicEnableStep t) s = .next
      (s.done t (driveEn m now (m.pwr.en - 1)))) ∧
    (m.pwr.mode = .waking → m.pwr.enAt + 10 * us ≤ now → m.pwr.pg = true → m.pwr.pgAt + 10 * us ≤ now → exec (.pmicEnableStep t) s = .next
      (s.done t (raiseEn m now))) ∧
    (∀ (l : Fin 16), m.pwr.mode ≠ .off → exec (.wakeInDetect t l) s = .next (s.done t (applyHeld (wakePins m now l) now))) ∧
    (flag m A.PWR_WAKE_EN 4 = true → rd64 m A.PWR_RTC_ALARM_LO ≠ 0 → rd64 m A.PWR_RTC_ALARM_LO ≤ now → wakeTaken m 4 = true → exec
      (.rtcAlarm t) s = .next (s.done t (applyHeld (wakeDetect (wr64 m A.PWR_RTC_ALARM_LO 0) now 4 0) now))) ∧
    (∀ (e : Fin 8), flag m (A.MAC_PT1_CFG (8 + e)) 2 = true → coreOn m = false → exec (.tc10WakeDetect t e) s = .next (s.done t
      (applyHeld (wakeDetect m now 3 e) now))) ∧
    (∀ (d : Fin 4) (kind : Fin 3) (ident : BitVec 29) (ide : Bool) (dlc : Fin 16) (data : List Byte) (errs eof : Nat), wakeTaken m 2 =
      true → bit m.pwr.vddio 1 = true → coreOn m = false → pnMatches m d kind ident.toNat ide dlc data errs = true → exec (.canPnWake t d
      kind ident ide dlc data errs eof) s = .next (s.done t (wakeDetect (lateRec (setIrq (wr64 (wrN m (A.CAN_PN_WAKE_ID d) (ident.toNat +
      b2n ide * 2 ^ 29 + kind * 2 ^ 30)) (A.CAN_PN_WAKE_LT_LO d) eof) .can (16 + d)) 0x0704 (srcId 7 d) eof
      [(4, ident.toNat + b2n ide * 2 ^ 29), (1, kind)]) now 2 d))) ∧
    (∀ (pgLow : Bool), (m.pwr.mode = .listen ∨ m.pwr.mode = .deep) → m.pwr.wake.isSome = true → (pgLow = true ∨ m.pwr.enAt + fld m
      A.PWR_PMIC_CFG 16 16 * us ≤ now) → exec (.wakeSequenceStart t pgLow) s = .next (s.done t (raiseEn (updPwr m fun p =>
      { p with mode := .waking, pg := p.pg && !pgLow, rail := if fld m A.PWR_AVS_STATUS 16 10 = 0 then p.rail else fld m A.PWR_AVS_STATUS 16 10 })
      now))) ∧
    (m.pwr.pg = false → m.pwr.mode = .waking → m.pwr.en = 0xF → exec (.pmicPgRise t) s = .next (s.done t (wrN (updPwr m fun p =>
      { p with pg := true, pgAt := now }) (A.PWR_WAKE_T 0) (sinceWake (updPwr m fun p => { p with pg := true, pgAt := now }) now)))) ∧
    (∀ (k : Fin 5), m.pwr.mode = .run → exec (.pllLock t k) s = .next (s.done t (orR m A.GLB_CLK_STATUS (2 ^ k.val)))) ∧
    (∀ (ecc : Bool) (bad : Fin 256), m.pwr.mode = .waking → m.pwr.deep = false → m.pwr.fclk = true → exec (.restoreDone t (ecc, bad)) s =
      .next (s.done t (applyHeld (restore m now ecc bad) now))) ∧
    (m.pwr.mode = .waking → m.pwr.pg = false → m.pwr.enAt + fld m A.PWR_PMIC_CFG 16 16 * us ≤ now → m.safe.fault = false → exec
      (.pmicPgTimeout t) s = .next (s.done t (say (updSafe (updPwr (driveEn (pmicFault m now 1) now 0) fun p =>
      { p with mode := .deep, deep := true, wake := none }) fun x => { x with fault := true, cause := 0, since := now }) (.pin "FAULT"
      1)))) ∧
    (∀ (v back back2 : Nat), m.pwr.spi = some v → flag m A.PWR_PMIC_CFG 7 = true → back = v % 65536 → exec (.pmicSpiWrite t back back2) s
      = .next (s.done t (say (updPwr m fun p => { p with spi := none }) (.pmic (fld (updPwr m fun p => { p with spi := none })
      A.PWR_PMIC_CFG 0 7) (v % 65536)))))

/-- R669-R704: the power management commands answer the states that their operations give. -/
def Obligations.PowerManagementCommandsComplete : Prop :=
  ∀ (s : State) (t : Nat) (m : Chip) (now : Nat), Finds s t m now →
    (∀ (temp : Int), exec (.temperatureScan t temp) s = .next (s.done t (hotCheck now temp (hotCheck now temp m (0, 150, 0x0DF4, 2)) (1,
      160, 0x0DF5, 3)))) ∧
    (m.pwr.mode = .parking → m.pwr.phase = 1 → drained m = true → exec (.drainComplete t) s = .next (s.done t (parkStore m now))) ∧
    (m.pwr.mode = .run → m.pwr.mintLatch.isSome = true → m.mint.jobs.all (·.core.isNone) = true → exec (.drainComplete t) s = .next
      (s.done t (mintOff m))) ∧
    (m.pwr.mode = .parking → m.pwr.phase = 1 → m.pwr.latch + fld m A.PWR_DRAIN_TMO 0 17 * us ≤ now → exec (.drainTimeout t) s = .next
      (s.done t (parkStore (drainAbort m now) now))) ∧
    (∀ (l : Nat), m.pwr.mode = .run → m.pwr.mintLatch = some l → l + fld m A.PWR_DRAIN_TMO 0 17 * us ≤ now → exec (.drainTimeout t) s =
      .next (s.done t (mintOff (setF (drainRec now (mintDown m now true) (15, m.mint.jobs.length, 0, 0, 0)) A.PWR_PARK_STATUS 16 16
      (sat 16 m.mint.jobs.length))))) ∧
    (exec (.pmicFaultInput t true) s = .next (s.done t (report (pmicFault m now 4) now 0x0D00 0x0D04 3 4))) ∧
    (m.pwr.en = 0xF → m.pwr.pg = true → exec (.pmicFaultInput t false) s = .next (s.done t (report (pmicFault (updPwr m fun p =>
      { p with pg := false }) now 2) now 0x0D00 0x0D04 3 2))) ∧
    (∀ (need : Option Nat), flag m A.PWR_AVS_CFG 31 = true → exec (.avsUpdate t need) s = .next (s.done t (avsUpdate m now need))) ∧
    (∀ (a : Nat), m.pwr.idleSince = some a → flag m A.PWR_IDLE_CFG 0 = true → quiet m = true → m.pwr.mode = .run → a + fld m
      A.PWR_IDLE_CFG 16 16 * us ≤ now → exec (.idleGatingStart t) s = .next (s.done t (updPwr m fun p => { p with idle := true }))) ∧
    (m.pwr.idle = true → exec (.idleGatingEnd t) s = .next (s.done t (updPwr m fun p => { p with idle := false, idleSince := none })))

/-- R707-R719: the triad and watchdog commands answer the states that their operations give. -/
def Obligations.TriadCommandsComplete : Prop :=
  ∀ (s : State) (t : Nat) (m : Chip) (now : Nat), Finds s t m now →
    (∀ (c : Fin 3) (g : Fin 256) (pc : Word), m.triad.mode = 0 → exec (.triadSingleMismatch t c false g pc) s = .next (s.done t
      (setIrq (bump (triadMismatch (useFree (later (updTriad m fun x => { x with mode := 1, odd := c, src := otherCopy c, syncAt := now })
      (now + cyc * (1 + freeVal m)) (.stall now))) now (2 ^ c.val) 1 g pc.toNat 1) A.mismatches 1) .safe 16))) ∧
    (∀ (c : Fin 3) (g : Fin 256) (pc : Word), m.triad.mode = 0 → exec (.triadSingleMismatch t c true g pc) s = .next (s.done t
      (setIrq (setIrq (bump (triadMismatch (useFree (later (updTriad m fun x =>
      { x with mode := 1, odd := c, src := otherCopy c, syncAt := now }) (now + cyc * (1 + freeVal m)) (.stall now))) now (2 ^ c.val) 3 g
      pc.toNat 1) A.mismatches 1) .safe 16) .safe 21))) ∧
    (m.triad.mode = 1 → exec (.triadRejoin t) s = .next (s.done t (rejoin m now))) ∧
    (∀ (k : Fin 8) (g : Fin 256) (pc : Word), m.triad.mode < 2 → exec (.triadDoubleMismatch t k g pc) s = .next (s.done t
      (setIrq (bump (triadMismatch (triadHold m now) now k 2 g pc.toNat 3) A.doubles 1) .safe 18))) ∧
    (∀ (d : Nat), m.triad.restartAt = some d → m.triad.mode = 3 → d ≤ now → exec (.triadRestart t false) s = .next (s.done t (updTriad m
      fun x =>
      { x with mode := if x.split then 2 else 0, restartAt := none, halted := 0, pause := none, tcm := x.image, kick := if fld m A.TRIAD_WDT_CFG 0 16 ≠ 0 then some now else none })))
      ∧
    (∀ (d : Nat), m.triad.restartAt = some d → m.triad.mode = 3 → d ≤ now → exec (.triadRestart t true) s = .next (s.done t
      (report (updTriad (triadHold m now) fun x => { x with restartAt := none }) now 0x0E02 0x0EF2 3 0))) ∧
    (lapsed m.triad.kick m.triad.pause (fld m A.TRIAD_WDT_CFG 0 16 * us) now = true → m.triad.mode ≠ 3 → exec (.triadWdtExpiry t) s =
      .next (s.done t (report (setIrq (bump (triadHold m now) A.wdt_expiries 1) .safe 19) now 0x0E02 0x0EF0 3 0))) ∧
    (lapsed m.triad.ckick m.triad.cpause (fld m A.TRIAD_CWDT_CFG 0 24 * us) now = true → exec (.cwdtExpiry t) s = .next (s.done t
      (report (setIrq (bump (updTriad m fun x => { x with ckick := some now }) A.cwdt_expiries 1) .safe 20) now 0x0E02 0x0EF1 2 0)))

/-- R720-R736: the debug commands answer the states that their operations give. -/
def Obligations.DebugCommandsComplete : Prop :=
  ∀ (s : State) (t u : Nat) (m : Chip) (now : Nat),
    (Finds s t m now →
    (∀ (dm : Fin 2) (a : Fin 128) (op : Fin 4) (d : Word), svcDebug m = false → exec (.dmiAccess t dm a op d) s = .next (s.done t
      (dmiAnswer m 2))) ∧
    (∀ (dm : Fin 2) (a : Fin 128) (d : Word), svcDebug m = true → exec (.dmiAccess t dm a 1 d) s = .next (s.done t
      (useFree (say (dmiAnswer m 0) (.read 7 (dm.val * 128 + a.val) (BitVec.ofNat 32 (freeVal m))))))) ∧
    (∀ (h : Fin 16), svcDebug m = true → exec (.debugHaltRequest t 0 h) s = .next (s.done t (clusterHalt (dmiAnswer m 0) now h))) ∧
    (∀ (h : Fin 16), svcDebug m = true → m.life ≠ 3 → bit h 0 = true → exec (.debugHaltRequest t 1 h) s = .next (s.done t
      (triadHalt (dmiAnswer m 0) now 7))) ∧
    (∀ (h : Fin 16), svcDebug m = true → exec (.debugResumeRequest t 0 h) s = .next (s.done t (clusterRun (dmiAnswer m 0) now h))) ∧
    (∀ (h : Fin 16), svcDebug m = true → m.life ≠ 3 → bit h 0 = true → exec (.debugResumeRequest t 1 h) s = .next (s.done t
      (triadRun (dmiAnswer m 0) now 7))) ∧
    (∀ (dm : Fin 2) (h : Fin 16), svcDebug m = false → exec (.debugHaltRequest t dm h) s = .next (s.done t (dmiAnswer m 2))) ∧
    (∀ (h : Fin 16) (odd : Option (Fin 3)), svcDebug m = true → exec (.abstractCommand t 0 h odd) s = .next (s.done t
      (useFree (say (dmiAnswer m 0) (.read 7 0x104 (BitVec.ofNat 32 (freeVal (dmiAnswer m 0)))))))) ∧
    (∀ (e : Nat), m.triad.session = some e → e ≤ now → exec (.sessionExpiry t) s = .next (s.done t (sessionClose m now)))) ∧
    (∀ (a : BitVec 32) (d : Word), Accepts s t 7 a.toNat true false u m now → svcDebug m = true → exec (.systemBusAccess t true a d) s =
      .next (s.done u (put m now 7 a.toNat d false false))) ∧
    (∀ (a : BitVec 32) (d : Word), Accepts s t 7 a.toNat false false u m now → svcDebug m = true → exec (.systemBusAccess t false a d) s =
      .next (s.done u (look m now 7 a.toNat))) ∧
    (∀ (w : Bool) (a : BitVec 32) (d : Word), Accepts s t 7 a.toNat w false u m now → svcDebug m = false → exec (.systemBusAccess t w a d)
      s = .next (s.done u (dmiAnswer m 2)))

/-- R739-R766: the token commands answer the states that their operations give. -/
def Obligations.PairTokenCommandsComplete : Prop :=
  ∀ (s : State) (t : Nat) (m : Chip) (now : Nat), FindsAny s t m now →
    (coreOn m = true →
    (∀ (n : Nat) (flt : Bool), 2 + 2 * pairId m ≤ n → mayClaim m now flt = true → exec (.tokenClaim t n flt) s = .next (s.done t
      (tokenClaim (updPair m fun p => { p with holdoff := none }) now))) ∧
    (∀ (d : Nat), m.pair.release = some d → m.pair.active = true → d ≤ now → exec (.guardedPortsRelease t) s = .next (s.done t
      (emit (updPair m fun p => { p with release := none }) 0x0F04 0x0F00 now [(4, m.pair.since), (1, b2n !m.pair.current)]))) ∧
    (∀ (k : Nat), m.pair.active = true → 8 ≤ k → exec (.pairActLineFault t k) s = .next (s.done t (report (tokenRelease m now 9) now
      0x0F00 0x0FF1 3 0))) ∧
    (∀ (d : Nat), m.pair.accept = some d → d ≤ now → exec (.acceptExpiry t) s = .next (s.done t (updPair m fun p =>
      { p with accept := none }))) ∧
    (m.pair.handing = 2 → exec (.handoverRelease t) s = .next (s.done t (tokenRelease m now 5)))) ∧
    (m.pair.active = true → (cdiv (3 * bcycLen m) 30520 + 1) * 1953125 ≤ (now - m.pair.lease) * 16 → exec (.leaseExpiry t) s = .next
      (s.done t (tokenRelease m now 6))) ∧
    (∀ (d : Nat), m.pair.holdoff = some d → d ≤ now → exec (.holdoffExpiry t) s = .next (s.done t (updPair m fun p =>
      { p with holdoff := none })))

/-- R746-R797: the cycle commands of the pair and the image commands answer the states that their operations give. -/
def Obligations.PairCycleAndImageCommandsComplete : Prop :=
  ∀ (s : State) (t : Nat) (m : Chip) (now : Nat), Finds s t m now →
    (∀ (k b : Nat), m.pair.snap = some (k, b) → pairEn m = true → b + fld m A.PAIR_TIMING 8 8 * us ≤ now → sget m.pair.own k = none → exec
      (.pairCycleClose t) s = .next (s.done t (cycleClose m now k b))) ∧
    (∀ (f : BitVec 8) (v : Word) (k lt len : Nat) (secs : List (Nat × List Byte)), pairEn m = true → exec (.bundleReceive t true f v k lt
      len secs) s = .next (s.done t (bundleGood m now f.toNat v.toNat k lt len secs))) ∧
    (∀ (f : BitVec 8) (v : Word) (k lt len : Nat) (secs : List (Nat × List Byte)), pairEn m = true → exec (.bundleReceive t false f v k lt
      len secs) s = .next (s.done t (bundleBad m now))) ∧
    (∀ (k b bad : Nat) (p q e : Bool), m.pair.check = some (k, b) → m.pair.ownRes = none → b + 200 * us ≤ now → bad = (b2n (!p) + 2 * b2n
      (!q) + 4 * b2n (!e) + 8 * b2n (decide (2 ≤ m.triad.mode)) + 16 * b2n (m.safe.q.any fun x => 2 ≤ x.sev)) → exec (.selfCheckEnd t p q
      e) s = .next (s.done t (outcome (say (say (updPair m fun x => { x with ownRes := some (bad = 0) }) (.link 0 (pairHeader (updPair m
      fun x => { x with ownRes := some (bad = 0) }) (pairFlags (updPair m fun x => { x with ownRes := some (bad = 0) }) now
      m.pair.current) k b 1))) (.link 2 (packLe [(8, k), (1, b2n (bad ≠ 0)), (2, bad), (5, 0)]))) now))) ∧
    (∀ (x : Nat × Nat), m.pair.check = some x → m.pair.parRes = none → x.2 + 250 * us ≤ now → exec (.selfCheckResultTimeout t) s = .next
      (s.done t (outcome (updPair m fun p => { p with parRes := some false }) now))) ∧
    (∀ (l : CfgLoad), m.cfg.load = some l → exec (.cfgLoadComplete t) s = .next (s.done t (loadComplete m now))) ∧
    (∀ (p : CfgPend), m.cfg.pend = some p → p.due = true → exec (.activationEffect t) s = .next (s.done t (activate m now p))) ∧
    (m.cfg.gclDue = true → m.cfg.actLt < now → exec (.gclApply t) s = .next (s.done t ((m.cfg.gcl.getD m.cfg.active []).foldl
      (gclRecord now) (updCfg m fun c => { c with gclDue := false }))))

/-- R673, R682, R701, R703, R805, R812: what a taken write of GLB and PWR does. That a park is latched in the cycle after is the model's reading (log entry 165). -/
def Obligations.PowerRegisterCommandsComplete : Prop :=
  ∀ (s : State) (t u : Nat) (m : Chip) (now : Nat),
    (∀ (who : Fin 8) (d : Word), Writes s t u m now who (A.GLB_RST_CMD) (d.toNat) → exec (.coldResetCmd t who d) s = .next (s.done u
      (wrote m now (A.GLB_RST_CMD) (d.toNat) .glb (fun x => if x.pwr.rstAt.isSome then x else updPwr x fun p =>
      { p with rstAt := some (now, 3) })))) ∧
    (∀ (who : Fin 8) (d : Word), Writes s t u m now who (irqRoute 0) (d.toNat) → exec (.irqRouteWrite t who 0 d) s = .next (s.done u
      (noted m now who (irqRoute 0) (d.toNat)))) ∧
    (∀ (who : Fin 8) (d : Word), land now m (.write who (irqRoute 0) (d.toNat)) = effected m (irqRoute 0) (d.toNat) .glb (fun x =>
      Blk.all.foldl (fun y b => if irqTo y 0 b && irqTo m 0 b then sendMsix y 0 (64 + b.irqBit) else y) x)) ∧
    (∀ (who : Fin 8) (d : Word), Writes s t u m now who (irqRoute 1) (d.toNat) → exec (.irqRouteWrite t who 1 d) s = .next (s.done u
      (noted m now who (irqRoute 1) (d.toNat)))) ∧
    (∀ (who : Fin 8) (d : Word), land now m (.write who (irqRoute 1) (d.toNat)) = effected m (irqRoute 1) (d.toNat) .glb (fun x =>
      Blk.all.foldl (fun y b => if irqTo y 1 b && irqTo m 1 b then sendMsix y 1 (64 + b.irqBit) else y) x)) ∧
    (∀ (who : Fin 8) (a : Fin 4) (d : Word), Writes s t u m now who (irqRoute a) (d.toNat) → 2 ≤ a.val → exec (.irqRouteWrite t who a d) s
      = .next (s.done u (noted m now who (irqRoute a) (d.toNat)))) ∧
    (∀ (who : Fin 8) (a : Fin 4) (d : Word), 2 ≤ a.val → land now m (.write who (irqRoute a) (d.toNat)) = effected m (irqRoute a)
      (d.toNat) .glb (fun x => x)) ∧
    (∀ (who : Fin 8), Writes s t u m now who (A.PWR_CMD) (1) → exec (.park t who) s = .next (s.done u (wrote m now (A.PWR_CMD) (1) .pwr
      (fun x => nextCycle (rstR x A.PWR_CMD) now .park)))) ∧
    (land now m .park = park m now) ∧
    (∀ (who : Fin 8), Writes s t u m now who (A.PWR_CMD) (2) → exec (.parkCancel t who) s = .next (s.done u (wrote m now (A.PWR_CMD) (2)
      .pwr (fun x => if (rstR x A.PWR_CMD).pwr.mode == .parking then parkAbandon (rstR x A.PWR_CMD) now 0 0 else rstR x A.PWR_CMD)))) ∧
    (∀ (who : Fin 8) (k : Fin 16) (d : Word), d = BitVec.ofNat 32 (setBits (rdN m A.PWR_DOM_CTRL) k 1 1) → Writes s t u m now who
      (A.PWR_DOM_CTRL) (d.toNat) → exec (.domainPowerDown t who k) s = .next (s.done u (wrote m now (A.PWR_DOM_CTRL) (d.toNat) .pwr (fun x
      => domWrite x now (oldWord m (A.PWR_DOM_CTRL)) d.toNat)))) ∧
    (∀ (who : Fin 8) (k : Fin 16) (d : Word), d = BitVec.ofNat 32 (setBits (rdN m A.PWR_DOM_CTRL) k 1 0) → Writes s t u m now who
      (A.PWR_DOM_CTRL) (d.toNat) → exec (.domainPowerUp t who k) s = .next (s.done u (wrote m now (A.PWR_DOM_CTRL) (d.toNat) .pwr (fun x
      => domWrite x now (oldWord m (A.PWR_DOM_CTRL)) d.toNat))))

/-- R43, R45, R59, R68, R398: what a taken write of MAC does. -/
def Obligations.PortRegisterCommandsComplete : Prop :=
  ∀ (s : State) (t u : Nat) (m : Chip) (now : Nat),
    (∀ (who : Fin 8) (p : Fin 20), Writes s t u m now who (A.MAC_PCNT_CLR p) (1) → p.val < 16 → exec (.counterClear t who p) s = .next
      (s.done u (wrote m now (A.MAC_PCNT_CLR p) (1) .mac (fun x => clearCnts (clearCnts x (A.rx_frames p) (A.rx_frames p + 0x80))
      (A.out_protected p) (A.out_protected p + 0x80))))) ∧
    (∀ (who : Fin 8) (p : Fin 20), Writes s t u m now who (A.MAC_PCNT_CLR p) (1) → 16 ≤ p.val → exec (.counterClear t who p) s = .next
      (s.done u (wrote m now (A.MAC_PCNT_CLR p) (1) .mac (fun x => clearCnts x (A.rx_frames p) (A.rx_frames p + 0x80))))) ∧
    (∀ (who : Fin 8) (p : Fin 20) (d : Word), d = BitVec.ofNat 32 (setBits (rdN m (A.MAC_PCFG p)) 0 1 0) → Writes s t u m now who
      (A.MAC_PCFG p) (d.toNat) → flag m (A.MAC_PCFG p) 0 = true → exec (.portDisable t who p) s = .next (s.done u (wrote m now (A.MAC_PCFG
      p) (d.toNat) .mac (fun x => portDisable x now p)))) ∧
    (∀ (who : Fin 8) (e : Fin 8), Writes s t u m now who (A.MAC_PT1_CTRL (8 + e)) (1) → exec (.tc10SleepReq t who e) s = .next (s.done u
      (wrote m now (A.MAC_PT1_CTRL (8 + e)) (1) .mac (fun x => sleepStart x now (8 + e))))) ∧
    (∀ (who : Fin 8) (e : Fin 8), Writes s t u m now who (A.MAC_PT1_CTRL (8 + e)) (2) → exec (.tc10WakeReq t who e) s = .next (s.done u
      (wrote m now (A.MAC_PT1_CTRL (8 + e)) (2) .mac (fun x => tc10Send x (8 + e))))) ∧
    (∀ (who : Fin 8) (p : Fin 16) (d : Word), Writes s t u m now who (A.MACSEC_TXSC_CFG p) (d.toNat) → exec (.encodingAnWrite t who p d) s
      = .next (s.done u (noted m now who (A.MACSEC_TXSC_CFG p) (d.toNat)))) ∧
    (∀ (who : Fin 8) (p : Fin 16) (d : Word), land now m (.write who (A.MACSEC_TXSC_CFG p) (d.toNat)) = effected m (A.MACSEC_TXSC_CFG p)
      (d.toNat) .mac (fun x => x))

/-- R106, R172, R173, R212, R841: what a taken write of PRS does. -/
def Obligations.ParserRegisterCommandsComplete : Prop :=
  ∀ (s : State) (t u : Nat) (m : Chip) (now : Nat),
    (∀ (who : Fin 8) (d : Word), Writes s t u m now who (A.PRS_LANE_CFG) (d.toNat) → exec (.laneCfgWrite t who d) s = .next (s.done u
      (noted m now who (A.PRS_LANE_CFG) (d.toNat)))) ∧
    (∀ (who : Fin 8) (d : Word), land now m (.write who (A.PRS_LANE_CFG) (d.toNat)) = effected m (A.PRS_LANE_CFG) (d.toNat) .prs (fun x =>
      if bits (oldWord m (A.PRS_LANE_CFG)) 0 15 ≠ bits (newWord m (A.PRS_LANE_CFG) (d.toNat)) 0 15 then laneCfgChanged x now else x)) ∧
    (∀ (who : Fin 8), Writes s t u m now who (A.PRS_LANE_CTRL) (1) → exec (.returnAll t who) s = .next (s.done u (noted m now who
      (A.PRS_LANE_CTRL) (1)))) ∧
    (∀ (who : Fin 8), land now m (.write who (A.PRS_LANE_CTRL) (1)) = effected m (A.PRS_LANE_CTRL) (1) .prs (fun x => returnAll (rstR x
      A.PRS_LANE_CTRL))) ∧
    (∀ (who : Fin 8) (k : Fin 16) (staged ecc : Bool), Writes s t u m now who (A.PRS_TBL_CMD) ((tblWord k 0 staged).toNat) → exec
      (.tblRead t who k staged ecc) s = .next (s.done u (wrote m now (A.PRS_TBL_CMD) ((tblWord k 0 staged).toNat) .prs (fun x =>
      tblCommand x now ecc)))) ∧
    (∀ (who : Fin 8) (k : Fin 16) (staged ecc : Bool), Writes s t u m now who (A.PRS_TBL_CMD) ((tblWord k 1 staged).toNat) → exec
      (.tblWrite t who k staged ecc) s = .next (s.done u (wrote m now (A.PRS_TBL_CMD) ((tblWord k 1 staged).toNat) .prs (fun x =>
      tblCommand x now ecc)))) ∧
    (∀ (who : Fin 8) (k : Fin 16) (staged ecc : Bool), Writes s t u m now who (A.PRS_TBL_CMD) ((tblWord k 2 staged).toNat) → exec
      (.tblInsert t who k staged ecc) s = .next (s.done u (wrote m now (A.PRS_TBL_CMD) ((tblWord k 2 staged).toNat) .prs (fun x =>
      tblCommand x now ecc)))) ∧
    (∀ (who : Fin 8) (k : Fin 16) (staged ecc : Bool), Writes s t u m now who (A.PRS_TBL_CMD) ((tblWord k 3 staged).toNat) → exec
      (.tblDelete t who k staged ecc) s = .next (s.done u (wrote m now (A.PRS_TBL_CMD) ((tblWord k 3 staged).toNat) .prs (fun x =>
      tblCommand x now ecc)))) ∧
    (∀ (who : Fin 8) (k : Fin 16) (staged ecc : Bool), Writes s t u m now who (A.PRS_TBL_CMD) ((tblWord k 4 staged).toNat) → exec
      (.tblSearch t who k staged ecc) s = .next (s.done u (wrote m now (A.PRS_TBL_CMD) ((tblWord k 4 staged).toNat) .prs (fun x =>
      tblCommand x now ecc)))) ∧
    (∀ (who : Fin 8) (k : Fin 16) (staged ecc : Bool), Writes s t u m now who (A.PRS_TBL_CMD) ((tblWord k 5 staged).toNat) → exec
      (.tblClearState t who k staged ecc) s = .next (s.done u (wrote m now (A.PRS_TBL_CMD) ((tblWord k 5 staged).toNat) .prs (fun x =>
      tblCommand x now ecc)))) ∧
    (∀ (who : Fin 8) (ecc : Bool), Writes s t u m now who (A.PRS_CT_CMD) ((ctWord 0).toNat) → exec (.ctRead t who ecc) s = .next (s.done u
      (wrote m now (A.PRS_CT_CMD) ((ctWord 0).toNat) .prs (fun x => ctCommand x now ecc)))) ∧
    (∀ (who : Fin 8) (ecc : Bool), Writes s t u m now who (A.PRS_CT_CMD) ((ctWord 1).toNat) → exec (.ctInsert t who ecc) s = .next (s.done
      u (wrote m now (A.PRS_CT_CMD) ((ctWord 1).toNat) .prs (fun x => ctCommand x now ecc)))) ∧
    (∀ (who : Fin 8) (ecc : Bool), Writes s t u m now who (A.PRS_CT_CMD) ((ctWord 2).toNat) → exec (.ctDelete t who ecc) s = .next (s.done
      u (wrote m now (A.PRS_CT_CMD) ((ctWord 2).toNat) .prs (fun x => ctCommand x now ecc)))) ∧
    (∀ (who : Fin 8) (ecc : Bool), Writes s t u m now who (A.PRS_CT_CMD) ((ctWord 3).toNat) → exec (.ctFlush t who ecc) s = .next (s.done
      u (wrote m now (A.PRS_CT_CMD) ((ctWord 3).toNat) .prs (fun x => ctCommand x now ecc)))) ∧
    (∀ (acc : Nat) (flt : Bool), land now m (.table acc flt) = tblCommit m now acc flt) ∧
    (∀ flt : Bool, land now m (.track flt) = ctCommit m now flt)

/-- R258, R278, R279, R290: what a taken write of TM does. -/
def Obligations.SchedulerRegisterCommandsComplete : Prop :=
  ∀ (s : State) (t u : Nat) (m : Chip) (now : Nat),
    (∀ (who : Fin 8) (p : Fin 24) (e : Nat), Writes s t u m now who (A.TM_PORT_CMD p) (1) → tmPort m p = .hold e → exec (.tmPortFlush t
      who p) s = .next (s.done u (wrote m now (A.TM_PORT_CMD p) (1) .tm (fun x => flushPort (clrR x (A.TM_PORT_CMD p) 1) now p)))) ∧
    (∀ (who : Fin 8) (p : Fin 24) (d : Word), Writes s t u m now who (A.TM_SCH_PORT_CFG p) (d.toNat) → exec (.schPortCfgWrite t who p d) s
      = .next (s.done u (noted m now who (A.TM_SCH_PORT_CFG p) (d.toNat)))) ∧
    (∀ (who : Fin 8) (p : Fin 24) (d : Word), land now m (.write who (A.TM_SCH_PORT_CFG p) (d.toNat)) = effected m (A.TM_SCH_PORT_CFG p)
      (d.toNat) .tm (fun x => strictChange x p (oldWord m (A.TM_SCH_PORT_CFG p)) (newWord m (A.TM_SCH_PORT_CFG p) (d.toNat)))) ∧
    (∀ (who : Fin 8) (p : Fin 24) (c : Fin 8) (d : Word), Writes s t u m now who (A.TM_SCH_Q_CFG p c) (d.toNat) → exec (.quantumWrite t
      who p c d) s = .next (s.done u (wrote m now (A.TM_SCH_Q_CFG p c) (d.toNat) .tm (fun x => x)))) ∧
    (∀ (who : Fin 8) (p : Fin 24) (c : Fin 8) (d : Word), Writes s t u m now who (A.TM_CBS_CFG p c) (d.toNat) → exec (.cbsCfgWrite t who p
      c d) s = .next (s.done u (noted m now who (A.TM_CBS_CFG p c) (d.toNat)))) ∧
    (∀ (who : Fin 8) (p : Fin 24) (c : Fin 8) (d : Word), land now m (.write who (A.TM_CBS_CFG p c) (d.toNat)) = effected m (A.TM_CBS_CFG
      p c) (d.toNat) .tm (fun x => cbsWrite x p c (newWord m (A.TM_CBS_CFG p c) (d.toNat)))) ∧
    (∀ (who : Fin 8) (p : Fin 24) (d : Word), Writes s t u m now who (A.TM_PURSE_CFG p) (d.toNat) → exec (.purseCfgWrite t who p d) s =
      .next (s.done u (noted m now who (A.TM_PURSE_CFG p) (d.toNat)))) ∧
    (∀ (who : Fin 8) (p : Fin 24) (d : Word), land now m (.write who (A.TM_PURSE_CFG p) (d.toNat)) = effected m (A.TM_PURSE_CFG p)
      (d.toNat) .tm (fun x => purseWrite x p (newWord m (A.TM_PURSE_CFG p) (d.toNat))))

/-- R300-R309: what a taken write of TIME does. -/
def Obligations.TimeRegisterCommandsComplete : Prop :=
  ∀ (s : State) (t u : Nat) (m : Chip) (now : Nat),
    (∀ (who : Fin 8) (k : Fin 2) (d : Word), Writes s t u m now who (A.TIME_Dd_RATE k) (d.toNat) → exec (.rateWrite t who k d) s = .next
      (s.done u (noted m now who (A.TIME_Dd_RATE k) (d.toNat)))) ∧
    (∀ (who : Fin 8) (k : Fin 2) (d : Word), land now m (.write who (A.TIME_Dd_RATE k) (d.toNat)) = effected m (A.TIME_Dd_RATE k)
      (d.toNat) .time (fun x => rateWrite x now k)) ∧
    (∀ (who : Fin 8) (k : Fin 2), Writes s t u m now who (A.TIME_Dd_ADJ_CMD k) (1) → exec (.offsetCommand t who k) s = .next (s.done u
      (noted m now who (A.TIME_Dd_ADJ_CMD k) (1)))) ∧
    (∀ (who : Fin 8) (k : Fin 2), land now m (.write who (A.TIME_Dd_ADJ_CMD k) (1)) = effected m (A.TIME_Dd_ADJ_CMD k) (1) .time (fun x =>
      offsetCommand (rstR x (A.TIME_Dd_ADJ_CMD k)) now k)) ∧
    (∀ (who : Fin 8) (d : Word), Writes s t u m now who (A.TIME_CFG) (d.toNat) → exec (.workingDomainChange t who d) s = .next (s.done u
      (wrote m now (A.TIME_CFG) (d.toNat) .time (fun x => workingChange (wrN (syncW (wrN x A.TIME_CFG (oldWord m (A.TIME_CFG))) now)
      A.TIME_CFG (newWord m (A.TIME_CFG) (d.toNat))) now (bits (oldWord m (A.TIME_CFG)) 0 1))))) ∧
    (∀ (who : Fin 8), Writes s t u m now who (A.TIME_CMD) (1) → exec (.timeSnap t who) s = .next (s.done u (wrote m now (A.TIME_CMD) (1)
      .time (fun x => timeSnap (rstR x A.TIME_CMD) now)))) ∧
    (∀ (who : Fin 8), Writes s t u m now who (A.TIME_TXTS_POP) (1) → exec (.txtsPop t who) s = .next (s.done u (wrote m now
      (A.TIME_TXTS_POP) (1) .time (fun x => updTime x fun k => { k with txts := k.txts.drop 1 }))))

/-- R11, R317, R318, R321, R342: what a taken write of GATE does. -/
def Obligations.GateRegisterCommandsComplete : Prop :=
  ∀ (s : State) (t u : Nat) (m : Chip) (now : Nat),
    (∀ (who : Fin 8) (p : Fin 20) (d : Word), d = BitVec.ofNat 32 (fld m (A.GATE_PCTL p) 0 1 + 2) → Writes s t u m now who (A.GATE_PCTL p)
      (d.toNat) → exec (.gateSwapRequest t who p) s = .next (s.done u (wrote m now (A.GATE_PCTL p) (d.toNat) .gate (fun x => if
      !adminValid x p then setEvt (refuse (wrN x (A.GATE_PCTL p) (oldWord m (A.GATE_PCTL p))) .gate (A.GATE_PCTL p) 3) (A.GATE_EVENT p)
      (A.GATE_EVENT_EN p) 1 .gate p else swapRequest (clrR (trimAbort x p now) (A.GATE_PCTL p) 6) p now)))) ∧
    (∀ (who : Fin 8) (p : Fin 20) (d : Word), d = BitVec.ofNat 32 (fld m (A.GATE_PCTL p) 0 1 + 4) → Writes s t u m now who (A.GATE_PCTL p)
      (d.toNat) → exec (.gateSwapCancel t who p) s = .next (s.done u (wrote m now (A.GATE_PCTL p) (d.toNat) .gate (fun x => swapCancel
      (clrR (trimAbort x p now) (A.GATE_PCTL p) 6) p now)))) ∧
    (∀ (who : Fin 8) (p : Fin 20), Writes s t u m now who (A.GATE_PCTL p) (0) → flag m (A.GATE_PCTL p) 0 = true → exec (.gateDisable t who
      p) s = .next (s.done u (wrote m now (A.GATE_PCTL p) (0) .gate (fun x => nextCycle (orR (clrR (trimAbort x p now) (A.GATE_PCTL p) 6)
      (A.GATE_PCTL p) 1) now (.gateOff p))))) ∧
    (∀ p : Fin 20, land now m (.gateOff p) = gateDisable m p now) ∧
    (∀ (who : Fin 8) (f : Fin 1024) (w : Fin 4) (d : Word), Writes s t u m now who (A.GATE_RCVY0 f + 4 * w.val) (d.toNat) → exec
      (.recoveryEntryWrite t who f w d) s = .next (s.done u (wrote m now (A.GATE_RCVY0 f + 4 * w.val) (d.toNat) .gate (fun x => bump
      (rcvyReset x f) (A.rc_resets f) 1)))) ∧
    (∀ (who : Fin 8) (f : Fin 1024) (w : Fin 4) (d : Word), w ≠ 0 → Reaches s t u m now who (A.GATE_RCVY0 f + 4 * w.val) .ok → exec
      (.recoveryEntryWrite t who f w d) s = .next (s.done u (applyHeld m now)))

/-- R364, R421: what a taken write of MINT_CORE_CTRL with release or quarantine, and of VAULT_CTRL with 1, does. -/
def Obligations.CryptoRegisterCommandsComplete : Prop :=
  ∀ (s : State) (t u : Nat) (m : Chip) (now : Nat),
    (∀ (who : Fin 8) (c : Fin 10), Writes s t u m now who (A.MINT_CORE_CTRL c) (1) → exec (.coreRelease t who c) s = .next (s.done u
      (wrote m now (A.MINT_CORE_CTRL c) (1) .mint (fun x => updCore (wrN x (A.MINT_CORE_CTRL c) (1 + 2 * b2n (coreOf x c).forced)) c fun y
      => { y with test := true })))) ∧
    (∀ (who : Fin 8) (c : Fin 10), Writes s t u m now who (A.MINT_CORE_CTRL c) (2) → (coreOf m c).quar = false → coreBusy m c = false →
      (coreOf m c).resv = false → exec (.coreQuarantineCmd t who c) s = .next (s.done u (wrote m now (A.MINT_CORE_CTRL c) (2) .mint (fun x
      => quarantine (wrN x (A.MINT_CORE_CTRL c) (b2n (coreOf x c).test + 2 * b2n (coreOf x c).forced)) now c 2)))) ∧
    (∀ (who : Fin 8) (c : Fin 10), Writes s t u m now who (A.MINT_CORE_CTRL c) (2) → (coreOf m c).quar = false → coreBusy m c = false →
      (coreOf m c).resv = true → exec (.coreQuarantineCmd t who c) s = .next (s.done u (wrote m now (A.MINT_CORE_CTRL c) (2) .mint (fun x
      => refillPool (quarantine (wrN x (A.MINT_CORE_CTRL c) (b2n (coreOf x c).test + 2 * b2n (coreOf x c).forced)) now c 2) now)))) ∧
    (∀ (who : Fin 8) (c : Fin 10), Writes s t u m now who (A.MINT_CORE_CTRL c) (2) → (coreOf m c).quar = false → coreBusy m c = true →
      exec (.coreQuarantineCmd t who c) s = .next (s.done u (wrote m now (A.MINT_CORE_CTRL c) (2) .mint (fun x => orR (updCore (wrN x
      (A.MINT_CORE_CTRL c) (b2n (coreOf x c).test + 2 * b2n (coreOf x c).forced)) c fun y => { y with forced := true }) (A.MINT_CORE_CTRL
      c) 2)))) ∧
    (∀ (who : Fin 8) (c : Fin 10), Writes s t u m now who (A.MINT_CORE_CTRL c) (2) → (coreOf m c).quar = true → exec (.coreQuarantineCmd t
      who c) s = .next (s.done u (wrote m now (A.MINT_CORE_CTRL c) (2) .mint (fun x => wrN x (A.MINT_CORE_CTRL c) (b2n (coreOf x c).test +
      2 * b2n (coreOf x c).forced))))) ∧
    (∀ (who : Fin 8), Writes s t u m now who (A.VAULT_CTRL) (1) → exec (.sealLock t who) s = .next (s.done u (wrote m now (A.VAULT_CTRL)
      (1) .vault (fun x => sealLock (rstR x A.VAULT_CTRL)))))

/-- R464, R478, R489, R495, R540, R546, R547: what a taken write of CAN, LIN and SGE does. -/
def Obligations.FieldBusRegisterCommandsComplete : Prop :=
  ∀ (s : State) (t u : Nat) (m : Chip) (now : Nat),
    (∀ (who : Fin 8) (d : Word), Writes s t u m now who (A.CAN_TX_CANCEL) (d.toNat) → exec (.canTxCancel t who d) s = .next (s.done u
      (wrote m now (A.CAN_TX_CANCEL) (d.toNat) .can (fun x => wrN { x with cl := { x.cl with cancel := some (now, d.toNat) } }
      A.CAN_CANCEL_STATUS (Nat.lor 1 (rdN x A.CAN_CANCEL_STATUS)))))) ∧
    (∀ (who : Fin 8) (c : Fin 16), Writes s t u m now who (A.CAN_CMD c) (1) → (canOf m c).st = 2 → flag m (A.CAN_CH_CFG c) 5 = true → exec
      (.canRecover t who c) s = .next (s.done u (wrote m now (A.CAN_CMD c) (1) .can (fun x => canRecovering x c)))) ∧
    (∀ (who : Fin 8) (c : Fin 8) (k : Fin 4) (run : Bool), Writes s t u m now who (A.LIN_SCHED_CMD c) (k.val + 4 * b2n run) → exec
      (.linScheduleSelect t who c k run) s = .next (s.done u (wrote m now (A.LIN_SCHED_CMD c) (k.val + 4 * b2n run) .lin (fun x => if bit
      (newWord m (A.LIN_SCHED_CMD c) (k.val + 4 * b2n run)) 2 && !(linOf x c).running && !flag x (A.LIN_STATUS c) 0 then updLin x c fun y
      => { y with running := true, table := bits (newWord m (A.LIN_SCHED_CMD c) (k.val + 4 * b2n run)) 0 2, slot := 0, nextAt := now }
      else x)))) ∧
    (∀ (who : Fin 8) (c : Fin 8) (d : Word), d = BitVec.ofNat 32 (fld m (A.LIN_SCHED_CMD c) 0 3 + 8) → Writes s t u m now who
      (A.LIN_SCHED_CMD c) (d.toNat) → (linOf m c).running = true → linEn m c = true → chanGuarded m (16 + c) = false → exec (.linWake t
      who c) s = .next (s.done u (wrote m now (A.LIN_SCHED_CMD c) (d.toNat) .lin (fun x => linWake (clrR x (A.LIN_SCHED_CMD c) 8) now
      c)))) ∧
    (∀ (who : Fin 8) (k : Fin 16) (staged ecc : Bool), Writes s t u m now who (A.SGE_TBL_CMD) ((tblWord k 0 staged).toNat) → exec
      (.sgeTblRead t who k staged ecc) s = .next (s.done u (wrote m now (A.SGE_TBL_CMD) ((tblWord k 0 staged).toNat) .sge (fun x =>
      sgeTblCommand x now ecc)))) ∧
    (∀ (who : Fin 8) (k : Fin 16) (staged ecc : Bool), Writes s t u m now who (A.SGE_TBL_CMD) ((tblWord k 1 staged).toNat) → exec
      (.sgeTblWrite t who k staged ecc) s = .next (s.done u (wrote m now (A.SGE_TBL_CMD) ((tblWord k 1 staged).toNat) .sge (fun x =>
      sgeTblCommand x now ecc)))) ∧
    (∀ (who : Fin 8) (f : Fin 1024), Writes s t u m now who (A.SGE_FRESH_CMD) ((freshWord f 0).toNat) → exec (.freshRead t who f) s =
      .next (s.done u (wrote m now (A.SGE_FRESH_CMD) ((freshWord f 0).toNat) .sge (fun x => freshCommand x now)))) ∧
    (∀ (who : Fin 8) (f : Fin 1024), Writes s t u m now who (A.SGE_FRESH_CMD) ((freshWord f 1).toNat) → exec (.raise t who f) s = .next
      (s.done u (wrote m now (A.SGE_FRESH_CMD) ((freshWord f 1).toNat) .sge (fun x => freshCommand x now)))) ∧
    (∀ (who : Fin 8), Writes s t u m now who (A.SGE_FRESH_CMD) ((freshWord 0 2).toNat) → exec (.raiseAll t who) s = .next (s.done u
      (wrote m now (A.SGE_FRESH_CMD) ((freshWord 0 2).toNat) .sge (fun x => freshCommand x now)))) ∧
    (∀ (who : Fin 8) (run : Bool), Writes s t u m now who (A.SGE_CTRL) (b2n run) → exec (.sgeRun t who run) s = .next (s.done u (wrote m
      now (A.SGE_CTRL) (b2n run) .sge (fun x => x)))) ∧
    (∀ (acc : Nat) (flt : Bool), land now m (.sgeTable acc flt) = sgeTblCommit m now acc flt) ∧
    (land now m .sgeFresh = freshCommit m)

/-- R563, R601, R603, R604: what a taken write of HIF does. -/
def Obligations.RingRegisterCommandsComplete : Prop :=
  ∀ (s : State) (t u : Nat) (m : Chip) (now : Nat),
    (∀ (who : Fin 8) (r : Fin 64) (i : BitVec 17), Writes s t u m now who (A.HIF_DB r) (i.toNat) → exec (.doorbell t who r i) s = .next
      (s.done u (wrote m now (A.HIF_DB r) (i.toNat) .hif (fun x => doorbell x now r i.toNat)))) ∧
    (∀ (who : Fin 8) (r : Fin 64), Writes s t u m now who (A.HIF_RING_CTRL r) (1) → ringEn m r = true → (ringOf m r).stopped = false →
      exec (.ringStop t who r) s = .next (s.done u (wrote m now (A.HIF_RING_CTRL r) (1) .hif (fun x => later (rstR x (A.HIF_RING_CTRL r))
      (now + 2 * cyc) (.ringStop r))))) ∧
    (∀ (who : Fin 8) (r : Fin 64), Writes s t u m now who (A.HIF_RING_CTRL r) (2) → (ringOf m r).err = 0 → exec (.ringStart t who r) s =
      .next (s.done u (wrote m now (A.HIF_RING_CTRL r) (2) .hif (fun x => ringResume (rstR x (A.HIF_RING_CTRL r)) now r)))) ∧
    (∀ (who : Fin 8) (r : Fin 64), Writes s t u m now who (A.HIF_RING_CTRL r) (4) → exec (.ringWithdraw t who r) s = .next (s.done u
      (wrote m now (A.HIF_RING_CTRL r) (4) .hif (fun x => later (rstR x (A.HIF_RING_CTRL r)) (now + 2 * cyc) (.ringWithdraw r))))) ∧
    (∀ (who : Fin 8) (r : Fin 64), Writes s t u m now who (A.HIF_RING_CTRL r) (8) → exec (.ringClearErr t who r) s = .next (s.done u
      (wrote m now (A.HIF_RING_CTRL r) (8) .hif (fun x => updRing (rstR x (A.HIF_RING_CTRL r)) r fun y => { y with err := 0 })))) ∧
    (∀ (who : Fin 8) (r : Fin 64) (d : Word), Writes s t u m now who (A.HIF_RING_CFG r) ((d ||| 1).toNat) → flag m (A.HIF_RING_CFG r) 0 =
      false → exec (.ringEnable t who r d) s = .next (s.done u (wrote m now (A.HIF_RING_CFG r) ((d ||| 1).toNat) .hif (fun x => updRing x
      r ringReset)))) ∧
    (∀ (who : Fin 8) (r : Fin 64) (d : Word), Writes s t u m now who (A.HIF_RING_CFG r) ((d &&& 0xFFFFFFFE).toNat) → flag m
      (A.HIF_RING_CFG r) 0 = true → exec (.ringDisable t who r d) s = .next (s.done u (wrote m now (A.HIF_RING_CFG r) ((d &&&
      0xFFFFFFFE).toNat) .hif (fun x => updRing x r fun y =>
      { y with stopped := false, stopping := false, gather := none, withdrawTo := none })))) ∧
    (∀ r : Fin 64, land now m (.ringStop r) = if ringRuns m r then updRing m r (fun x => { x with stopping := true }) else m) ∧
    (∀ r : Fin 64, land now m (.ringWithdraw r) = if ringStopped m r then withdraw m now r else m)

/-- R619, R628, R630, R633, R634, R646, R654, R717, R719, R776: what a taken write of LEDGER, BRG, SAFE, TRIAD does. -/
def Obligations.SafetyRegisterCommandsComplete : Prop :=
  ∀ (s : State) (t u : Nat) (m : Chip) (now : Nat),
    (∀ (who : Fin 8) (d : Word), Writes s t u m now who (A.LEDGER_CFG) (d.toNat) → exec (.anchorMsWrite t who d) s = .next (s.done u
      (noted m now who (A.LEDGER_CFG) (d.toNat)))) ∧
    (∀ (who : Fin 8) (d : Word), land now m (.write who (A.LEDGER_CFG) (d.toNat)) = effected m (A.LEDGER_CFG) (d.toNat) .ledger (fun x =>
      if bits (oldWord m (A.LEDGER_CFG)) 16 16 ≠ bits (newWord m (A.LEDGER_CFG) (d.toNat)) 16 16 && anchorIsDue x now then if ledgerFull x
      now then updLedger x (fun l => { l with anchors := if l.anchors.isEmpty then [0] else l.anchors }) else anchorWrite x now else x)) ∧
    (∀ (who : Fin 8) (d : Word), Writes s t u m now who (A.LEDGER_EXPORT_CFG) ((d ||| 0x40).toNat) → flag m A.LEDGER_EXPORT_CFG 6 = false
      → exec (.exportEnable t who d) s = .next (s.done u (noted m now who (A.LEDGER_EXPORT_CFG) ((d ||| 0x40).toNat)))) ∧
    (∀ (who : Fin 8) (d : Word), flag m A.LEDGER_EXPORT_CFG 6 = false → land now m (.write who (A.LEDGER_EXPORT_CFG) ((d ||| 0x40).toNat))
      = effected m (A.LEDGER_EXPORT_CFG) ((d ||| 0x40).toNat) .ledger (fun x => x)) ∧
    (∀ (who : Fin 8), Writes s t u m now who (A.BRG_PWE_POP) (1) → exec (.pwePop t who) s = .next (s.done u (wrote m now (A.BRG_PWE_POP)
      (1) .brg (fun x => pwePop x (agentOf who))))) ∧
    (∀ (who : Fin 8), Writes s t u m now who (A.SAFE_EC_ACK) (1) → exec (.safeEcAck t who) s = .next (s.done u (wrote m now
      (A.SAFE_EC_ACK) (1) .safe (fun x => safeAck x now)))) ∧
    (∀ (who : Fin 8), Writes s t u m now who (A.SAFE_EC_OVF_CLR) (1) → m.safe.q.length < 64 → exec (.safeEcOvfClr t who) s = .next (s.done
      u (wrote m now (A.SAFE_EC_OVF_CLR) (1) .safe (fun x => updSafe x fun y => { y with overflow := false })))) ∧
    (∀ (who : Fin 8), Writes s t u m now who (A.SAFE_FAULT_CTRL) (1) → exec (.faultSet t who) s = .next (s.done u (wrote m now
      (A.SAFE_FAULT_CTRL) (1) .safe (fun x => assertFault (rstR x A.SAFE_FAULT_CTRL) now 3)))) ∧
    (∀ (who : Fin 8), Writes s t u m now who (A.SAFE_FAULT_CTRL) (2) → exec (.faultRelease t who) s = .next (s.done u (wrote m now
      (A.SAFE_FAULT_CTRL) (2) .safe (fun x => faultDrop (rstR x A.SAFE_FAULT_CTRL) now)))) ∧
    (∀ (who : Fin 8) (w : Fin 32768) (d : Word), Reaches s t u m now who (A.TRIAD_LOAD_WINDOW w) .ok → safeCheck m now who
      (A.TRIAD_LOAD_WINDOW w) d.toNat = 0 →
      exec (.triadWindowWrite t who w d) s = .next (s.done u (applyHeld (updTriad m fun x =>
      { x with tcm := memPut x.tcm (4 * w) (leBytes 4 d.toNat) }) now))) ∧
    (∀ (who : Fin 8), Writes s t u m now who (A.CFG_TRIAD_GO) (1) → exec (.triadGo t who) s = .next (s.done u (wrote m now
      (A.CFG_TRIAD_GO) (1) .cfg (fun x => triadGo (rstR x A.CFG_TRIAD_GO))))) ∧
    (∀ (who : Fin 8) (d : Word), Writes s t u m now who (A.TRIAD_WDT_KICK) (d.toNat) → exec (.triadWdtKick t who d) s = .next (s.done u
      (wrote m now (A.TRIAD_WDT_KICK) (d.toNat) .safe (fun x => wdtKick x now d.toNat)))) ∧
    (∀ (who : Fin 8), Writes s t u m now who (A.TRIAD_CWDT_KICK) (1) → m.triad.ckick.isSome = true → exec (.cwdtKick t who) s = .next
      (s.done u (wrote m now (A.TRIAD_CWDT_KICK) (1) .safe (fun x => updTriad x fun y => { y with ckick := some now }))))

/-- R722, R731, R734, R759, R765, R766: what a taken write of DBG and PAIR does. -/
def Obligations.LifecycleAndPairRegisterCommandsComplete : Prop :=
  ∀ (s : State) (t u : Nat) (m : Chip) (now : Nat),
    (∀ (who : Fin 8), Writes s t u m now who (A.DBG_LC_CMD) (2) → exec (.tokenSubmit t who) s = .next (s.done u (wrote m now
      (A.DBG_LC_CMD) (2) .dbg (fun x => tokenSubmit (rstR x A.DBG_LC_CMD) now)))) ∧
    (∀ (who : Fin 8), Writes s t u m now who (A.DBG_LC_CMD) (1) → exec (.lcDeploy t who) s = .next (s.done u (wrote m now (A.DBG_LC_CMD)
      (1) .dbg (fun x => lcDeploy (rstR x A.DBG_LC_CMD) now)))) ∧
    (∀ (who : Fin 8), Writes s t u m now who (A.DBG_LC_CMD) (4) → exec (.sessionClose t who) s = .next (s.done u (wrote m now
      (A.DBG_LC_CMD) (4) .dbg (fun x => sessionClose (rstR x A.DBG_LC_CMD) now)))) ∧
    (∀ (who : Fin 8), Writes s t u m now who (A.PAIR_CMD) (2) → exec (.pairAccept t who) s = .next (s.done u (wrote m now (A.PAIR_CMD) (2)
      .pair (fun x => updPair (rstR x A.PAIR_CMD) fun p =>
      { p with accept := some (now + if fld (rstR x A.PAIR_CMD) A.PAIR_TIMING 24 8 = 0 then sec else fld (rstR x A.PAIR_CMD) A.PAIR_TIMING 24 8 * 10 * ms) }))))
      ∧
    (∀ (who : Fin 8), Writes s t u m now who (A.PAIR_CMD) (1) → exec (.pairHandover t who) s = .next (s.done u (wrote m now (A.PAIR_CMD)
      (1) .pair (fun x => updPair (rstR x A.PAIR_CMD) fun p => { p with handing := 1 })))) ∧
    (∀ (who : Fin 8), Writes s t u m now who (A.PAIR_CMD) (4) → exec (.clearAlert t who) s = .next (s.done u (wrote m now (A.PAIR_CMD) (4)
      .pair (fun x => updPair (rstR x A.PAIR_CMD) fun p => { p with fit := true }))))

/-- R775, R780-R795, R836: what a taken write of CFG, and of ERR_CLR of any block, does. -/
def Obligations.ConfigurationRegisterCommandsComplete : Prop :=
  ∀ (s : State) (t u : Nat) (m : Chip) (now : Nat),
    (∀ (who : Fin 8), Writes s t u m now who (A.CFG_CMD) (1) → exec (.cfgCommit t who) s = .next (s.done u (wrote m now (A.CFG_CMD) (1)
      .cfg (fun x => cfgCommit (rstR x A.CFG_CMD) now)))) ∧
    (∀ (who : Fin 8) (ecc : Bool), Writes s t u m now who (A.CFG_CMD) (2) → exec (.cfgLoad t who ecc) s = .next (s.done u (wrote m now
      (A.CFG_CMD) (2) .cfg (fun x => cfgLoad (rstR x A.CFG_CMD) now ecc)))) ∧
    (∀ (who : Fin 8), Writes s t u m now who (A.CFG_CMD) (4) → exec (.cfgActivate t who) s = .next (s.done u (wrote m now (A.CFG_CMD) (4)
      .cfg (fun x => cfgPend (rstR x A.CFG_CMD) now false)))) ∧
    (∀ (who : Fin 8), Writes s t u m now who (A.CFG_CMD) (8) → bankOf m (1 - m.cfg.active) = .previous → exec (.cfgRollback t who) s =
      .next (s.done u (wrote m now (A.CFG_CMD) (8) .cfg (fun x => cfgPend (rstR x A.CFG_CMD) now true)))) ∧
    (∀ (who : Fin 8), Writes s t u m now who (A.CFG_CMD) (16) → exec (.cfgCancel t who) s = .next (s.done u (wrote m now (A.CFG_CMD) (16)
      .cfg (fun x => cfgCancel (rstR x A.CFG_CMD) now)))) ∧
    (∀ (who : Fin 8) (ok : Bool), Writes s t u m now who (A.CFG_CMD) (32) → exec (.cfgFloor t who ok) s = .next (s.done u (wrote m now
      (A.CFG_CMD) (32) .cfg (fun x => cfgFloor (rstR x A.CFG_CMD) now ok)))) ∧
    (∀ (who : Fin 8) (ecc : Bool), Writes s t u m now who (A.CFG_FW_CMD) (1) → exec (.fwRestart t who ecc) s = .next (s.done u (wrote m
      now (A.CFG_FW_CMD) (1) .cfg (fun x => fwRestart (rstR x A.CFG_FW_CMD) now who ecc)))) ∧
    (∀ (who : Fin 8), Writes s t u m now who (A.CFG_FW_CMD) (2) → exec (.fwDone t who) s = .next (s.done u (wrote m now (A.CFG_FW_CMD) (2)
      .cfg (fun x => fwDone (rstR x A.CFG_FW_CMD))))) ∧
    (∀ (who : Fin 8) (ecc : Bool), Writes s t u m now who (A.CFG_BOOT_CMD) (1) → exec (.bootRecoveryGo t who ecc) s = .next (s.done u
      (wrote m now (A.CFG_BOOT_CMD) (1) .cfg (fun x => recoveryGo (rstR x A.CFG_BOOT_CMD) ecc)))) ∧
    (∀ (who : Fin 8) (b : Fin 20), Writes s t u m now who (errClr (Blk.all.getD b .glb)) 1 →
      exec (.errClr t who b) s = .next (s.done u (wrote m now (errClr (Blk.all.getD b .glb)) 1 (Blk.all.getD b .glb) fun x => x)) ∧
      rd (stored m (errClr (Blk.all.getD b .glb)) 1) (errCapture (Blk.all.getD b .glb)) = 0)

/-- R11, R837: what a read answers and changes. -/
def Obligations.RegisterReadsComplete : Prop :=
  ∀ (s : State) (t u : Nat) (m : Chip) (now : Nat),
    (∀ (who : Fin 8) (a : BitVec 32) (b : Blk) (r : RegRow) (ix : List Nat), Accepts s t who a.toNat false false u m now → sends m who =
      true → serviceDenied m who a.toNat false = false → reach m a.toNat = .ok →
      brgRange a.toNat = true → regRow a.toNat = some (b, r, ix) → wordPart b r ix = some false → b ≠ .pair → b ≠ .can →
      exec (.lowWordRead t who a) s = .next (s.done u
      (say { m with shad := sputD m.shad 0 (shadowGroup b a.toNat * 8 + who) (BitVec.ofNat 32 (liveAt m now who (a.toNat + 4))) }
        (.read who a.toNat (BitVec.ofNat 32 (liveWord m now who a.toNat b r ix)))))) ∧
    (∀ (who : Fin 8) (a : BitVec 32) (b : Blk) (r : RegRow) (ix : List Nat), Accepts s t who a.toNat false false u m now → sends m who =
      true → serviceDenied m who a.toNat false = false → reach m a.toNat = .ok →
      brgRange a.toNat = true → regRow a.toNat = some (b, r, ix) → wordPart b r ix = some true → b ≠ .pair → b ≠ .can →
      exec (.highWordRead t who a) s = .next (s.done u (say m (.read who a.toNat ((sget m.shad (shadowGroup b (a.toNat - 4) * 8 +
      who)).getD 0))))) ∧
    (∀ (who : Fin 8) (p : Fin 20), Accepts s t who (A.MAC_PPRBS_ERR p) false false u m now → sends m who = true → serviceDenied m who
      (A.MAC_PPRBS_ERR p) false = false → reach m (A.MAC_PPRBS_ERR p) = .ok →
      exec (.rcRead t who p) s = .next (s.done u (say (rstR m (A.MAC_PPRBS_ERR p)) (.read who (A.MAC_PPRBS_ERR p) (rd m (A.MAC_PPRBS_ERR
      p))))))

/-- R622-R625: the exclusive accesses to registers. -/
def Obligations.ExclusiveAccessesComplete : Prop :=
  ∀ (s : State) (t u : Nat) (m : Chip) (now : Nat) (h : Fin 5) (a : BitVec 32), brgRange a.toNat = true → sends m (2 + h) = true →
    (Accepts s t (2 + h) a.toNat false false u m now → reach m a.toNat = .ok → exec (.lrW t h a) s = .next (s.done u (hartAnswer
        (monArm (readTarget m now (2 + h) a.toNat).1 now (2 + h) a.toNat) h (BitVec.ofNat 32 (readTarget m now (2 + h) a.toNat).2) true)))
      ∧
    (∀ d : Word, Accepts s t (2 + h) a.toNat true false u m now → monHas m now (2 + h) a.toNat = true → writeFails m a.toNat = false →
      exec (.scW t h a d) s = .next (s.done u (hartAnswer (busWrite (monDrop m (2 + h)) now (2 + h) a.toNat d true false) h 0 true))) ∧
    (∀ d : Word, Accepts s t (2 + h) a.toNat true false u m now → monHas m now (2 + h) a.toNat = false →
      exec (.scW t h a d) s = .next (s.done u (hartAnswer (bump (monDrop m (2 + h)) A.sc_fail 1) h 1 false))) ∧
    (∀ (op : Fin 9) (d : Word) (x : Chip) (v : Nat), Accepts s t (2 + h) a.toNat true false u m now → reach m a.toNat = .ok →
      readTarget (monClear m a.toNat) now (2 + h) a.toNat = (x, v) → writeFails x a.toNat = false →
      exec (.amoW t h op a d) s = .next (s.done u (hartAnswer (busWrite x now (2 + h) a.toNat (amoResult op (BitVec.ofNat 32 v) d) true
      false) h (BitVec.ofNat 32 v) true)))
end

