-- ==== Sys2Proof/Laws/Memory.lean ====
section
/-! SUPPORT. The sparse stores of the model (registers, counters, system SRAM): a read after a write, the frame of a write, and that
every write keeps the canonical form. -/

namespace Sys2Proof.Machine

variable {α : Type}

/-! ### One key -/

theorem sget_sput_same (l : List (Nat × α)) (k : Nat) (v : α) : sget (sput l k v) k = some v := by
  induction l with
  | nil => simp [sput, sget]
  | cons p r ih =>
    obtain ⟨k', v'⟩ := p
    unfold sput
    split
    · simp [sget]
    · split
      · simp [sget]
      · rename_i h1 h2
        have : ¬ k' = k := fun h => h2 h.symm
        simp [sget, this, ih]

theorem sget_sput_other (l : List (Nat × α)) (k j : Nat) (v : α) (h : j ≠ k) : sget (sput l k v) j = sget l j := by
  induction l with
  | nil => simp [sput, sget, Ne.symm h]
  | cons p r ih =>
    obtain ⟨k', v'⟩ := p
    unfold sput
    split
    · simp [sget, Ne.symm h]
    · split
      · rename_i h2
        subst h2
        simp [sget, Ne.symm h]
      · by_cases hj : k' = j
        · simp [sget, hj]
        · simp [sget, hj, ih]

theorem sget_sdel_same (l : List (Nat × α)) (k : Nat) : sget (sdel l k) k = none := by
  induction l with
  | nil => simp [sdel, sget]
  | cons p r ih =>
    obtain ⟨k', v'⟩ := p
    by_cases h : k' = k
    · subst h; simpa [sdel] using ih
    · have hb : (k' != k) = true := by simpa using h
      simp only [sdel, List.filter, hb, sget, h, if_false]
      simpa [sdel] using ih

theorem sget_sdel_other (l : List (Nat × α)) (k j : Nat) (h : j ≠ k) : sget (sdel l k) j = sget l j := by
  induction l with
  | nil => simp [sdel]
  | cons p r ih =>
    obtain ⟨k', v'⟩ := p
    by_cases hk : k' = k
    · subst hk
      simpa [sdel, sget, Ne.symm h] using ih
    · have hb : (k' != k) = true := by simpa using hk
      simp only [sdel, List.filter, hb, sget]
      by_cases hj : k' = j
      · simp [hj]
      · simpa [hj, sdel] using ih

/-! ### The canonical form -/

/-- Every key of a list lies above `k`. -/
def above (k : Nat) (l : List (Nat × α)) : Prop := ∀ p ∈ l, k < p.1

theorem rising_cons (p : Nat × α) (l : List (Nat × α)) : rising (p :: l) = true ↔ above p.1 l ∧ rising l = true := by
  induction l generalizing p with
  | nil => simp [rising, above]
  | cons q r ih =>
    simp only [rising, Bool.and_eq_true, decide_eq_true_eq]
    constructor
    · rintro ⟨h1, h2⟩
      refine ⟨?_, h2⟩
      intro x hx
      rcases List.mem_cons.1 hx with rfl | hx
      · exact h1
      · exact Nat.lt_trans h1 (((ih q).1 h2).1 x hx)
    · rintro ⟨h1, h2⟩
      exact ⟨h1 q (by simp), h2⟩

theorem rising_sdel (l : List (Nat × α)) (k : Nat) (h : rising l = true) : rising (sdel l k) = true := by
  induction l with
  | nil => simp [sdel, rising]
  | cons p r ih =>
    have hc := (rising_cons p r).1 h
    by_cases hk : p.1 = k
    · simpa [sdel, hk] using ih hc.2
    · have : sdel (p :: r) k = p :: sdel r k := by simp [sdel, hk]
      rw [this, rising_cons]
      exact ⟨fun x hx => hc.1 x (List.mem_of_mem_filter hx), ih hc.2⟩

theorem mem_sput (l : List (Nat × α)) (k : Nat) (v : α) (p : Nat × α) (h : p ∈ sput l k v) : p = (k, v) ∨ p ∈ l := by
  induction l with
  | nil => simpa [sput] using h
  | cons q r ih =>
    unfold sput at h
    split at h
    · simpa using h
    · split at h
      · rcases List.mem_cons.1 h with h | h
        · exact Or.inl h
        · exact Or.inr (List.mem_cons_of_mem _ h)
      · rcases List.mem_cons.1 h with h | h
        · exact Or.inr (by simp [h])
        · rcases ih h with h | h
          · exact Or.inl h
          · exact Or.inr (List.mem_cons_of_mem _ h)

theorem rising_sput (l : List (Nat × α)) (k : Nat) (v : α) (h : rising l = true) : rising (sput l k v) = true := by
  induction l with
  | nil => simp [sput, rising]
  | cons p r ih =>
    obtain ⟨k', v'⟩ := p
    have hc := (rising_cons (k', v') r).1 h
    unfold sput
    split
    · rename_i hk
      rw [rising_cons]
      refine ⟨?_, h⟩
      intro x hx
      rcases List.mem_cons.1 hx with rfl | hx
      · exact hk
      · exact Nat.lt_trans hk (hc.1 x hx)
    · split
      · rename_i hk
        subst hk
        rw [rising_cons]
        exact ⟨hc.1, hc.2⟩
      · rename_i h1 h2
        rw [rising_cons]
        refine ⟨?_, ih hc.2⟩
        intro x hx
        rcases mem_sput r k v x hx with rfl | hx
        · exact Nat.lt_of_le_of_ne (Nat.le_of_not_lt h1) (Ne.symm h2)
        · exact hc.1 x hx

variable [DecidableEq α]

/-- A store with a default reads back what was written. -/
theorem getD_sputD_same (l : List (Nat × α)) (d : α) (k : Nat) (v : α) : (sget (sputD l d k v) k).getD d = v := by
  unfold sputD
  split
  · rename_i h; simp [sget_sdel_same, h]
  · simp [sget_sput_same]

/-- A write to one key leaves every other one alone. -/
theorem sget_sputD_other (l : List (Nat × α)) (d : α) (k j : Nat) (v : α) (h : j ≠ k) : sget (sputD l d k v) j = sget l j := by
  unfold sputD
  split
  · exact sget_sdel_other l k j h
  · exact sget_sput_other l k j v h

/-- Writing a byte keeps a memory canonical. -/
theorem sputD_wf (l : List Host.Cell) (k : Nat) (v : Byte) (h : Memory.wf l = true) : Memory.wf (sputD l 0 k v) = true := by
  simp only [Memory.wf, Bool.and_eq_true, List.all_eq_true] at h ⊢
  unfold sputD
  split
  · exact ⟨rising_sdel l k h.1, fun p hp => h.2 p (List.mem_of_mem_filter hp)⟩
  · rename_i hv
    refine ⟨rising_sput l k v h.1, fun p hp => ?_⟩
    rcases mem_sput l k v p hp with rfl | hp
    · simpa using hv
    · exact h.2 p hp

/-- Writing bytes keeps a memory canonical. -/
theorem memPut_wf (b : List Byte) (l : List Host.Cell) (o : Nat) (h : Memory.wf l = true) : Memory.wf (memPut l o b) = true := by
  induction b generalizing l o with
  | nil => exact h
  | cons x r ih => exact ih _ _ (sputD_wf l o x h)

/-- A store to any memory leaves system SRAM canonical. -/
theorem memStore_wf (m : Chip) (space a : Nat) (b : List Byte) (h : Memory.wf m.dma.sram = true) :
    Memory.wf (memStore m space a b).dma.sram = true := by
  unfold memStore
  split
  · exact h
  · split
    · split
      · exact memPut_wf b _ _ h
      · exact h
    · exact h

/-- System SRAM is canonical at reset. -/
theorem reset_memory_wf : Memory.wf State.reset.chip.dma.sram = true := rfl

/-! ### The register file -/

/-- A register reads back the word that was stored. -/
@[simp] theorem rd_wr_same (m : Chip) (a : Nat) (v : Word) : rd (wr m a v) a = v := getD_sputD_same m.regs (resetWord a) a v

/-- Storing one register leaves every other one alone. -/
theorem rd_wr_other (m : Chip) (a b : Nat) (v : Word) (h : b ≠ a) : rd (wr m a v) b = rd m b := by
  simp only [rd, wr]
  rw [sget_sputD_other _ _ _ _ _ h]

/-- A counter reads back what was stored, and leaves every other one alone. -/
@[simp] theorem cnt_setCnt_same (m : Chip) (a v : Nat) : cnt (setCnt m a v) a = v := getD_sputD_same m.cnts 0 a v

theorem cnt_setCnt_other (m : Chip) (a b v : Nat) (h : b ≠ a) : cnt (setCnt m a v) b = cnt m b := by
  simp only [cnt, setCnt]
  rw [sget_sputD_other _ _ _ _ _ h]

end Sys2Proof.Machine
end

