-- ==== Sys2Proof/Machine/Pads.lean ====
section
/-! DEFINITION. What the pins show (21): the states of the pin groups at reset, in park and without supply (R818-R820, R832), as a function
of State. -/

namespace Sys2Proof.Machine

/-- Pin groups of R818; the CAN receive pins are those of the decoders 0-3. -/
inductive PinGroup where
  | serialTx | serialRx | edge (n : Fin 8) | multidrop | canLinTx | canRx (k : Fin 4) | xspiCs | xspiClk | xspiDq | tdo | pmicEn | pmicSpi
  | fault | pairAct
deriving DecidableEq, Repr

/-- States of a pin group. -/
inductive Pad where
  /-- The block that owns the pins drives or reads them. -/
  | block
  | highZ
  | termOff
  /-- High impedance, with the TC10 wake detector of R43. -/
  | detector
  /-- Read by the CAN partial-networking decoder (R486). -/
  | decoder
  | pullUp
  | pullDown
  | low
  | high
  /-- CS_N high, SCK low. -/
  | spiIdle
  /-- Driven to a level; of `PMIC_EN0-3`, bit by bit. -/
  | level (v : Nat)
deriving DecidableEq, Repr

/-- Columns of the table of R818, and the two states beside it. -/
inductive PinPhase where
  | unpowered | reset | listen | deep | run
deriving DecidableEq, Repr

/-- The column that holds: until the core reset is released, also after a wake, the pins are as at reset (log entry 215). -/
def pinPhase (m : Chip) : PinPhase :=
  match m.pwr.mode with
  | .off => .unpowered
  | .listen => .listen
  | .deep => .deep
  | _ => if coreOn m then .run else .reset

/-- The VDDIO bank of a group, 0 A or 1 B. -/
def PinGroup.bank : PinGroup → Option Nat
  | .canLinTx => some 1
  | .canRx _ => some 1
  | .xspiCs => some 0
  | .xspiClk => some 0
  | .xspiDq => some 0
  | .tdo => some 0
  | _ => none

/-- The state of a group whose bank is supplied (R818). -/
def padPowered (m : Chip) (ph : PinPhase) : PinGroup → Pad
  | .serialTx => if ph = .run then .block else .highZ
  | .serialRx => if ph = .run then .block else .termOff
  | .edge n =>
    if ph = .run then .block else if ph = .listen && flag m (A.MAC_PT1_CFG (8 + n.val)) 2 then .detector else .highZ
  | .multidrop => if ph = .run then .block else .highZ
  | .canLinTx => if ph = .run then .block else if ph = .deep then .highZ else .high
  | .canRx k => if ph = .run then .block else if ph = .listen && flag m (A.CAN_PN_CFG k.val) 0 then .decoder else .pullUp
  | .xspiCs => if ph = .run then .block else .pullUp
  | .xspiClk => if ph = .run then .block else if ph = .reset then .low else .highZ
  | .xspiDq => if ph = .run then .block else .pullDown
  | .tdo => if ph = .run then .block else .highZ
  | .pmicEn => .level m.pwr.en
  | .pmicSpi => if ph = .run then .block else .spiIdle
  | .fault => .level (b2n m.safe.fault)
  | .pairAct => .level (b2n (ph = .run && m.pair.active))

/-- What a pin group shows: no output is driven without VSUP (R832), a pin whose bank is absent is high impedance (R819), and a CAN
decoder then reads the pull-up level (R820). -/
def padOf (m : Chip) (g : PinGroup) : Pad :=
  let ph := pinPhase m
  if ph = .unpowered then .highZ
  else
    match g.bank with
    | some b => if bit m.pwr.vddio b then padPowered m ph g else match g with | .canRx _ => .pullUp | _ => .highZ
    | none => padPowered m ph g

end Sys2Proof.Machine
end

