-- ==== Sys2Proof/Laws/Pads.lean ====
section
/-! SUPPORT. What the pins show without a supply, at reset and in park. -/

namespace Sys2Proof.Machine

/-- Without VSUP no pin is driven (R832). -/
theorem padOf_off (m : Chip) (g : PinGroup) (h : m.pwr.mode = .off) : padOf m g = .highZ := by
  simp [padOf, pinPhase, h]

/-- Without its bank's supply a pin is high impedance, but for those of the decoders (R819). -/
theorem padOf_noBank (m : Chip) (g : PinGroup) (b : Nat) (hb : g.bank = some b) (hv : bit m.pwr.vddio b = false)
    (hg : ∀ k, g ≠ .canRx k) : padOf m g = .highZ := by
  cases g <;> simp_all [padOf, PinGroup.bank]

/-- An armed decoder reads its pin in PARK-LISTEN just where VDDIO_B is present (R486, R820). -/
theorem padOf_decoder (m : Chip) (k : Fin 4) (h : m.pwr.mode = .listen) (ha : flag m (A.CAN_PN_CFG k.val) 0 = true) :
    padOf m (.canRx k) = if bit m.pwr.vddio 1 then .decoder else .pullUp := by
  simp [padOf, pinPhase, h, PinGroup.bank, padPowered, ha]

/-- At a reset the enables of the PMIC and FAULT stand at their own levels, and the serial transmitters are high impedance. -/
theorem padOf_reset (m : Chip) (h : pinPhase m = .reset) :
    padOf m .serialTx = .highZ ∧ padOf m .pmicEn = .level m.pwr.en ∧ padOf m .fault = .level (b2n m.safe.fault) := by
  simp [padOf, h, PinGroup.bank, padPowered]

end Sys2Proof.Machine
end

