-- ==== Sys2Proof/Laws/State.lean ====
section
/-! SUPPORT. What each update of the device does to each field of `Chip`, and what a finished command leaves in `State`: one lemma for
each field of each update, true by `rfl`. -/

namespace Sys2Proof.Machine

/-! ### `updCfg` -/

@[simp] theorem updCfg_regs (m : Chip) (f : CfgSt → CfgSt) : (updCfg m f).regs = m.regs := rfl
@[simp] theorem updCfg_cnts (m : Chip) (f : CfgSt → CfgSt) : (updCfg m f).cnts = m.cnts := rfl
@[simp] theorem updCfg_shad (m : Chip) (f : CfgSt → CfgSt) : (updCfg m f).shad = m.shad := rfl
@[simp] theorem updCfg_free (m : Chip) (f : CfgSt → CfgSt) : (updCfg m f).free = m.free := rfl
@[simp] theorem updCfg_fresh (m : Chip) (f : CfgSt → CfgSt) : (updCfg m f).fresh = m.fresh := rfl
@[simp] theorem updCfg_late (m : Chip) (f : CfgSt → CfgSt) : (updCfg m f).late = m.late := rfl
@[simp] theorem updCfg_out (m : Chip) (f : CfgSt → CfgSt) : (updCfg m f).out = m.out := rfl
@[simp] theorem updCfg_ledger (m : Chip) (f : CfgSt → CfgSt) : (updCfg m f).ledger = m.ledger := rfl
@[simp] theorem updCfg_safe (m : Chip) (f : CfgSt → CfgSt) : (updCfg m f).safe = m.safe := rfl
@[simp] theorem updCfg_brg (m : Chip) (f : CfgSt → CfgSt) : (updCfg m f).brg = m.brg := rfl
@[simp] theorem updCfg_ports (m : Chip) (f : CfgSt → CfgSt) : (updCfg m f).ports = m.ports := rfl
@[simp] theorem updCfg_prs (m : Chip) (f : CfgSt → CfgSt) : (updCfg m f).prs = m.prs := rfl
@[simp] theorem updCfg_tm (m : Chip) (f : CfgSt → CfgSt) : (updCfg m f).tm = m.tm := rfl
@[simp] theorem updCfg_msix (m : Chip) (f : CfgSt → CfgSt) : (updCfg m f).msix = m.msix := rfl
@[simp] theorem updCfg_pba (m : Chip) (f : CfgSt → CfgSt) : (updCfg m f).pba = m.pba := rfl
@[simp] theorem updCfg_time (m : Chip) (f : CfgSt → CfgSt) : (updCfg m f).time = m.time := rfl
@[simp] theorem updCfg_gates (m : Chip) (f : CfgSt → CfgSt) : (updCfg m f).gates = m.gates := rfl
@[simp] theorem updCfg_rcvy (m : Chip) (f : CfgSt → CfgSt) : (updCfg m f).rcvy = m.rcvy := rfl
@[simp] theorem updCfg_pwr (m : Chip) (f : CfgSt → CfgSt) : (updCfg m f).pwr = m.pwr := rfl
@[simp] theorem updCfg_cfg (m : Chip) (f : CfgSt → CfgSt) : (updCfg m f).cfg = f m.cfg := rfl
@[simp] theorem updCfg_pair (m : Chip) (f : CfgSt → CfgSt) : (updCfg m f).pair = m.pair := rfl
@[simp] theorem updCfg_dma (m : Chip) (f : CfgSt → CfgSt) : (updCfg m f).dma = m.dma := rfl
@[simp] theorem updCfg_mint (m : Chip) (f : CfgSt → CfgSt) : (updCfg m f).mint = m.mint := rfl
@[simp] theorem updCfg_vault (m : Chip) (f : CfgSt → CfgSt) : (updCfg m f).vault = m.vault := rfl
@[simp] theorem updCfg_life (m : Chip) (f : CfgSt → CfgSt) : (updCfg m f).life = m.life := rfl
@[simp] theorem updCfg_cl (m : Chip) (f : CfgSt → CfgSt) : (updCfg m f).cl = m.cl := rfl
@[simp] theorem updCfg_sge (m : Chip) (f : CfgSt → CfgSt) : (updCfg m f).sge = m.sge := rfl
@[simp] theorem updCfg_triad (m : Chip) (f : CfgSt → CfgSt) : (updCfg m f).triad = m.triad := rfl
@[simp] theorem updCfg_otp (m : Chip) (f : CfgSt → CfgSt) : (updCfg m f).otp = m.otp := rfl
@[simp] theorem updCfg_service (m : Chip) (f : CfgSt → CfgSt) : (updCfg m f).service = m.service := rfl

/-! ### `updBrg` -/

@[simp] theorem updBrg_regs (m : Chip) (f : BrgSt → BrgSt) : (updBrg m f).regs = m.regs := rfl
@[simp] theorem updBrg_cnts (m : Chip) (f : BrgSt → BrgSt) : (updBrg m f).cnts = m.cnts := rfl
@[simp] theorem updBrg_shad (m : Chip) (f : BrgSt → BrgSt) : (updBrg m f).shad = m.shad := rfl
@[simp] theorem updBrg_free (m : Chip) (f : BrgSt → BrgSt) : (updBrg m f).free = m.free := rfl
@[simp] theorem updBrg_fresh (m : Chip) (f : BrgSt → BrgSt) : (updBrg m f).fresh = m.fresh := rfl
@[simp] theorem updBrg_late (m : Chip) (f : BrgSt → BrgSt) : (updBrg m f).late = m.late := rfl
@[simp] theorem updBrg_out (m : Chip) (f : BrgSt → BrgSt) : (updBrg m f).out = m.out := rfl
@[simp] theorem updBrg_ledger (m : Chip) (f : BrgSt → BrgSt) : (updBrg m f).ledger = m.ledger := rfl
@[simp] theorem updBrg_safe (m : Chip) (f : BrgSt → BrgSt) : (updBrg m f).safe = m.safe := rfl
@[simp] theorem updBrg_brg (m : Chip) (f : BrgSt → BrgSt) : (updBrg m f).brg = f m.brg := rfl
@[simp] theorem updBrg_ports (m : Chip) (f : BrgSt → BrgSt) : (updBrg m f).ports = m.ports := rfl
@[simp] theorem updBrg_prs (m : Chip) (f : BrgSt → BrgSt) : (updBrg m f).prs = m.prs := rfl
@[simp] theorem updBrg_tm (m : Chip) (f : BrgSt → BrgSt) : (updBrg m f).tm = m.tm := rfl
@[simp] theorem updBrg_msix (m : Chip) (f : BrgSt → BrgSt) : (updBrg m f).msix = m.msix := rfl
@[simp] theorem updBrg_pba (m : Chip) (f : BrgSt → BrgSt) : (updBrg m f).pba = m.pba := rfl
@[simp] theorem updBrg_time (m : Chip) (f : BrgSt → BrgSt) : (updBrg m f).time = m.time := rfl
@[simp] theorem updBrg_gates (m : Chip) (f : BrgSt → BrgSt) : (updBrg m f).gates = m.gates := rfl
@[simp] theorem updBrg_rcvy (m : Chip) (f : BrgSt → BrgSt) : (updBrg m f).rcvy = m.rcvy := rfl
@[simp] theorem updBrg_pwr (m : Chip) (f : BrgSt → BrgSt) : (updBrg m f).pwr = m.pwr := rfl
@[simp] theorem updBrg_cfg (m : Chip) (f : BrgSt → BrgSt) : (updBrg m f).cfg = m.cfg := rfl
@[simp] theorem updBrg_pair (m : Chip) (f : BrgSt → BrgSt) : (updBrg m f).pair = m.pair := rfl
@[simp] theorem updBrg_dma (m : Chip) (f : BrgSt → BrgSt) : (updBrg m f).dma = m.dma := rfl
@[simp] theorem updBrg_mint (m : Chip) (f : BrgSt → BrgSt) : (updBrg m f).mint = m.mint := rfl
@[simp] theorem updBrg_vault (m : Chip) (f : BrgSt → BrgSt) : (updBrg m f).vault = m.vault := rfl
@[simp] theorem updBrg_life (m : Chip) (f : BrgSt → BrgSt) : (updBrg m f).life = m.life := rfl
@[simp] theorem updBrg_cl (m : Chip) (f : BrgSt → BrgSt) : (updBrg m f).cl = m.cl := rfl
@[simp] theorem updBrg_sge (m : Chip) (f : BrgSt → BrgSt) : (updBrg m f).sge = m.sge := rfl
@[simp] theorem updBrg_triad (m : Chip) (f : BrgSt → BrgSt) : (updBrg m f).triad = m.triad := rfl
@[simp] theorem updBrg_otp (m : Chip) (f : BrgSt → BrgSt) : (updBrg m f).otp = m.otp := rfl
@[simp] theorem updBrg_service (m : Chip) (f : BrgSt → BrgSt) : (updBrg m f).service = m.service := rfl

/-! ### `updSafe` -/

@[simp] theorem updSafe_regs (m : Chip) (f : SafeSt → SafeSt) : (updSafe m f).regs = m.regs := rfl
@[simp] theorem updSafe_cnts (m : Chip) (f : SafeSt → SafeSt) : (updSafe m f).cnts = m.cnts := rfl
@[simp] theorem updSafe_shad (m : Chip) (f : SafeSt → SafeSt) : (updSafe m f).shad = m.shad := rfl
@[simp] theorem updSafe_free (m : Chip) (f : SafeSt → SafeSt) : (updSafe m f).free = m.free := rfl
@[simp] theorem updSafe_fresh (m : Chip) (f : SafeSt → SafeSt) : (updSafe m f).fresh = m.fresh := rfl
@[simp] theorem updSafe_late (m : Chip) (f : SafeSt → SafeSt) : (updSafe m f).late = m.late := rfl
@[simp] theorem updSafe_out (m : Chip) (f : SafeSt → SafeSt) : (updSafe m f).out = m.out := rfl
@[simp] theorem updSafe_ledger (m : Chip) (f : SafeSt → SafeSt) : (updSafe m f).ledger = m.ledger := rfl
@[simp] theorem updSafe_safe (m : Chip) (f : SafeSt → SafeSt) : (updSafe m f).safe = f m.safe := rfl
@[simp] theorem updSafe_brg (m : Chip) (f : SafeSt → SafeSt) : (updSafe m f).brg = m.brg := rfl
@[simp] theorem updSafe_ports (m : Chip) (f : SafeSt → SafeSt) : (updSafe m f).ports = m.ports := rfl
@[simp] theorem updSafe_prs (m : Chip) (f : SafeSt → SafeSt) : (updSafe m f).prs = m.prs := rfl
@[simp] theorem updSafe_tm (m : Chip) (f : SafeSt → SafeSt) : (updSafe m f).tm = m.tm := rfl
@[simp] theorem updSafe_msix (m : Chip) (f : SafeSt → SafeSt) : (updSafe m f).msix = m.msix := rfl
@[simp] theorem updSafe_pba (m : Chip) (f : SafeSt → SafeSt) : (updSafe m f).pba = m.pba := rfl
@[simp] theorem updSafe_time (m : Chip) (f : SafeSt → SafeSt) : (updSafe m f).time = m.time := rfl
@[simp] theorem updSafe_gates (m : Chip) (f : SafeSt → SafeSt) : (updSafe m f).gates = m.gates := rfl
@[simp] theorem updSafe_rcvy (m : Chip) (f : SafeSt → SafeSt) : (updSafe m f).rcvy = m.rcvy := rfl
@[simp] theorem updSafe_pwr (m : Chip) (f : SafeSt → SafeSt) : (updSafe m f).pwr = m.pwr := rfl
@[simp] theorem updSafe_cfg (m : Chip) (f : SafeSt → SafeSt) : (updSafe m f).cfg = m.cfg := rfl
@[simp] theorem updSafe_pair (m : Chip) (f : SafeSt → SafeSt) : (updSafe m f).pair = m.pair := rfl
@[simp] theorem updSafe_dma (m : Chip) (f : SafeSt → SafeSt) : (updSafe m f).dma = m.dma := rfl
@[simp] theorem updSafe_mint (m : Chip) (f : SafeSt → SafeSt) : (updSafe m f).mint = m.mint := rfl
@[simp] theorem updSafe_vault (m : Chip) (f : SafeSt → SafeSt) : (updSafe m f).vault = m.vault := rfl
@[simp] theorem updSafe_life (m : Chip) (f : SafeSt → SafeSt) : (updSafe m f).life = m.life := rfl
@[simp] theorem updSafe_cl (m : Chip) (f : SafeSt → SafeSt) : (updSafe m f).cl = m.cl := rfl
@[simp] theorem updSafe_sge (m : Chip) (f : SafeSt → SafeSt) : (updSafe m f).sge = m.sge := rfl
@[simp] theorem updSafe_triad (m : Chip) (f : SafeSt → SafeSt) : (updSafe m f).triad = m.triad := rfl
@[simp] theorem updSafe_otp (m : Chip) (f : SafeSt → SafeSt) : (updSafe m f).otp = m.otp := rfl
@[simp] theorem updSafe_service (m : Chip) (f : SafeSt → SafeSt) : (updSafe m f).service = m.service := rfl

/-! ### `updCan` -/

@[simp] theorem updCan_regs (m : Chip) (c : Nat) (f : CanCh → CanCh) : (updCan m c f).regs = m.regs := rfl
@[simp] theorem updCan_cnts (m : Chip) (c : Nat) (f : CanCh → CanCh) : (updCan m c f).cnts = m.cnts := rfl
@[simp] theorem updCan_shad (m : Chip) (c : Nat) (f : CanCh → CanCh) : (updCan m c f).shad = m.shad := rfl
@[simp] theorem updCan_free (m : Chip) (c : Nat) (f : CanCh → CanCh) : (updCan m c f).free = m.free := rfl
@[simp] theorem updCan_fresh (m : Chip) (c : Nat) (f : CanCh → CanCh) : (updCan m c f).fresh = m.fresh := rfl
@[simp] theorem updCan_late (m : Chip) (c : Nat) (f : CanCh → CanCh) : (updCan m c f).late = m.late := rfl
@[simp] theorem updCan_out (m : Chip) (c : Nat) (f : CanCh → CanCh) : (updCan m c f).out = m.out := rfl
@[simp] theorem updCan_ledger (m : Chip) (c : Nat) (f : CanCh → CanCh) : (updCan m c f).ledger = m.ledger := rfl
@[simp] theorem updCan_safe (m : Chip) (c : Nat) (f : CanCh → CanCh) : (updCan m c f).safe = m.safe := rfl
@[simp] theorem updCan_brg (m : Chip) (c : Nat) (f : CanCh → CanCh) : (updCan m c f).brg = m.brg := rfl
@[simp] theorem updCan_ports (m : Chip) (c : Nat) (f : CanCh → CanCh) : (updCan m c f).ports = m.ports := rfl
@[simp] theorem updCan_prs (m : Chip) (c : Nat) (f : CanCh → CanCh) : (updCan m c f).prs = m.prs := rfl
@[simp] theorem updCan_tm (m : Chip) (c : Nat) (f : CanCh → CanCh) : (updCan m c f).tm = m.tm := rfl
@[simp] theorem updCan_msix (m : Chip) (c : Nat) (f : CanCh → CanCh) : (updCan m c f).msix = m.msix := rfl
@[simp] theorem updCan_pba (m : Chip) (c : Nat) (f : CanCh → CanCh) : (updCan m c f).pba = m.pba := rfl
@[simp] theorem updCan_time (m : Chip) (c : Nat) (f : CanCh → CanCh) : (updCan m c f).time = m.time := rfl
@[simp] theorem updCan_gates (m : Chip) (c : Nat) (f : CanCh → CanCh) : (updCan m c f).gates = m.gates := rfl
@[simp] theorem updCan_rcvy (m : Chip) (c : Nat) (f : CanCh → CanCh) : (updCan m c f).rcvy = m.rcvy := rfl
@[simp] theorem updCan_pwr (m : Chip) (c : Nat) (f : CanCh → CanCh) : (updCan m c f).pwr = m.pwr := rfl
@[simp] theorem updCan_cfg (m : Chip) (c : Nat) (f : CanCh → CanCh) : (updCan m c f).cfg = m.cfg := rfl
@[simp] theorem updCan_pair (m : Chip) (c : Nat) (f : CanCh → CanCh) : (updCan m c f).pair = m.pair := rfl
@[simp] theorem updCan_dma (m : Chip) (c : Nat) (f : CanCh → CanCh) : (updCan m c f).dma = m.dma := rfl
@[simp] theorem updCan_mint (m : Chip) (c : Nat) (f : CanCh → CanCh) : (updCan m c f).mint = m.mint := rfl
@[simp] theorem updCan_vault (m : Chip) (c : Nat) (f : CanCh → CanCh) : (updCan m c f).vault = m.vault := rfl
@[simp] theorem updCan_life (m : Chip) (c : Nat) (f : CanCh → CanCh) : (updCan m c f).life = m.life := rfl
@[simp] theorem updCan_cl (m : Chip) (c : Nat) (f : CanCh → CanCh) : (updCan m c f).cl = { m.cl with can := lset m.cl.can c f } := rfl
@[simp] theorem updCan_sge (m : Chip) (c : Nat) (f : CanCh → CanCh) : (updCan m c f).sge = m.sge := rfl
@[simp] theorem updCan_triad (m : Chip) (c : Nat) (f : CanCh → CanCh) : (updCan m c f).triad = m.triad := rfl
@[simp] theorem updCan_otp (m : Chip) (c : Nat) (f : CanCh → CanCh) : (updCan m c f).otp = m.otp := rfl
@[simp] theorem updCan_service (m : Chip) (c : Nat) (f : CanCh → CanCh) : (updCan m c f).service = m.service := rfl

/-! ### `updLin` -/

@[simp] theorem updLin_regs (m : Chip) (c : Nat) (f : LinCh → LinCh) : (updLin m c f).regs = m.regs := rfl
@[simp] theorem updLin_cnts (m : Chip) (c : Nat) (f : LinCh → LinCh) : (updLin m c f).cnts = m.cnts := rfl
@[simp] theorem updLin_shad (m : Chip) (c : Nat) (f : LinCh → LinCh) : (updLin m c f).shad = m.shad := rfl
@[simp] theorem updLin_free (m : Chip) (c : Nat) (f : LinCh → LinCh) : (updLin m c f).free = m.free := rfl
@[simp] theorem updLin_fresh (m : Chip) (c : Nat) (f : LinCh → LinCh) : (updLin m c f).fresh = m.fresh := rfl
@[simp] theorem updLin_late (m : Chip) (c : Nat) (f : LinCh → LinCh) : (updLin m c f).late = m.late := rfl
@[simp] theorem updLin_out (m : Chip) (c : Nat) (f : LinCh → LinCh) : (updLin m c f).out = m.out := rfl
@[simp] theorem updLin_ledger (m : Chip) (c : Nat) (f : LinCh → LinCh) : (updLin m c f).ledger = m.ledger := rfl
@[simp] theorem updLin_safe (m : Chip) (c : Nat) (f : LinCh → LinCh) : (updLin m c f).safe = m.safe := rfl
@[simp] theorem updLin_brg (m : Chip) (c : Nat) (f : LinCh → LinCh) : (updLin m c f).brg = m.brg := rfl
@[simp] theorem updLin_ports (m : Chip) (c : Nat) (f : LinCh → LinCh) : (updLin m c f).ports = m.ports := rfl
@[simp] theorem updLin_prs (m : Chip) (c : Nat) (f : LinCh → LinCh) : (updLin m c f).prs = m.prs := rfl
@[simp] theorem updLin_tm (m : Chip) (c : Nat) (f : LinCh → LinCh) : (updLin m c f).tm = m.tm := rfl
@[simp] theorem updLin_msix (m : Chip) (c : Nat) (f : LinCh → LinCh) : (updLin m c f).msix = m.msix := rfl
@[simp] theorem updLin_pba (m : Chip) (c : Nat) (f : LinCh → LinCh) : (updLin m c f).pba = m.pba := rfl
@[simp] theorem updLin_time (m : Chip) (c : Nat) (f : LinCh → LinCh) : (updLin m c f).time = m.time := rfl
@[simp] theorem updLin_gates (m : Chip) (c : Nat) (f : LinCh → LinCh) : (updLin m c f).gates = m.gates := rfl
@[simp] theorem updLin_rcvy (m : Chip) (c : Nat) (f : LinCh → LinCh) : (updLin m c f).rcvy = m.rcvy := rfl
@[simp] theorem updLin_pwr (m : Chip) (c : Nat) (f : LinCh → LinCh) : (updLin m c f).pwr = m.pwr := rfl
@[simp] theorem updLin_cfg (m : Chip) (c : Nat) (f : LinCh → LinCh) : (updLin m c f).cfg = m.cfg := rfl
@[simp] theorem updLin_pair (m : Chip) (c : Nat) (f : LinCh → LinCh) : (updLin m c f).pair = m.pair := rfl
@[simp] theorem updLin_dma (m : Chip) (c : Nat) (f : LinCh → LinCh) : (updLin m c f).dma = m.dma := rfl
@[simp] theorem updLin_mint (m : Chip) (c : Nat) (f : LinCh → LinCh) : (updLin m c f).mint = m.mint := rfl
@[simp] theorem updLin_vault (m : Chip) (c : Nat) (f : LinCh → LinCh) : (updLin m c f).vault = m.vault := rfl
@[simp] theorem updLin_life (m : Chip) (c : Nat) (f : LinCh → LinCh) : (updLin m c f).life = m.life := rfl
@[simp] theorem updLin_cl (m : Chip) (c : Nat) (f : LinCh → LinCh) : (updLin m c f).cl = { m.cl with lin := lset m.cl.lin c f } := rfl
@[simp] theorem updLin_sge (m : Chip) (c : Nat) (f : LinCh → LinCh) : (updLin m c f).sge = m.sge := rfl
@[simp] theorem updLin_triad (m : Chip) (c : Nat) (f : LinCh → LinCh) : (updLin m c f).triad = m.triad := rfl
@[simp] theorem updLin_otp (m : Chip) (c : Nat) (f : LinCh → LinCh) : (updLin m c f).otp = m.otp := rfl
@[simp] theorem updLin_service (m : Chip) (c : Nat) (f : LinCh → LinCh) : (updLin m c f).service = m.service := rfl

/-! ### `updGate` -/

@[simp] theorem updGate_regs (m : Chip) (n : Nat) (f : GateSt → GateSt) : (updGate m n f).regs = m.regs := rfl
@[simp] theorem updGate_cnts (m : Chip) (n : Nat) (f : GateSt → GateSt) : (updGate m n f).cnts = m.cnts := rfl
@[simp] theorem updGate_shad (m : Chip) (n : Nat) (f : GateSt → GateSt) : (updGate m n f).shad = m.shad := rfl
@[simp] theorem updGate_free (m : Chip) (n : Nat) (f : GateSt → GateSt) : (updGate m n f).free = m.free := rfl
@[simp] theorem updGate_fresh (m : Chip) (n : Nat) (f : GateSt → GateSt) : (updGate m n f).fresh = m.fresh := rfl
@[simp] theorem updGate_late (m : Chip) (n : Nat) (f : GateSt → GateSt) : (updGate m n f).late = m.late := rfl
@[simp] theorem updGate_out (m : Chip) (n : Nat) (f : GateSt → GateSt) : (updGate m n f).out = m.out := rfl
@[simp] theorem updGate_ledger (m : Chip) (n : Nat) (f : GateSt → GateSt) : (updGate m n f).ledger = m.ledger := rfl
@[simp] theorem updGate_safe (m : Chip) (n : Nat) (f : GateSt → GateSt) : (updGate m n f).safe = m.safe := rfl
@[simp] theorem updGate_brg (m : Chip) (n : Nat) (f : GateSt → GateSt) : (updGate m n f).brg = m.brg := rfl
@[simp] theorem updGate_ports (m : Chip) (n : Nat) (f : GateSt → GateSt) : (updGate m n f).ports = m.ports := rfl
@[simp] theorem updGate_prs (m : Chip) (n : Nat) (f : GateSt → GateSt) : (updGate m n f).prs = m.prs := rfl
@[simp] theorem updGate_tm (m : Chip) (n : Nat) (f : GateSt → GateSt) : (updGate m n f).tm = m.tm := rfl
@[simp] theorem updGate_msix (m : Chip) (n : Nat) (f : GateSt → GateSt) : (updGate m n f).msix = m.msix := rfl
@[simp] theorem updGate_pba (m : Chip) (n : Nat) (f : GateSt → GateSt) : (updGate m n f).pba = m.pba := rfl
@[simp] theorem updGate_time (m : Chip) (n : Nat) (f : GateSt → GateSt) : (updGate m n f).time = m.time := rfl
@[simp] theorem updGate_gates (m : Chip) (n : Nat) (f : GateSt → GateSt) : (updGate m n f).gates = lset m.gates n f := rfl
@[simp] theorem updGate_rcvy (m : Chip) (n : Nat) (f : GateSt → GateSt) : (updGate m n f).rcvy = m.rcvy := rfl
@[simp] theorem updGate_pwr (m : Chip) (n : Nat) (f : GateSt → GateSt) : (updGate m n f).pwr = m.pwr := rfl
@[simp] theorem updGate_cfg (m : Chip) (n : Nat) (f : GateSt → GateSt) : (updGate m n f).cfg = m.cfg := rfl
@[simp] theorem updGate_pair (m : Chip) (n : Nat) (f : GateSt → GateSt) : (updGate m n f).pair = m.pair := rfl
@[simp] theorem updGate_dma (m : Chip) (n : Nat) (f : GateSt → GateSt) : (updGate m n f).dma = m.dma := rfl
@[simp] theorem updGate_mint (m : Chip) (n : Nat) (f : GateSt → GateSt) : (updGate m n f).mint = m.mint := rfl
@[simp] theorem updGate_vault (m : Chip) (n : Nat) (f : GateSt → GateSt) : (updGate m n f).vault = m.vault := rfl
@[simp] theorem updGate_life (m : Chip) (n : Nat) (f : GateSt → GateSt) : (updGate m n f).life = m.life := rfl
@[simp] theorem updGate_cl (m : Chip) (n : Nat) (f : GateSt → GateSt) : (updGate m n f).cl = m.cl := rfl
@[simp] theorem updGate_sge (m : Chip) (n : Nat) (f : GateSt → GateSt) : (updGate m n f).sge = m.sge := rfl
@[simp] theorem updGate_triad (m : Chip) (n : Nat) (f : GateSt → GateSt) : (updGate m n f).triad = m.triad := rfl
@[simp] theorem updGate_otp (m : Chip) (n : Nat) (f : GateSt → GateSt) : (updGate m n f).otp = m.otp := rfl
@[simp] theorem updGate_service (m : Chip) (n : Nat) (f : GateSt → GateSt) : (updGate m n f).service = m.service := rfl

/-! ### `updPair` -/

@[simp] theorem updPair_regs (m : Chip) (f : PairSt → PairSt) : (updPair m f).regs = m.regs := rfl
@[simp] theorem updPair_cnts (m : Chip) (f : PairSt → PairSt) : (updPair m f).cnts = m.cnts := rfl
@[simp] theorem updPair_shad (m : Chip) (f : PairSt → PairSt) : (updPair m f).shad = m.shad := rfl
@[simp] theorem updPair_free (m : Chip) (f : PairSt → PairSt) : (updPair m f).free = m.free := rfl
@[simp] theorem updPair_fresh (m : Chip) (f : PairSt → PairSt) : (updPair m f).fresh = m.fresh := rfl
@[simp] theorem updPair_late (m : Chip) (f : PairSt → PairSt) : (updPair m f).late = m.late := rfl
@[simp] theorem updPair_out (m : Chip) (f : PairSt → PairSt) : (updPair m f).out = m.out := rfl
@[simp] theorem updPair_ledger (m : Chip) (f : PairSt → PairSt) : (updPair m f).ledger = m.ledger := rfl
@[simp] theorem updPair_safe (m : Chip) (f : PairSt → PairSt) : (updPair m f).safe = m.safe := rfl
@[simp] theorem updPair_brg (m : Chip) (f : PairSt → PairSt) : (updPair m f).brg = m.brg := rfl
@[simp] theorem updPair_ports (m : Chip) (f : PairSt → PairSt) : (updPair m f).ports = m.ports := rfl
@[simp] theorem updPair_prs (m : Chip) (f : PairSt → PairSt) : (updPair m f).prs = m.prs := rfl
@[simp] theorem updPair_tm (m : Chip) (f : PairSt → PairSt) : (updPair m f).tm = m.tm := rfl
@[simp] theorem updPair_msix (m : Chip) (f : PairSt → PairSt) : (updPair m f).msix = m.msix := rfl
@[simp] theorem updPair_pba (m : Chip) (f : PairSt → PairSt) : (updPair m f).pba = m.pba := rfl
@[simp] theorem updPair_time (m : Chip) (f : PairSt → PairSt) : (updPair m f).time = m.time := rfl
@[simp] theorem updPair_gates (m : Chip) (f : PairSt → PairSt) : (updPair m f).gates = m.gates := rfl
@[simp] theorem updPair_rcvy (m : Chip) (f : PairSt → PairSt) : (updPair m f).rcvy = m.rcvy := rfl
@[simp] theorem updPair_pwr (m : Chip) (f : PairSt → PairSt) : (updPair m f).pwr = m.pwr := rfl
@[simp] theorem updPair_cfg (m : Chip) (f : PairSt → PairSt) : (updPair m f).cfg = m.cfg := rfl
@[simp] theorem updPair_pair (m : Chip) (f : PairSt → PairSt) : (updPair m f).pair = f m.pair := rfl
@[simp] theorem updPair_dma (m : Chip) (f : PairSt → PairSt) : (updPair m f).dma = m.dma := rfl
@[simp] theorem updPair_mint (m : Chip) (f : PairSt → PairSt) : (updPair m f).mint = m.mint := rfl
@[simp] theorem updPair_vault (m : Chip) (f : PairSt → PairSt) : (updPair m f).vault = m.vault := rfl
@[simp] theorem updPair_life (m : Chip) (f : PairSt → PairSt) : (updPair m f).life = m.life := rfl
@[simp] theorem updPair_cl (m : Chip) (f : PairSt → PairSt) : (updPair m f).cl = m.cl := rfl
@[simp] theorem updPair_sge (m : Chip) (f : PairSt → PairSt) : (updPair m f).sge = m.sge := rfl
@[simp] theorem updPair_triad (m : Chip) (f : PairSt → PairSt) : (updPair m f).triad = m.triad := rfl
@[simp] theorem updPair_otp (m : Chip) (f : PairSt → PairSt) : (updPair m f).otp = m.otp := rfl
@[simp] theorem updPair_service (m : Chip) (f : PairSt → PairSt) : (updPair m f).service = m.service := rfl

/-! ### `updTime` -/

@[simp] theorem updTime_regs (m : Chip) (f : TimeSt → TimeSt) : (updTime m f).regs = m.regs := rfl
@[simp] theorem updTime_cnts (m : Chip) (f : TimeSt → TimeSt) : (updTime m f).cnts = m.cnts := rfl
@[simp] theorem updTime_shad (m : Chip) (f : TimeSt → TimeSt) : (updTime m f).shad = m.shad := rfl
@[simp] theorem updTime_free (m : Chip) (f : TimeSt → TimeSt) : (updTime m f).free = m.free := rfl
@[simp] theorem updTime_fresh (m : Chip) (f : TimeSt → TimeSt) : (updTime m f).fresh = m.fresh := rfl
@[simp] theorem updTime_late (m : Chip) (f : TimeSt → TimeSt) : (updTime m f).late = m.late := rfl
@[simp] theorem updTime_out (m : Chip) (f : TimeSt → TimeSt) : (updTime m f).out = m.out := rfl
@[simp] theorem updTime_ledger (m : Chip) (f : TimeSt → TimeSt) : (updTime m f).ledger = m.ledger := rfl
@[simp] theorem updTime_safe (m : Chip) (f : TimeSt → TimeSt) : (updTime m f).safe = m.safe := rfl
@[simp] theorem updTime_brg (m : Chip) (f : TimeSt → TimeSt) : (updTime m f).brg = m.brg := rfl
@[simp] theorem updTime_ports (m : Chip) (f : TimeSt → TimeSt) : (updTime m f).ports = m.ports := rfl
@[simp] theorem updTime_prs (m : Chip) (f : TimeSt → TimeSt) : (updTime m f).prs = m.prs := rfl
@[simp] theorem updTime_tm (m : Chip) (f : TimeSt → TimeSt) : (updTime m f).tm = m.tm := rfl
@[simp] theorem updTime_msix (m : Chip) (f : TimeSt → TimeSt) : (updTime m f).msix = m.msix := rfl
@[simp] theorem updTime_pba (m : Chip) (f : TimeSt → TimeSt) : (updTime m f).pba = m.pba := rfl
@[simp] theorem updTime_time (m : Chip) (f : TimeSt → TimeSt) : (updTime m f).time = f m.time := rfl
@[simp] theorem updTime_gates (m : Chip) (f : TimeSt → TimeSt) : (updTime m f).gates = m.gates := rfl
@[simp] theorem updTime_rcvy (m : Chip) (f : TimeSt → TimeSt) : (updTime m f).rcvy = m.rcvy := rfl
@[simp] theorem updTime_pwr (m : Chip) (f : TimeSt → TimeSt) : (updTime m f).pwr = m.pwr := rfl
@[simp] theorem updTime_cfg (m : Chip) (f : TimeSt → TimeSt) : (updTime m f).cfg = m.cfg := rfl
@[simp] theorem updTime_pair (m : Chip) (f : TimeSt → TimeSt) : (updTime m f).pair = m.pair := rfl
@[simp] theorem updTime_dma (m : Chip) (f : TimeSt → TimeSt) : (updTime m f).dma = m.dma := rfl
@[simp] theorem updTime_mint (m : Chip) (f : TimeSt → TimeSt) : (updTime m f).mint = m.mint := rfl
@[simp] theorem updTime_vault (m : Chip) (f : TimeSt → TimeSt) : (updTime m f).vault = m.vault := rfl
@[simp] theorem updTime_life (m : Chip) (f : TimeSt → TimeSt) : (updTime m f).life = m.life := rfl
@[simp] theorem updTime_cl (m : Chip) (f : TimeSt → TimeSt) : (updTime m f).cl = m.cl := rfl
@[simp] theorem updTime_sge (m : Chip) (f : TimeSt → TimeSt) : (updTime m f).sge = m.sge := rfl
@[simp] theorem updTime_triad (m : Chip) (f : TimeSt → TimeSt) : (updTime m f).triad = m.triad := rfl
@[simp] theorem updTime_otp (m : Chip) (f : TimeSt → TimeSt) : (updTime m f).otp = m.otp := rfl
@[simp] theorem updTime_service (m : Chip) (f : TimeSt → TimeSt) : (updTime m f).service = m.service := rfl

/-! ### `anchorDue` -/

@[simp] theorem anchorDue_regs (m : Chip) : (anchorDue m).regs = m.regs := rfl
@[simp] theorem anchorDue_cnts (m : Chip) : (anchorDue m).cnts = m.cnts := rfl
@[simp] theorem anchorDue_shad (m : Chip) : (anchorDue m).shad = m.shad := rfl
@[simp] theorem anchorDue_free (m : Chip) : (anchorDue m).free = m.free := rfl
@[simp] theorem anchorDue_fresh (m : Chip) : (anchorDue m).fresh = m.fresh := rfl
@[simp] theorem anchorDue_late (m : Chip) : (anchorDue m).late = m.late := rfl
@[simp] theorem anchorDue_out (m : Chip) : (anchorDue m).out = m.out := rfl
@[simp] theorem anchorDue_ledger (m : Chip) : (anchorDue m).ledger = { m.ledger with anchors := m.ledger.anchors ++ [m.ledger.evtQ.length] } := rfl
@[simp] theorem anchorDue_safe (m : Chip) : (anchorDue m).safe = m.safe := rfl
@[simp] theorem anchorDue_brg (m : Chip) : (anchorDue m).brg = m.brg := rfl
@[simp] theorem anchorDue_ports (m : Chip) : (anchorDue m).ports = m.ports := rfl
@[simp] theorem anchorDue_prs (m : Chip) : (anchorDue m).prs = m.prs := rfl
@[simp] theorem anchorDue_tm (m : Chip) : (anchorDue m).tm = m.tm := rfl
@[simp] theorem anchorDue_msix (m : Chip) : (anchorDue m).msix = m.msix := rfl
@[simp] theorem anchorDue_pba (m : Chip) : (anchorDue m).pba = m.pba := rfl
@[simp] theorem anchorDue_time (m : Chip) : (anchorDue m).time = m.time := rfl
@[simp] theorem anchorDue_gates (m : Chip) : (anchorDue m).gates = m.gates := rfl
@[simp] theorem anchorDue_rcvy (m : Chip) : (anchorDue m).rcvy = m.rcvy := rfl
@[simp] theorem anchorDue_pwr (m : Chip) : (anchorDue m).pwr = m.pwr := rfl
@[simp] theorem anchorDue_cfg (m : Chip) : (anchorDue m).cfg = m.cfg := rfl
@[simp] theorem anchorDue_pair (m : Chip) : (anchorDue m).pair = m.pair := rfl
@[simp] theorem anchorDue_dma (m : Chip) : (anchorDue m).dma = m.dma := rfl
@[simp] theorem anchorDue_mint (m : Chip) : (anchorDue m).mint = m.mint := rfl
@[simp] theorem anchorDue_vault (m : Chip) : (anchorDue m).vault = m.vault := rfl
@[simp] theorem anchorDue_life (m : Chip) : (anchorDue m).life = m.life := rfl
@[simp] theorem anchorDue_cl (m : Chip) : (anchorDue m).cl = m.cl := rfl
@[simp] theorem anchorDue_sge (m : Chip) : (anchorDue m).sge = m.sge := rfl
@[simp] theorem anchorDue_triad (m : Chip) : (anchorDue m).triad = m.triad := rfl
@[simp] theorem anchorDue_otp (m : Chip) : (anchorDue m).otp = m.otp := rfl
@[simp] theorem anchorDue_service (m : Chip) : (anchorDue m).service = m.service := rfl

/-! ### `rcvyReset` -/

@[simp] theorem rcvyReset_regs (m : Chip) (r : Nat) : (rcvyReset m r).regs = m.regs := rfl
@[simp] theorem rcvyReset_cnts (m : Chip) (r : Nat) : (rcvyReset m r).cnts = m.cnts := rfl
@[simp] theorem rcvyReset_shad (m : Chip) (r : Nat) : (rcvyReset m r).shad = m.shad := rfl
@[simp] theorem rcvyReset_free (m : Chip) (r : Nat) : (rcvyReset m r).free = m.free := rfl
@[simp] theorem rcvyReset_fresh (m : Chip) (r : Nat) : (rcvyReset m r).fresh = m.fresh := rfl
@[simp] theorem rcvyReset_late (m : Chip) (r : Nat) : (rcvyReset m r).late = m.late := rfl
@[simp] theorem rcvyReset_out (m : Chip) (r : Nat) : (rcvyReset m r).out = m.out := rfl
@[simp] theorem rcvyReset_ledger (m : Chip) (r : Nat) : (rcvyReset m r).ledger = m.ledger := rfl
@[simp] theorem rcvyReset_safe (m : Chip) (r : Nat) : (rcvyReset m r).safe = m.safe := rfl
@[simp] theorem rcvyReset_brg (m : Chip) (r : Nat) : (rcvyReset m r).brg = m.brg := rfl
@[simp] theorem rcvyReset_ports (m : Chip) (r : Nat) : (rcvyReset m r).ports = m.ports := rfl
@[simp] theorem rcvyReset_prs (m : Chip) (r : Nat) : (rcvyReset m r).prs = m.prs := rfl
@[simp] theorem rcvyReset_tm (m : Chip) (r : Nat) : (rcvyReset m r).tm = m.tm := rfl
@[simp] theorem rcvyReset_msix (m : Chip) (r : Nat) : (rcvyReset m r).msix = m.msix := rfl
@[simp] theorem rcvyReset_pba (m : Chip) (r : Nat) : (rcvyReset m r).pba = m.pba := rfl
@[simp] theorem rcvyReset_time (m : Chip) (r : Nat) : (rcvyReset m r).time = m.time := rfl
@[simp] theorem rcvyReset_gates (m : Chip) (r : Nat) : (rcvyReset m r).gates = m.gates := rfl
@[simp] theorem rcvyReset_rcvy (m : Chip) (r : Nat) : (rcvyReset m r).rcvy = sdel m.rcvy r := rfl
@[simp] theorem rcvyReset_pwr (m : Chip) (r : Nat) : (rcvyReset m r).pwr = m.pwr := rfl
@[simp] theorem rcvyReset_cfg (m : Chip) (r : Nat) : (rcvyReset m r).cfg = m.cfg := rfl
@[simp] theorem rcvyReset_pair (m : Chip) (r : Nat) : (rcvyReset m r).pair = m.pair := rfl
@[simp] theorem rcvyReset_dma (m : Chip) (r : Nat) : (rcvyReset m r).dma = m.dma := rfl
@[simp] theorem rcvyReset_mint (m : Chip) (r : Nat) : (rcvyReset m r).mint = m.mint := rfl
@[simp] theorem rcvyReset_vault (m : Chip) (r : Nat) : (rcvyReset m r).vault = m.vault := rfl
@[simp] theorem rcvyReset_life (m : Chip) (r : Nat) : (rcvyReset m r).life = m.life := rfl
@[simp] theorem rcvyReset_cl (m : Chip) (r : Nat) : (rcvyReset m r).cl = m.cl := rfl
@[simp] theorem rcvyReset_sge (m : Chip) (r : Nat) : (rcvyReset m r).sge = m.sge := rfl
@[simp] theorem rcvyReset_triad (m : Chip) (r : Nat) : (rcvyReset m r).triad = m.triad := rfl
@[simp] theorem rcvyReset_otp (m : Chip) (r : Nat) : (rcvyReset m r).otp = m.otp := rfl
@[simp] theorem rcvyReset_service (m : Chip) (r : Nat) : (rcvyReset m r).service = m.service := rfl

/-! ### `updDma` -/

@[simp] theorem updDma_regs (m : Chip) (f : DmaSt → DmaSt) : (updDma m f).regs = m.regs := rfl
@[simp] theorem updDma_cnts (m : Chip) (f : DmaSt → DmaSt) : (updDma m f).cnts = m.cnts := rfl
@[simp] theorem updDma_shad (m : Chip) (f : DmaSt → DmaSt) : (updDma m f).shad = m.shad := rfl
@[simp] theorem updDma_free (m : Chip) (f : DmaSt → DmaSt) : (updDma m f).free = m.free := rfl
@[simp] theorem updDma_fresh (m : Chip) (f : DmaSt → DmaSt) : (updDma m f).fresh = m.fresh := rfl
@[simp] theorem updDma_late (m : Chip) (f : DmaSt → DmaSt) : (updDma m f).late = m.late := rfl
@[simp] theorem updDma_out (m : Chip) (f : DmaSt → DmaSt) : (updDma m f).out = m.out := rfl
@[simp] theorem updDma_ledger (m : Chip) (f : DmaSt → DmaSt) : (updDma m f).ledger = m.ledger := rfl
@[simp] theorem updDma_safe (m : Chip) (f : DmaSt → DmaSt) : (updDma m f).safe = m.safe := rfl
@[simp] theorem updDma_brg (m : Chip) (f : DmaSt → DmaSt) : (updDma m f).brg = m.brg := rfl
@[simp] theorem updDma_ports (m : Chip) (f : DmaSt → DmaSt) : (updDma m f).ports = m.ports := rfl
@[simp] theorem updDma_prs (m : Chip) (f : DmaSt → DmaSt) : (updDma m f).prs = m.prs := rfl
@[simp] theorem updDma_tm (m : Chip) (f : DmaSt → DmaSt) : (updDma m f).tm = m.tm := rfl
@[simp] theorem updDma_msix (m : Chip) (f : DmaSt → DmaSt) : (updDma m f).msix = m.msix := rfl
@[simp] theorem updDma_pba (m : Chip) (f : DmaSt → DmaSt) : (updDma m f).pba = m.pba := rfl
@[simp] theorem updDma_time (m : Chip) (f : DmaSt → DmaSt) : (updDma m f).time = m.time := rfl
@[simp] theorem updDma_gates (m : Chip) (f : DmaSt → DmaSt) : (updDma m f).gates = m.gates := rfl
@[simp] theorem updDma_rcvy (m : Chip) (f : DmaSt → DmaSt) : (updDma m f).rcvy = m.rcvy := rfl
@[simp] theorem updDma_pwr (m : Chip) (f : DmaSt → DmaSt) : (updDma m f).pwr = m.pwr := rfl
@[simp] theorem updDma_cfg (m : Chip) (f : DmaSt → DmaSt) : (updDma m f).cfg = m.cfg := rfl
@[simp] theorem updDma_pair (m : Chip) (f : DmaSt → DmaSt) : (updDma m f).pair = m.pair := rfl
@[simp] theorem updDma_dma (m : Chip) (f : DmaSt → DmaSt) : (updDma m f).dma = f m.dma := rfl
@[simp] theorem updDma_mint (m : Chip) (f : DmaSt → DmaSt) : (updDma m f).mint = m.mint := rfl
@[simp] theorem updDma_vault (m : Chip) (f : DmaSt → DmaSt) : (updDma m f).vault = m.vault := rfl
@[simp] theorem updDma_life (m : Chip) (f : DmaSt → DmaSt) : (updDma m f).life = m.life := rfl
@[simp] theorem updDma_cl (m : Chip) (f : DmaSt → DmaSt) : (updDma m f).cl = m.cl := rfl
@[simp] theorem updDma_sge (m : Chip) (f : DmaSt → DmaSt) : (updDma m f).sge = m.sge := rfl
@[simp] theorem updDma_triad (m : Chip) (f : DmaSt → DmaSt) : (updDma m f).triad = m.triad := rfl
@[simp] theorem updDma_otp (m : Chip) (f : DmaSt → DmaSt) : (updDma m f).otp = m.otp := rfl
@[simp] theorem updDma_service (m : Chip) (f : DmaSt → DmaSt) : (updDma m f).service = m.service := rfl

/-! ### `updLedger` -/

@[simp] theorem updLedger_regs (m : Chip) (f : LedgerSt → LedgerSt) : (updLedger m f).regs = m.regs := rfl
@[simp] theorem updLedger_cnts (m : Chip) (f : LedgerSt → LedgerSt) : (updLedger m f).cnts = m.cnts := rfl
@[simp] theorem updLedger_shad (m : Chip) (f : LedgerSt → LedgerSt) : (updLedger m f).shad = m.shad := rfl
@[simp] theorem updLedger_free (m : Chip) (f : LedgerSt → LedgerSt) : (updLedger m f).free = m.free := rfl
@[simp] theorem updLedger_fresh (m : Chip) (f : LedgerSt → LedgerSt) : (updLedger m f).fresh = m.fresh := rfl
@[simp] theorem updLedger_late (m : Chip) (f : LedgerSt → LedgerSt) : (updLedger m f).late = m.late := rfl
@[simp] theorem updLedger_out (m : Chip) (f : LedgerSt → LedgerSt) : (updLedger m f).out = m.out := rfl
@[simp] theorem updLedger_ledger (m : Chip) (f : LedgerSt → LedgerSt) : (updLedger m f).ledger = f m.ledger := rfl
@[simp] theorem updLedger_safe (m : Chip) (f : LedgerSt → LedgerSt) : (updLedger m f).safe = m.safe := rfl
@[simp] theorem updLedger_brg (m : Chip) (f : LedgerSt → LedgerSt) : (updLedger m f).brg = m.brg := rfl
@[simp] theorem updLedger_ports (m : Chip) (f : LedgerSt → LedgerSt) : (updLedger m f).ports = m.ports := rfl
@[simp] theorem updLedger_prs (m : Chip) (f : LedgerSt → LedgerSt) : (updLedger m f).prs = m.prs := rfl
@[simp] theorem updLedger_tm (m : Chip) (f : LedgerSt → LedgerSt) : (updLedger m f).tm = m.tm := rfl
@[simp] theorem updLedger_msix (m : Chip) (f : LedgerSt → LedgerSt) : (updLedger m f).msix = m.msix := rfl
@[simp] theorem updLedger_pba (m : Chip) (f : LedgerSt → LedgerSt) : (updLedger m f).pba = m.pba := rfl
@[simp] theorem updLedger_time (m : Chip) (f : LedgerSt → LedgerSt) : (updLedger m f).time = m.time := rfl
@[simp] theorem updLedger_gates (m : Chip) (f : LedgerSt → LedgerSt) : (updLedger m f).gates = m.gates := rfl
@[simp] theorem updLedger_rcvy (m : Chip) (f : LedgerSt → LedgerSt) : (updLedger m f).rcvy = m.rcvy := rfl
@[simp] theorem updLedger_pwr (m : Chip) (f : LedgerSt → LedgerSt) : (updLedger m f).pwr = m.pwr := rfl
@[simp] theorem updLedger_cfg (m : Chip) (f : LedgerSt → LedgerSt) : (updLedger m f).cfg = m.cfg := rfl
@[simp] theorem updLedger_pair (m : Chip) (f : LedgerSt → LedgerSt) : (updLedger m f).pair = m.pair := rfl
@[simp] theorem updLedger_dma (m : Chip) (f : LedgerSt → LedgerSt) : (updLedger m f).dma = m.dma := rfl
@[simp] theorem updLedger_mint (m : Chip) (f : LedgerSt → LedgerSt) : (updLedger m f).mint = m.mint := rfl
@[simp] theorem updLedger_vault (m : Chip) (f : LedgerSt → LedgerSt) : (updLedger m f).vault = m.vault := rfl
@[simp] theorem updLedger_life (m : Chip) (f : LedgerSt → LedgerSt) : (updLedger m f).life = m.life := rfl
@[simp] theorem updLedger_cl (m : Chip) (f : LedgerSt → LedgerSt) : (updLedger m f).cl = m.cl := rfl
@[simp] theorem updLedger_sge (m : Chip) (f : LedgerSt → LedgerSt) : (updLedger m f).sge = m.sge := rfl
@[simp] theorem updLedger_triad (m : Chip) (f : LedgerSt → LedgerSt) : (updLedger m f).triad = m.triad := rfl
@[simp] theorem updLedger_otp (m : Chip) (f : LedgerSt → LedgerSt) : (updLedger m f).otp = m.otp := rfl
@[simp] theorem updLedger_service (m : Chip) (f : LedgerSt → LedgerSt) : (updLedger m f).service = m.service := rfl

/-! ### `updPrs` -/

@[simp] theorem updPrs_regs (m : Chip) (f : PrsSt → PrsSt) : (updPrs m f).regs = m.regs := rfl
@[simp] theorem updPrs_cnts (m : Chip) (f : PrsSt → PrsSt) : (updPrs m f).cnts = m.cnts := rfl
@[simp] theorem updPrs_shad (m : Chip) (f : PrsSt → PrsSt) : (updPrs m f).shad = m.shad := rfl
@[simp] theorem updPrs_free (m : Chip) (f : PrsSt → PrsSt) : (updPrs m f).free = m.free := rfl
@[simp] theorem updPrs_fresh (m : Chip) (f : PrsSt → PrsSt) : (updPrs m f).fresh = m.fresh := rfl
@[simp] theorem updPrs_late (m : Chip) (f : PrsSt → PrsSt) : (updPrs m f).late = m.late := rfl
@[simp] theorem updPrs_out (m : Chip) (f : PrsSt → PrsSt) : (updPrs m f).out = m.out := rfl
@[simp] theorem updPrs_ledger (m : Chip) (f : PrsSt → PrsSt) : (updPrs m f).ledger = m.ledger := rfl
@[simp] theorem updPrs_safe (m : Chip) (f : PrsSt → PrsSt) : (updPrs m f).safe = m.safe := rfl
@[simp] theorem updPrs_brg (m : Chip) (f : PrsSt → PrsSt) : (updPrs m f).brg = m.brg := rfl
@[simp] theorem updPrs_ports (m : Chip) (f : PrsSt → PrsSt) : (updPrs m f).ports = m.ports := rfl
@[simp] theorem updPrs_prs (m : Chip) (f : PrsSt → PrsSt) : (updPrs m f).prs = f m.prs := rfl
@[simp] theorem updPrs_tm (m : Chip) (f : PrsSt → PrsSt) : (updPrs m f).tm = m.tm := rfl
@[simp] theorem updPrs_msix (m : Chip) (f : PrsSt → PrsSt) : (updPrs m f).msix = m.msix := rfl
@[simp] theorem updPrs_pba (m : Chip) (f : PrsSt → PrsSt) : (updPrs m f).pba = m.pba := rfl
@[simp] theorem updPrs_time (m : Chip) (f : PrsSt → PrsSt) : (updPrs m f).time = m.time := rfl
@[simp] theorem updPrs_gates (m : Chip) (f : PrsSt → PrsSt) : (updPrs m f).gates = m.gates := rfl
@[simp] theorem updPrs_rcvy (m : Chip) (f : PrsSt → PrsSt) : (updPrs m f).rcvy = m.rcvy := rfl
@[simp] theorem updPrs_pwr (m : Chip) (f : PrsSt → PrsSt) : (updPrs m f).pwr = m.pwr := rfl
@[simp] theorem updPrs_cfg (m : Chip) (f : PrsSt → PrsSt) : (updPrs m f).cfg = m.cfg := rfl
@[simp] theorem updPrs_pair (m : Chip) (f : PrsSt → PrsSt) : (updPrs m f).pair = m.pair := rfl
@[simp] theorem updPrs_dma (m : Chip) (f : PrsSt → PrsSt) : (updPrs m f).dma = m.dma := rfl
@[simp] theorem updPrs_mint (m : Chip) (f : PrsSt → PrsSt) : (updPrs m f).mint = m.mint := rfl
@[simp] theorem updPrs_vault (m : Chip) (f : PrsSt → PrsSt) : (updPrs m f).vault = m.vault := rfl
@[simp] theorem updPrs_life (m : Chip) (f : PrsSt → PrsSt) : (updPrs m f).life = m.life := rfl
@[simp] theorem updPrs_cl (m : Chip) (f : PrsSt → PrsSt) : (updPrs m f).cl = m.cl := rfl
@[simp] theorem updPrs_sge (m : Chip) (f : PrsSt → PrsSt) : (updPrs m f).sge = m.sge := rfl
@[simp] theorem updPrs_triad (m : Chip) (f : PrsSt → PrsSt) : (updPrs m f).triad = m.triad := rfl
@[simp] theorem updPrs_otp (m : Chip) (f : PrsSt → PrsSt) : (updPrs m f).otp = m.otp := rfl
@[simp] theorem updPrs_service (m : Chip) (f : PrsSt → PrsSt) : (updPrs m f).service = m.service := rfl

/-! ### `updMint` -/

@[simp] theorem updMint_regs (m : Chip) (f : MintSt → MintSt) : (updMint m f).regs = m.regs := rfl
@[simp] theorem updMint_cnts (m : Chip) (f : MintSt → MintSt) : (updMint m f).cnts = m.cnts := rfl
@[simp] theorem updMint_shad (m : Chip) (f : MintSt → MintSt) : (updMint m f).shad = m.shad := rfl
@[simp] theorem updMint_free (m : Chip) (f : MintSt → MintSt) : (updMint m f).free = m.free := rfl
@[simp] theorem updMint_fresh (m : Chip) (f : MintSt → MintSt) : (updMint m f).fresh = m.fresh := rfl
@[simp] theorem updMint_late (m : Chip) (f : MintSt → MintSt) : (updMint m f).late = m.late := rfl
@[simp] theorem updMint_out (m : Chip) (f : MintSt → MintSt) : (updMint m f).out = m.out := rfl
@[simp] theorem updMint_ledger (m : Chip) (f : MintSt → MintSt) : (updMint m f).ledger = m.ledger := rfl
@[simp] theorem updMint_safe (m : Chip) (f : MintSt → MintSt) : (updMint m f).safe = m.safe := rfl
@[simp] theorem updMint_brg (m : Chip) (f : MintSt → MintSt) : (updMint m f).brg = m.brg := rfl
@[simp] theorem updMint_ports (m : Chip) (f : MintSt → MintSt) : (updMint m f).ports = m.ports := rfl
@[simp] theorem updMint_prs (m : Chip) (f : MintSt → MintSt) : (updMint m f).prs = m.prs := rfl
@[simp] theorem updMint_tm (m : Chip) (f : MintSt → MintSt) : (updMint m f).tm = m.tm := rfl
@[simp] theorem updMint_msix (m : Chip) (f : MintSt → MintSt) : (updMint m f).msix = m.msix := rfl
@[simp] theorem updMint_pba (m : Chip) (f : MintSt → MintSt) : (updMint m f).pba = m.pba := rfl
@[simp] theorem updMint_time (m : Chip) (f : MintSt → MintSt) : (updMint m f).time = m.time := rfl
@[simp] theorem updMint_gates (m : Chip) (f : MintSt → MintSt) : (updMint m f).gates = m.gates := rfl
@[simp] theorem updMint_rcvy (m : Chip) (f : MintSt → MintSt) : (updMint m f).rcvy = m.rcvy := rfl
@[simp] theorem updMint_pwr (m : Chip) (f : MintSt → MintSt) : (updMint m f).pwr = m.pwr := rfl
@[simp] theorem updMint_cfg (m : Chip) (f : MintSt → MintSt) : (updMint m f).cfg = m.cfg := rfl
@[simp] theorem updMint_pair (m : Chip) (f : MintSt → MintSt) : (updMint m f).pair = m.pair := rfl
@[simp] theorem updMint_dma (m : Chip) (f : MintSt → MintSt) : (updMint m f).dma = m.dma := rfl
@[simp] theorem updMint_mint (m : Chip) (f : MintSt → MintSt) : (updMint m f).mint = f m.mint := rfl
@[simp] theorem updMint_vault (m : Chip) (f : MintSt → MintSt) : (updMint m f).vault = m.vault := rfl
@[simp] theorem updMint_life (m : Chip) (f : MintSt → MintSt) : (updMint m f).life = m.life := rfl
@[simp] theorem updMint_cl (m : Chip) (f : MintSt → MintSt) : (updMint m f).cl = m.cl := rfl
@[simp] theorem updMint_sge (m : Chip) (f : MintSt → MintSt) : (updMint m f).sge = m.sge := rfl
@[simp] theorem updMint_triad (m : Chip) (f : MintSt → MintSt) : (updMint m f).triad = m.triad := rfl
@[simp] theorem updMint_otp (m : Chip) (f : MintSt → MintSt) : (updMint m f).otp = m.otp := rfl
@[simp] theorem updMint_service (m : Chip) (f : MintSt → MintSt) : (updMint m f).service = m.service := rfl

/-! ### `wr` -/

@[simp] theorem wr_regs (m : Chip) (a : Nat) (v : Word) : (wr m a v).regs = sputD m.regs (resetWord a) a v := rfl
@[simp] theorem wr_cnts (m : Chip) (a : Nat) (v : Word) : (wr m a v).cnts = m.cnts := rfl
@[simp] theorem wr_shad (m : Chip) (a : Nat) (v : Word) : (wr m a v).shad = m.shad := rfl
@[simp] theorem wr_free (m : Chip) (a : Nat) (v : Word) : (wr m a v).free = m.free := rfl
@[simp] theorem wr_fresh (m : Chip) (a : Nat) (v : Word) : (wr m a v).fresh = m.fresh := rfl
@[simp] theorem wr_late (m : Chip) (a : Nat) (v : Word) : (wr m a v).late = m.late := rfl
@[simp] theorem wr_out (m : Chip) (a : Nat) (v : Word) : (wr m a v).out = m.out := rfl
@[simp] theorem wr_ledger (m : Chip) (a : Nat) (v : Word) : (wr m a v).ledger = m.ledger := rfl
@[simp] theorem wr_safe (m : Chip) (a : Nat) (v : Word) : (wr m a v).safe = m.safe := rfl
@[simp] theorem wr_brg (m : Chip) (a : Nat) (v : Word) : (wr m a v).brg = m.brg := rfl
@[simp] theorem wr_ports (m : Chip) (a : Nat) (v : Word) : (wr m a v).ports = m.ports := rfl
@[simp] theorem wr_prs (m : Chip) (a : Nat) (v : Word) : (wr m a v).prs = m.prs := rfl
@[simp] theorem wr_tm (m : Chip) (a : Nat) (v : Word) : (wr m a v).tm = m.tm := rfl
@[simp] theorem wr_msix (m : Chip) (a : Nat) (v : Word) : (wr m a v).msix = m.msix := rfl
@[simp] theorem wr_pba (m : Chip) (a : Nat) (v : Word) : (wr m a v).pba = m.pba := rfl
@[simp] theorem wr_time (m : Chip) (a : Nat) (v : Word) : (wr m a v).time = m.time := rfl
@[simp] theorem wr_gates (m : Chip) (a : Nat) (v : Word) : (wr m a v).gates = m.gates := rfl
@[simp] theorem wr_rcvy (m : Chip) (a : Nat) (v : Word) : (wr m a v).rcvy = m.rcvy := rfl
@[simp] theorem wr_pwr (m : Chip) (a : Nat) (v : Word) : (wr m a v).pwr = m.pwr := rfl
@[simp] theorem wr_cfg (m : Chip) (a : Nat) (v : Word) : (wr m a v).cfg = m.cfg := rfl
@[simp] theorem wr_pair (m : Chip) (a : Nat) (v : Word) : (wr m a v).pair = m.pair := rfl
@[simp] theorem wr_dma (m : Chip) (a : Nat) (v : Word) : (wr m a v).dma = m.dma := rfl
@[simp] theorem wr_mint (m : Chip) (a : Nat) (v : Word) : (wr m a v).mint = m.mint := rfl
@[simp] theorem wr_vault (m : Chip) (a : Nat) (v : Word) : (wr m a v).vault = m.vault := rfl
@[simp] theorem wr_life (m : Chip) (a : Nat) (v : Word) : (wr m a v).life = m.life := rfl
@[simp] theorem wr_cl (m : Chip) (a : Nat) (v : Word) : (wr m a v).cl = m.cl := rfl
@[simp] theorem wr_sge (m : Chip) (a : Nat) (v : Word) : (wr m a v).sge = m.sge := rfl
@[simp] theorem wr_triad (m : Chip) (a : Nat) (v : Word) : (wr m a v).triad = m.triad := rfl
@[simp] theorem wr_otp (m : Chip) (a : Nat) (v : Word) : (wr m a v).otp = m.otp := rfl
@[simp] theorem wr_service (m : Chip) (a : Nat) (v : Word) : (wr m a v).service = m.service := rfl

/-! ### `setCnt` -/

@[simp] theorem setCnt_regs (m : Chip) (a v : Nat) : (setCnt m a v).regs = m.regs := rfl
@[simp] theorem setCnt_cnts (m : Chip) (a v : Nat) : (setCnt m a v).cnts = sputD m.cnts 0 a v := rfl
@[simp] theorem setCnt_shad (m : Chip) (a v : Nat) : (setCnt m a v).shad = m.shad := rfl
@[simp] theorem setCnt_free (m : Chip) (a v : Nat) : (setCnt m a v).free = m.free := rfl
@[simp] theorem setCnt_fresh (m : Chip) (a v : Nat) : (setCnt m a v).fresh = m.fresh := rfl
@[simp] theorem setCnt_late (m : Chip) (a v : Nat) : (setCnt m a v).late = m.late := rfl
@[simp] theorem setCnt_out (m : Chip) (a v : Nat) : (setCnt m a v).out = m.out := rfl
@[simp] theorem setCnt_ledger (m : Chip) (a v : Nat) : (setCnt m a v).ledger = m.ledger := rfl
@[simp] theorem setCnt_safe (m : Chip) (a v : Nat) : (setCnt m a v).safe = m.safe := rfl
@[simp] theorem setCnt_brg (m : Chip) (a v : Nat) : (setCnt m a v).brg = m.brg := rfl
@[simp] theorem setCnt_ports (m : Chip) (a v : Nat) : (setCnt m a v).ports = m.ports := rfl
@[simp] theorem setCnt_prs (m : Chip) (a v : Nat) : (setCnt m a v).prs = m.prs := rfl
@[simp] theorem setCnt_tm (m : Chip) (a v : Nat) : (setCnt m a v).tm = m.tm := rfl
@[simp] theorem setCnt_msix (m : Chip) (a v : Nat) : (setCnt m a v).msix = m.msix := rfl
@[simp] theorem setCnt_pba (m : Chip) (a v : Nat) : (setCnt m a v).pba = m.pba := rfl
@[simp] theorem setCnt_time (m : Chip) (a v : Nat) : (setCnt m a v).time = m.time := rfl
@[simp] theorem setCnt_gates (m : Chip) (a v : Nat) : (setCnt m a v).gates = m.gates := rfl
@[simp] theorem setCnt_rcvy (m : Chip) (a v : Nat) : (setCnt m a v).rcvy = m.rcvy := rfl
@[simp] theorem setCnt_pwr (m : Chip) (a v : Nat) : (setCnt m a v).pwr = m.pwr := rfl
@[simp] theorem setCnt_cfg (m : Chip) (a v : Nat) : (setCnt m a v).cfg = m.cfg := rfl
@[simp] theorem setCnt_pair (m : Chip) (a v : Nat) : (setCnt m a v).pair = m.pair := rfl
@[simp] theorem setCnt_dma (m : Chip) (a v : Nat) : (setCnt m a v).dma = m.dma := rfl
@[simp] theorem setCnt_mint (m : Chip) (a v : Nat) : (setCnt m a v).mint = m.mint := rfl
@[simp] theorem setCnt_vault (m : Chip) (a v : Nat) : (setCnt m a v).vault = m.vault := rfl
@[simp] theorem setCnt_life (m : Chip) (a v : Nat) : (setCnt m a v).life = m.life := rfl
@[simp] theorem setCnt_cl (m : Chip) (a v : Nat) : (setCnt m a v).cl = m.cl := rfl
@[simp] theorem setCnt_sge (m : Chip) (a v : Nat) : (setCnt m a v).sge = m.sge := rfl
@[simp] theorem setCnt_triad (m : Chip) (a v : Nat) : (setCnt m a v).triad = m.triad := rfl
@[simp] theorem setCnt_otp (m : Chip) (a v : Nat) : (setCnt m a v).otp = m.otp := rfl
@[simp] theorem setCnt_service (m : Chip) (a v : Nat) : (setCnt m a v).service = m.service := rfl

/-! ### `clearCnts` -/

@[simp] theorem clearCnts_regs (m : Chip) (lo hi : Nat) : (clearCnts m lo hi).regs = m.regs := rfl
@[simp] theorem clearCnts_cnts (m : Chip) (lo hi : Nat) : (clearCnts m lo hi).cnts = m.cnts.filter fun p => p.1 < lo || hi ≤ p.1 := rfl
@[simp] theorem clearCnts_shad (m : Chip) (lo hi : Nat) : (clearCnts m lo hi).shad = m.shad := rfl
@[simp] theorem clearCnts_free (m : Chip) (lo hi : Nat) : (clearCnts m lo hi).free = m.free := rfl
@[simp] theorem clearCnts_fresh (m : Chip) (lo hi : Nat) : (clearCnts m lo hi).fresh = m.fresh := rfl
@[simp] theorem clearCnts_late (m : Chip) (lo hi : Nat) : (clearCnts m lo hi).late = m.late := rfl
@[simp] theorem clearCnts_out (m : Chip) (lo hi : Nat) : (clearCnts m lo hi).out = m.out := rfl
@[simp] theorem clearCnts_ledger (m : Chip) (lo hi : Nat) : (clearCnts m lo hi).ledger = m.ledger := rfl
@[simp] theorem clearCnts_safe (m : Chip) (lo hi : Nat) : (clearCnts m lo hi).safe = m.safe := rfl
@[simp] theorem clearCnts_brg (m : Chip) (lo hi : Nat) : (clearCnts m lo hi).brg = m.brg := rfl
@[simp] theorem clearCnts_ports (m : Chip) (lo hi : Nat) : (clearCnts m lo hi).ports = m.ports := rfl
@[simp] theorem clearCnts_prs (m : Chip) (lo hi : Nat) : (clearCnts m lo hi).prs = m.prs := rfl
@[simp] theorem clearCnts_tm (m : Chip) (lo hi : Nat) : (clearCnts m lo hi).tm = m.tm := rfl
@[simp] theorem clearCnts_msix (m : Chip) (lo hi : Nat) : (clearCnts m lo hi).msix = m.msix := rfl
@[simp] theorem clearCnts_pba (m : Chip) (lo hi : Nat) : (clearCnts m lo hi).pba = m.pba := rfl
@[simp] theorem clearCnts_time (m : Chip) (lo hi : Nat) : (clearCnts m lo hi).time = m.time := rfl
@[simp] theorem clearCnts_gates (m : Chip) (lo hi : Nat) : (clearCnts m lo hi).gates = m.gates := rfl
@[simp] theorem clearCnts_rcvy (m : Chip) (lo hi : Nat) : (clearCnts m lo hi).rcvy = m.rcvy := rfl
@[simp] theorem clearCnts_pwr (m : Chip) (lo hi : Nat) : (clearCnts m lo hi).pwr = m.pwr := rfl
@[simp] theorem clearCnts_cfg (m : Chip) (lo hi : Nat) : (clearCnts m lo hi).cfg = m.cfg := rfl
@[simp] theorem clearCnts_pair (m : Chip) (lo hi : Nat) : (clearCnts m lo hi).pair = m.pair := rfl
@[simp] theorem clearCnts_dma (m : Chip) (lo hi : Nat) : (clearCnts m lo hi).dma = m.dma := rfl
@[simp] theorem clearCnts_mint (m : Chip) (lo hi : Nat) : (clearCnts m lo hi).mint = m.mint := rfl
@[simp] theorem clearCnts_vault (m : Chip) (lo hi : Nat) : (clearCnts m lo hi).vault = m.vault := rfl
@[simp] theorem clearCnts_life (m : Chip) (lo hi : Nat) : (clearCnts m lo hi).life = m.life := rfl
@[simp] theorem clearCnts_cl (m : Chip) (lo hi : Nat) : (clearCnts m lo hi).cl = m.cl := rfl
@[simp] theorem clearCnts_sge (m : Chip) (lo hi : Nat) : (clearCnts m lo hi).sge = m.sge := rfl
@[simp] theorem clearCnts_triad (m : Chip) (lo hi : Nat) : (clearCnts m lo hi).triad = m.triad := rfl
@[simp] theorem clearCnts_otp (m : Chip) (lo hi : Nat) : (clearCnts m lo hi).otp = m.otp := rfl
@[simp] theorem clearCnts_service (m : Chip) (lo hi : Nat) : (clearCnts m lo hi).service = m.service := rfl

/-! ### `useFree` -/

@[simp] theorem useFree_regs (m : Chip) : (useFree m).regs = m.regs := rfl
@[simp] theorem useFree_cnts (m : Chip) : (useFree m).cnts = m.cnts := rfl
@[simp] theorem useFree_shad (m : Chip) : (useFree m).shad = m.shad := rfl
@[simp] theorem useFree_free (m : Chip) : (useFree m).free = m.free + 1 := rfl
@[simp] theorem useFree_fresh (m : Chip) : (useFree m).fresh = m.fresh := rfl
@[simp] theorem useFree_late (m : Chip) : (useFree m).late = m.late := rfl
@[simp] theorem useFree_out (m : Chip) : (useFree m).out = m.out := rfl
@[simp] theorem useFree_ledger (m : Chip) : (useFree m).ledger = m.ledger := rfl
@[simp] theorem useFree_safe (m : Chip) : (useFree m).safe = m.safe := rfl
@[simp] theorem useFree_brg (m : Chip) : (useFree m).brg = m.brg := rfl
@[simp] theorem useFree_ports (m : Chip) : (useFree m).ports = m.ports := rfl
@[simp] theorem useFree_prs (m : Chip) : (useFree m).prs = m.prs := rfl
@[simp] theorem useFree_tm (m : Chip) : (useFree m).tm = m.tm := rfl
@[simp] theorem useFree_msix (m : Chip) : (useFree m).msix = m.msix := rfl
@[simp] theorem useFree_pba (m : Chip) : (useFree m).pba = m.pba := rfl
@[simp] theorem useFree_time (m : Chip) : (useFree m).time = m.time := rfl
@[simp] theorem useFree_gates (m : Chip) : (useFree m).gates = m.gates := rfl
@[simp] theorem useFree_rcvy (m : Chip) : (useFree m).rcvy = m.rcvy := rfl
@[simp] theorem useFree_pwr (m : Chip) : (useFree m).pwr = m.pwr := rfl
@[simp] theorem useFree_cfg (m : Chip) : (useFree m).cfg = m.cfg := rfl
@[simp] theorem useFree_pair (m : Chip) : (useFree m).pair = m.pair := rfl
@[simp] theorem useFree_dma (m : Chip) : (useFree m).dma = m.dma := rfl
@[simp] theorem useFree_mint (m : Chip) : (useFree m).mint = m.mint := rfl
@[simp] theorem useFree_vault (m : Chip) : (useFree m).vault = m.vault := rfl
@[simp] theorem useFree_life (m : Chip) : (useFree m).life = m.life := rfl
@[simp] theorem useFree_cl (m : Chip) : (useFree m).cl = m.cl := rfl
@[simp] theorem useFree_sge (m : Chip) : (useFree m).sge = m.sge := rfl
@[simp] theorem useFree_triad (m : Chip) : (useFree m).triad = m.triad := rfl
@[simp] theorem useFree_otp (m : Chip) : (useFree m).otp = m.otp := rfl
@[simp] theorem useFree_service (m : Chip) : (useFree m).service = m.service := rfl

/-! ### `say` -/

@[simp] theorem say_regs (m : Chip) (o : Out) : (say m o).regs = m.regs := rfl
@[simp] theorem say_cnts (m : Chip) (o : Out) : (say m o).cnts = m.cnts := rfl
@[simp] theorem say_shad (m : Chip) (o : Out) : (say m o).shad = m.shad := rfl
@[simp] theorem say_free (m : Chip) (o : Out) : (say m o).free = m.free := rfl
@[simp] theorem say_fresh (m : Chip) (o : Out) : (say m o).fresh = m.fresh := rfl
@[simp] theorem say_late (m : Chip) (o : Out) : (say m o).late = m.late := rfl
@[simp] theorem say_out (m : Chip) (o : Out) : (say m o).out = m.out ++ [o] := rfl
@[simp] theorem say_ledger (m : Chip) (o : Out) : (say m o).ledger = m.ledger := rfl
@[simp] theorem say_safe (m : Chip) (o : Out) : (say m o).safe = m.safe := rfl
@[simp] theorem say_brg (m : Chip) (o : Out) : (say m o).brg = m.brg := rfl
@[simp] theorem say_ports (m : Chip) (o : Out) : (say m o).ports = m.ports := rfl
@[simp] theorem say_prs (m : Chip) (o : Out) : (say m o).prs = m.prs := rfl
@[simp] theorem say_tm (m : Chip) (o : Out) : (say m o).tm = m.tm := rfl
@[simp] theorem say_msix (m : Chip) (o : Out) : (say m o).msix = m.msix := rfl
@[simp] theorem say_pba (m : Chip) (o : Out) : (say m o).pba = m.pba := rfl
@[simp] theorem say_time (m : Chip) (o : Out) : (say m o).time = m.time := rfl
@[simp] theorem say_gates (m : Chip) (o : Out) : (say m o).gates = m.gates := rfl
@[simp] theorem say_rcvy (m : Chip) (o : Out) : (say m o).rcvy = m.rcvy := rfl
@[simp] theorem say_pwr (m : Chip) (o : Out) : (say m o).pwr = m.pwr := rfl
@[simp] theorem say_cfg (m : Chip) (o : Out) : (say m o).cfg = m.cfg := rfl
@[simp] theorem say_pair (m : Chip) (o : Out) : (say m o).pair = m.pair := rfl
@[simp] theorem say_dma (m : Chip) (o : Out) : (say m o).dma = m.dma := rfl
@[simp] theorem say_mint (m : Chip) (o : Out) : (say m o).mint = m.mint := rfl
@[simp] theorem say_vault (m : Chip) (o : Out) : (say m o).vault = m.vault := rfl
@[simp] theorem say_life (m : Chip) (o : Out) : (say m o).life = m.life := rfl
@[simp] theorem say_cl (m : Chip) (o : Out) : (say m o).cl = m.cl := rfl
@[simp] theorem say_sge (m : Chip) (o : Out) : (say m o).sge = m.sge := rfl
@[simp] theorem say_triad (m : Chip) (o : Out) : (say m o).triad = m.triad := rfl
@[simp] theorem say_otp (m : Chip) (o : Out) : (say m o).otp = m.otp := rfl
@[simp] theorem say_service (m : Chip) (o : Out) : (say m o).service = m.service := rfl

/-! ### `later` -/

@[simp] theorem later_regs (m : Chip) (d : Nat) (x : Late) : (later m d x).regs = m.regs := rfl
@[simp] theorem later_cnts (m : Chip) (d : Nat) (x : Late) : (later m d x).cnts = m.cnts := rfl
@[simp] theorem later_shad (m : Chip) (d : Nat) (x : Late) : (later m d x).shad = m.shad := rfl
@[simp] theorem later_free (m : Chip) (d : Nat) (x : Late) : (later m d x).free = m.free := rfl
@[simp] theorem later_fresh (m : Chip) (d : Nat) (x : Late) : (later m d x).fresh = m.fresh := rfl
@[simp] theorem later_late (m : Chip) (d : Nat) (x : Late) :
    (later m d x).late = m.late.filter (fun p => p.1 ≤ d) ++ (d, x) :: m.late.filter fun p => d < p.1 := rfl
@[simp] theorem later_out (m : Chip) (d : Nat) (x : Late) : (later m d x).out = m.out := rfl
@[simp] theorem later_ledger (m : Chip) (d : Nat) (x : Late) : (later m d x).ledger = m.ledger := rfl
@[simp] theorem later_safe (m : Chip) (d : Nat) (x : Late) : (later m d x).safe = m.safe := rfl
@[simp] theorem later_brg (m : Chip) (d : Nat) (x : Late) : (later m d x).brg = m.brg := rfl
@[simp] theorem later_ports (m : Chip) (d : Nat) (x : Late) : (later m d x).ports = m.ports := rfl
@[simp] theorem later_prs (m : Chip) (d : Nat) (x : Late) : (later m d x).prs = m.prs := rfl
@[simp] theorem later_tm (m : Chip) (d : Nat) (x : Late) : (later m d x).tm = m.tm := rfl
@[simp] theorem later_msix (m : Chip) (d : Nat) (x : Late) : (later m d x).msix = m.msix := rfl
@[simp] theorem later_pba (m : Chip) (d : Nat) (x : Late) : (later m d x).pba = m.pba := rfl
@[simp] theorem later_time (m : Chip) (d : Nat) (x : Late) : (later m d x).time = m.time := rfl
@[simp] theorem later_gates (m : Chip) (d : Nat) (x : Late) : (later m d x).gates = m.gates := rfl
@[simp] theorem later_rcvy (m : Chip) (d : Nat) (x : Late) : (later m d x).rcvy = m.rcvy := rfl
@[simp] theorem later_pwr (m : Chip) (d : Nat) (x : Late) : (later m d x).pwr = m.pwr := rfl
@[simp] theorem later_cfg (m : Chip) (d : Nat) (x : Late) : (later m d x).cfg = m.cfg := rfl
@[simp] theorem later_pair (m : Chip) (d : Nat) (x : Late) : (later m d x).pair = m.pair := rfl
@[simp] theorem later_dma (m : Chip) (d : Nat) (x : Late) : (later m d x).dma = m.dma := rfl
@[simp] theorem later_mint (m : Chip) (d : Nat) (x : Late) : (later m d x).mint = m.mint := rfl
@[simp] theorem later_vault (m : Chip) (d : Nat) (x : Late) : (later m d x).vault = m.vault := rfl
@[simp] theorem later_life (m : Chip) (d : Nat) (x : Late) : (later m d x).life = m.life := rfl
@[simp] theorem later_cl (m : Chip) (d : Nat) (x : Late) : (later m d x).cl = m.cl := rfl
@[simp] theorem later_sge (m : Chip) (d : Nat) (x : Late) : (later m d x).sge = m.sge := rfl
@[simp] theorem later_triad (m : Chip) (d : Nat) (x : Late) : (later m d x).triad = m.triad := rfl
@[simp] theorem later_otp (m : Chip) (d : Nat) (x : Late) : (later m d x).otp = m.otp := rfl
@[simp] theorem later_service (m : Chip) (d : Nat) (x : Late) : (later m d x).service = m.service := rfl

/-! ### `updPort` -/

@[simp] theorem updPort_regs (m : Chip) (n : Nat) (f : PortSt → PortSt) : (updPort m n f).regs = m.regs := rfl
@[simp] theorem updPort_cnts (m : Chip) (n : Nat) (f : PortSt → PortSt) : (updPort m n f).cnts = m.cnts := rfl
@[simp] theorem updPort_shad (m : Chip) (n : Nat) (f : PortSt → PortSt) : (updPort m n f).shad = m.shad := rfl
@[simp] theorem updPort_free (m : Chip) (n : Nat) (f : PortSt → PortSt) : (updPort m n f).free = m.free := rfl
@[simp] theorem updPort_fresh (m : Chip) (n : Nat) (f : PortSt → PortSt) : (updPort m n f).fresh = m.fresh := rfl
@[simp] theorem updPort_late (m : Chip) (n : Nat) (f : PortSt → PortSt) : (updPort m n f).late = m.late := rfl
@[simp] theorem updPort_out (m : Chip) (n : Nat) (f : PortSt → PortSt) : (updPort m n f).out = m.out := rfl
@[simp] theorem updPort_ledger (m : Chip) (n : Nat) (f : PortSt → PortSt) : (updPort m n f).ledger = m.ledger := rfl
@[simp] theorem updPort_safe (m : Chip) (n : Nat) (f : PortSt → PortSt) : (updPort m n f).safe = m.safe := rfl
@[simp] theorem updPort_brg (m : Chip) (n : Nat) (f : PortSt → PortSt) : (updPort m n f).brg = m.brg := rfl
@[simp] theorem updPort_ports (m : Chip) (n : Nat) (f : PortSt → PortSt) : (updPort m n f).ports = lset m.ports n f := rfl
@[simp] theorem updPort_prs (m : Chip) (n : Nat) (f : PortSt → PortSt) : (updPort m n f).prs = m.prs := rfl
@[simp] theorem updPort_tm (m : Chip) (n : Nat) (f : PortSt → PortSt) : (updPort m n f).tm = m.tm := rfl
@[simp] theorem updPort_msix (m : Chip) (n : Nat) (f : PortSt → PortSt) : (updPort m n f).msix = m.msix := rfl
@[simp] theorem updPort_pba (m : Chip) (n : Nat) (f : PortSt → PortSt) : (updPort m n f).pba = m.pba := rfl
@[simp] theorem updPort_time (m : Chip) (n : Nat) (f : PortSt → PortSt) : (updPort m n f).time = m.time := rfl
@[simp] theorem updPort_gates (m : Chip) (n : Nat) (f : PortSt → PortSt) : (updPort m n f).gates = m.gates := rfl
@[simp] theorem updPort_rcvy (m : Chip) (n : Nat) (f : PortSt → PortSt) : (updPort m n f).rcvy = m.rcvy := rfl
@[simp] theorem updPort_pwr (m : Chip) (n : Nat) (f : PortSt → PortSt) : (updPort m n f).pwr = m.pwr := rfl
@[simp] theorem updPort_cfg (m : Chip) (n : Nat) (f : PortSt → PortSt) : (updPort m n f).cfg = m.cfg := rfl
@[simp] theorem updPort_pair (m : Chip) (n : Nat) (f : PortSt → PortSt) : (updPort m n f).pair = m.pair := rfl
@[simp] theorem updPort_dma (m : Chip) (n : Nat) (f : PortSt → PortSt) : (updPort m n f).dma = m.dma := rfl
@[simp] theorem updPort_mint (m : Chip) (n : Nat) (f : PortSt → PortSt) : (updPort m n f).mint = m.mint := rfl
@[simp] theorem updPort_vault (m : Chip) (n : Nat) (f : PortSt → PortSt) : (updPort m n f).vault = m.vault := rfl
@[simp] theorem updPort_life (m : Chip) (n : Nat) (f : PortSt → PortSt) : (updPort m n f).life = m.life := rfl
@[simp] theorem updPort_cl (m : Chip) (n : Nat) (f : PortSt → PortSt) : (updPort m n f).cl = m.cl := rfl
@[simp] theorem updPort_sge (m : Chip) (n : Nat) (f : PortSt → PortSt) : (updPort m n f).sge = m.sge := rfl
@[simp] theorem updPort_triad (m : Chip) (n : Nat) (f : PortSt → PortSt) : (updPort m n f).triad = m.triad := rfl
@[simp] theorem updPort_otp (m : Chip) (n : Nat) (f : PortSt → PortSt) : (updPort m n f).otp = m.otp := rfl
@[simp] theorem updPort_service (m : Chip) (n : Nat) (f : PortSt → PortSt) : (updPort m n f).service = m.service := rfl

/-! ### `updPwr` -/

@[simp] theorem updPwr_regs (m : Chip) (f : PwrSt → PwrSt) : (updPwr m f).regs = m.regs := rfl
@[simp] theorem updPwr_cnts (m : Chip) (f : PwrSt → PwrSt) : (updPwr m f).cnts = m.cnts := rfl
@[simp] theorem updPwr_shad (m : Chip) (f : PwrSt → PwrSt) : (updPwr m f).shad = m.shad := rfl
@[simp] theorem updPwr_free (m : Chip) (f : PwrSt → PwrSt) : (updPwr m f).free = m.free := rfl
@[simp] theorem updPwr_fresh (m : Chip) (f : PwrSt → PwrSt) : (updPwr m f).fresh = m.fresh := rfl
@[simp] theorem updPwr_late (m : Chip) (f : PwrSt → PwrSt) : (updPwr m f).late = m.late := rfl
@[simp] theorem updPwr_out (m : Chip) (f : PwrSt → PwrSt) : (updPwr m f).out = m.out := rfl
@[simp] theorem updPwr_ledger (m : Chip) (f : PwrSt → PwrSt) : (updPwr m f).ledger = m.ledger := rfl
@[simp] theorem updPwr_safe (m : Chip) (f : PwrSt → PwrSt) : (updPwr m f).safe = m.safe := rfl
@[simp] theorem updPwr_brg (m : Chip) (f : PwrSt → PwrSt) : (updPwr m f).brg = m.brg := rfl
@[simp] theorem updPwr_ports (m : Chip) (f : PwrSt → PwrSt) : (updPwr m f).ports = m.ports := rfl
@[simp] theorem updPwr_prs (m : Chip) (f : PwrSt → PwrSt) : (updPwr m f).prs = m.prs := rfl
@[simp] theorem updPwr_tm (m : Chip) (f : PwrSt → PwrSt) : (updPwr m f).tm = m.tm := rfl
@[simp] theorem updPwr_msix (m : Chip) (f : PwrSt → PwrSt) : (updPwr m f).msix = m.msix := rfl
@[simp] theorem updPwr_pba (m : Chip) (f : PwrSt → PwrSt) : (updPwr m f).pba = m.pba := rfl
@[simp] theorem updPwr_time (m : Chip) (f : PwrSt → PwrSt) : (updPwr m f).time = m.time := rfl
@[simp] theorem updPwr_gates (m : Chip) (f : PwrSt → PwrSt) : (updPwr m f).gates = m.gates := rfl
@[simp] theorem updPwr_rcvy (m : Chip) (f : PwrSt → PwrSt) : (updPwr m f).rcvy = m.rcvy := rfl
@[simp] theorem updPwr_pwr (m : Chip) (f : PwrSt → PwrSt) : (updPwr m f).pwr = f m.pwr := rfl
@[simp] theorem updPwr_cfg (m : Chip) (f : PwrSt → PwrSt) : (updPwr m f).cfg = m.cfg := rfl
@[simp] theorem updPwr_pair (m : Chip) (f : PwrSt → PwrSt) : (updPwr m f).pair = m.pair := rfl
@[simp] theorem updPwr_dma (m : Chip) (f : PwrSt → PwrSt) : (updPwr m f).dma = m.dma := rfl
@[simp] theorem updPwr_mint (m : Chip) (f : PwrSt → PwrSt) : (updPwr m f).mint = m.mint := rfl
@[simp] theorem updPwr_vault (m : Chip) (f : PwrSt → PwrSt) : (updPwr m f).vault = m.vault := rfl
@[simp] theorem updPwr_life (m : Chip) (f : PwrSt → PwrSt) : (updPwr m f).life = m.life := rfl
@[simp] theorem updPwr_cl (m : Chip) (f : PwrSt → PwrSt) : (updPwr m f).cl = m.cl := rfl
@[simp] theorem updPwr_sge (m : Chip) (f : PwrSt → PwrSt) : (updPwr m f).sge = m.sge := rfl
@[simp] theorem updPwr_triad (m : Chip) (f : PwrSt → PwrSt) : (updPwr m f).triad = m.triad := rfl
@[simp] theorem updPwr_otp (m : Chip) (f : PwrSt → PwrSt) : (updPwr m f).otp = m.otp := rfl
@[simp] theorem updPwr_service (m : Chip) (f : PwrSt → PwrSt) : (updPwr m f).service = m.service := rfl

/-! ### `updSge` -/

@[simp] theorem updSge_regs (m : Chip) (f : SgeSt → SgeSt) : (updSge m f).regs = m.regs := rfl
@[simp] theorem updSge_cnts (m : Chip) (f : SgeSt → SgeSt) : (updSge m f).cnts = m.cnts := rfl
@[simp] theorem updSge_shad (m : Chip) (f : SgeSt → SgeSt) : (updSge m f).shad = m.shad := rfl
@[simp] theorem updSge_free (m : Chip) (f : SgeSt → SgeSt) : (updSge m f).free = m.free := rfl
@[simp] theorem updSge_fresh (m : Chip) (f : SgeSt → SgeSt) : (updSge m f).fresh = m.fresh := rfl
@[simp] theorem updSge_late (m : Chip) (f : SgeSt → SgeSt) : (updSge m f).late = m.late := rfl
@[simp] theorem updSge_out (m : Chip) (f : SgeSt → SgeSt) : (updSge m f).out = m.out := rfl
@[simp] theorem updSge_ledger (m : Chip) (f : SgeSt → SgeSt) : (updSge m f).ledger = m.ledger := rfl
@[simp] theorem updSge_safe (m : Chip) (f : SgeSt → SgeSt) : (updSge m f).safe = m.safe := rfl
@[simp] theorem updSge_brg (m : Chip) (f : SgeSt → SgeSt) : (updSge m f).brg = m.brg := rfl
@[simp] theorem updSge_ports (m : Chip) (f : SgeSt → SgeSt) : (updSge m f).ports = m.ports := rfl
@[simp] theorem updSge_prs (m : Chip) (f : SgeSt → SgeSt) : (updSge m f).prs = m.prs := rfl
@[simp] theorem updSge_tm (m : Chip) (f : SgeSt → SgeSt) : (updSge m f).tm = m.tm := rfl
@[simp] theorem updSge_msix (m : Chip) (f : SgeSt → SgeSt) : (updSge m f).msix = m.msix := rfl
@[simp] theorem updSge_pba (m : Chip) (f : SgeSt → SgeSt) : (updSge m f).pba = m.pba := rfl
@[simp] theorem updSge_time (m : Chip) (f : SgeSt → SgeSt) : (updSge m f).time = m.time := rfl
@[simp] theorem updSge_gates (m : Chip) (f : SgeSt → SgeSt) : (updSge m f).gates = m.gates := rfl
@[simp] theorem updSge_rcvy (m : Chip) (f : SgeSt → SgeSt) : (updSge m f).rcvy = m.rcvy := rfl
@[simp] theorem updSge_pwr (m : Chip) (f : SgeSt → SgeSt) : (updSge m f).pwr = m.pwr := rfl
@[simp] theorem updSge_cfg (m : Chip) (f : SgeSt → SgeSt) : (updSge m f).cfg = m.cfg := rfl
@[simp] theorem updSge_pair (m : Chip) (f : SgeSt → SgeSt) : (updSge m f).pair = m.pair := rfl
@[simp] theorem updSge_dma (m : Chip) (f : SgeSt → SgeSt) : (updSge m f).dma = m.dma := rfl
@[simp] theorem updSge_mint (m : Chip) (f : SgeSt → SgeSt) : (updSge m f).mint = m.mint := rfl
@[simp] theorem updSge_vault (m : Chip) (f : SgeSt → SgeSt) : (updSge m f).vault = m.vault := rfl
@[simp] theorem updSge_life (m : Chip) (f : SgeSt → SgeSt) : (updSge m f).life = m.life := rfl
@[simp] theorem updSge_cl (m : Chip) (f : SgeSt → SgeSt) : (updSge m f).cl = m.cl := rfl
@[simp] theorem updSge_sge (m : Chip) (f : SgeSt → SgeSt) : (updSge m f).sge = f m.sge := rfl
@[simp] theorem updSge_triad (m : Chip) (f : SgeSt → SgeSt) : (updSge m f).triad = m.triad := rfl
@[simp] theorem updSge_otp (m : Chip) (f : SgeSt → SgeSt) : (updSge m f).otp = m.otp := rfl
@[simp] theorem updSge_service (m : Chip) (f : SgeSt → SgeSt) : (updSge m f).service = m.service := rfl

/-! ### `updTm` -/

@[simp] theorem updTm_regs (m : Chip) (f : TmSt → TmSt) : (updTm m f).regs = m.regs := rfl
@[simp] theorem updTm_cnts (m : Chip) (f : TmSt → TmSt) : (updTm m f).cnts = m.cnts := rfl
@[simp] theorem updTm_shad (m : Chip) (f : TmSt → TmSt) : (updTm m f).shad = m.shad := rfl
@[simp] theorem updTm_free (m : Chip) (f : TmSt → TmSt) : (updTm m f).free = m.free := rfl
@[simp] theorem updTm_fresh (m : Chip) (f : TmSt → TmSt) : (updTm m f).fresh = m.fresh := rfl
@[simp] theorem updTm_late (m : Chip) (f : TmSt → TmSt) : (updTm m f).late = m.late := rfl
@[simp] theorem updTm_out (m : Chip) (f : TmSt → TmSt) : (updTm m f).out = m.out := rfl
@[simp] theorem updTm_ledger (m : Chip) (f : TmSt → TmSt) : (updTm m f).ledger = m.ledger := rfl
@[simp] theorem updTm_safe (m : Chip) (f : TmSt → TmSt) : (updTm m f).safe = m.safe := rfl
@[simp] theorem updTm_brg (m : Chip) (f : TmSt → TmSt) : (updTm m f).brg = m.brg := rfl
@[simp] theorem updTm_ports (m : Chip) (f : TmSt → TmSt) : (updTm m f).ports = m.ports := rfl
@[simp] theorem updTm_prs (m : Chip) (f : TmSt → TmSt) : (updTm m f).prs = m.prs := rfl
@[simp] theorem updTm_tm (m : Chip) (f : TmSt → TmSt) : (updTm m f).tm = f m.tm := rfl
@[simp] theorem updTm_msix (m : Chip) (f : TmSt → TmSt) : (updTm m f).msix = m.msix := rfl
@[simp] theorem updTm_pba (m : Chip) (f : TmSt → TmSt) : (updTm m f).pba = m.pba := rfl
@[simp] theorem updTm_time (m : Chip) (f : TmSt → TmSt) : (updTm m f).time = m.time := rfl
@[simp] theorem updTm_gates (m : Chip) (f : TmSt → TmSt) : (updTm m f).gates = m.gates := rfl
@[simp] theorem updTm_rcvy (m : Chip) (f : TmSt → TmSt) : (updTm m f).rcvy = m.rcvy := rfl
@[simp] theorem updTm_pwr (m : Chip) (f : TmSt → TmSt) : (updTm m f).pwr = m.pwr := rfl
@[simp] theorem updTm_cfg (m : Chip) (f : TmSt → TmSt) : (updTm m f).cfg = m.cfg := rfl
@[simp] theorem updTm_pair (m : Chip) (f : TmSt → TmSt) : (updTm m f).pair = m.pair := rfl
@[simp] theorem updTm_dma (m : Chip) (f : TmSt → TmSt) : (updTm m f).dma = m.dma := rfl
@[simp] theorem updTm_mint (m : Chip) (f : TmSt → TmSt) : (updTm m f).mint = m.mint := rfl
@[simp] theorem updTm_vault (m : Chip) (f : TmSt → TmSt) : (updTm m f).vault = m.vault := rfl
@[simp] theorem updTm_life (m : Chip) (f : TmSt → TmSt) : (updTm m f).life = m.life := rfl
@[simp] theorem updTm_cl (m : Chip) (f : TmSt → TmSt) : (updTm m f).cl = m.cl := rfl
@[simp] theorem updTm_sge (m : Chip) (f : TmSt → TmSt) : (updTm m f).sge = m.sge := rfl
@[simp] theorem updTm_triad (m : Chip) (f : TmSt → TmSt) : (updTm m f).triad = m.triad := rfl
@[simp] theorem updTm_otp (m : Chip) (f : TmSt → TmSt) : (updTm m f).otp = m.otp := rfl
@[simp] theorem updTm_service (m : Chip) (f : TmSt → TmSt) : (updTm m f).service = m.service := rfl

/-! ### `updTriad` -/

@[simp] theorem updTriad_regs (m : Chip) (f : TriadSt → TriadSt) : (updTriad m f).regs = m.regs := rfl
@[simp] theorem updTriad_cnts (m : Chip) (f : TriadSt → TriadSt) : (updTriad m f).cnts = m.cnts := rfl
@[simp] theorem updTriad_shad (m : Chip) (f : TriadSt → TriadSt) : (updTriad m f).shad = m.shad := rfl
@[simp] theorem updTriad_free (m : Chip) (f : TriadSt → TriadSt) : (updTriad m f).free = m.free := rfl
@[simp] theorem updTriad_fresh (m : Chip) (f : TriadSt → TriadSt) : (updTriad m f).fresh = m.fresh := rfl
@[simp] theorem updTriad_late (m : Chip) (f : TriadSt → TriadSt) : (updTriad m f).late = m.late := rfl
@[simp] theorem updTriad_out (m : Chip) (f : TriadSt → TriadSt) : (updTriad m f).out = m.out := rfl
@[simp] theorem updTriad_ledger (m : Chip) (f : TriadSt → TriadSt) : (updTriad m f).ledger = m.ledger := rfl
@[simp] theorem updTriad_safe (m : Chip) (f : TriadSt → TriadSt) : (updTriad m f).safe = m.safe := rfl
@[simp] theorem updTriad_brg (m : Chip) (f : TriadSt → TriadSt) : (updTriad m f).brg = m.brg := rfl
@[simp] theorem updTriad_ports (m : Chip) (f : TriadSt → TriadSt) : (updTriad m f).ports = m.ports := rfl
@[simp] theorem updTriad_prs (m : Chip) (f : TriadSt → TriadSt) : (updTriad m f).prs = m.prs := rfl
@[simp] theorem updTriad_tm (m : Chip) (f : TriadSt → TriadSt) : (updTriad m f).tm = m.tm := rfl
@[simp] theorem updTriad_msix (m : Chip) (f : TriadSt → TriadSt) : (updTriad m f).msix = m.msix := rfl
@[simp] theorem updTriad_pba (m : Chip) (f : TriadSt → TriadSt) : (updTriad m f).pba = m.pba := rfl
@[simp] theorem updTriad_time (m : Chip) (f : TriadSt → TriadSt) : (updTriad m f).time = m.time := rfl
@[simp] theorem updTriad_gates (m : Chip) (f : TriadSt → TriadSt) : (updTriad m f).gates = m.gates := rfl
@[simp] theorem updTriad_rcvy (m : Chip) (f : TriadSt → TriadSt) : (updTriad m f).rcvy = m.rcvy := rfl
@[simp] theorem updTriad_pwr (m : Chip) (f : TriadSt → TriadSt) : (updTriad m f).pwr = m.pwr := rfl
@[simp] theorem updTriad_cfg (m : Chip) (f : TriadSt → TriadSt) : (updTriad m f).cfg = m.cfg := rfl
@[simp] theorem updTriad_pair (m : Chip) (f : TriadSt → TriadSt) : (updTriad m f).pair = m.pair := rfl
@[simp] theorem updTriad_dma (m : Chip) (f : TriadSt → TriadSt) : (updTriad m f).dma = m.dma := rfl
@[simp] theorem updTriad_mint (m : Chip) (f : TriadSt → TriadSt) : (updTriad m f).mint = m.mint := rfl
@[simp] theorem updTriad_vault (m : Chip) (f : TriadSt → TriadSt) : (updTriad m f).vault = m.vault := rfl
@[simp] theorem updTriad_life (m : Chip) (f : TriadSt → TriadSt) : (updTriad m f).life = m.life := rfl
@[simp] theorem updTriad_cl (m : Chip) (f : TriadSt → TriadSt) : (updTriad m f).cl = m.cl := rfl
@[simp] theorem updTriad_sge (m : Chip) (f : TriadSt → TriadSt) : (updTriad m f).sge = m.sge := rfl
@[simp] theorem updTriad_triad (m : Chip) (f : TriadSt → TriadSt) : (updTriad m f).triad = f m.triad := rfl
@[simp] theorem updTriad_otp (m : Chip) (f : TriadSt → TriadSt) : (updTriad m f).otp = m.otp := rfl
@[simp] theorem updTriad_service (m : Chip) (f : TriadSt → TriadSt) : (updTriad m f).service = m.service := rfl

/-! ### `updVault` -/

@[simp] theorem updVault_regs (m : Chip) (f : VaultSt → VaultSt) : (updVault m f).regs = m.regs := rfl
@[simp] theorem updVault_cnts (m : Chip) (f : VaultSt → VaultSt) : (updVault m f).cnts = m.cnts := rfl
@[simp] theorem updVault_shad (m : Chip) (f : VaultSt → VaultSt) : (updVault m f).shad = m.shad := rfl
@[simp] theorem updVault_free (m : Chip) (f : VaultSt → VaultSt) : (updVault m f).free = m.free := rfl
@[simp] theorem updVault_fresh (m : Chip) (f : VaultSt → VaultSt) : (updVault m f).fresh = m.fresh := rfl
@[simp] theorem updVault_late (m : Chip) (f : VaultSt → VaultSt) : (updVault m f).late = m.late := rfl
@[simp] theorem updVault_out (m : Chip) (f : VaultSt → VaultSt) : (updVault m f).out = m.out := rfl
@[simp] theorem updVault_ledger (m : Chip) (f : VaultSt → VaultSt) : (updVault m f).ledger = m.ledger := rfl
@[simp] theorem updVault_safe (m : Chip) (f : VaultSt → VaultSt) : (updVault m f).safe = m.safe := rfl
@[simp] theorem updVault_brg (m : Chip) (f : VaultSt → VaultSt) : (updVault m f).brg = m.brg := rfl
@[simp] theorem updVault_ports (m : Chip) (f : VaultSt → VaultSt) : (updVault m f).ports = m.ports := rfl
@[simp] theorem updVault_prs (m : Chip) (f : VaultSt → VaultSt) : (updVault m f).prs = m.prs := rfl
@[simp] theorem updVault_tm (m : Chip) (f : VaultSt → VaultSt) : (updVault m f).tm = m.tm := rfl
@[simp] theorem updVault_msix (m : Chip) (f : VaultSt → VaultSt) : (updVault m f).msix = m.msix := rfl
@[simp] theorem updVault_pba (m : Chip) (f : VaultSt → VaultSt) : (updVault m f).pba = m.pba := rfl
@[simp] theorem updVault_time (m : Chip) (f : VaultSt → VaultSt) : (updVault m f).time = m.time := rfl
@[simp] theorem updVault_gates (m : Chip) (f : VaultSt → VaultSt) : (updVault m f).gates = m.gates := rfl
@[simp] theorem updVault_rcvy (m : Chip) (f : VaultSt → VaultSt) : (updVault m f).rcvy = m.rcvy := rfl
@[simp] theorem updVault_pwr (m : Chip) (f : VaultSt → VaultSt) : (updVault m f).pwr = m.pwr := rfl
@[simp] theorem updVault_cfg (m : Chip) (f : VaultSt → VaultSt) : (updVault m f).cfg = m.cfg := rfl
@[simp] theorem updVault_pair (m : Chip) (f : VaultSt → VaultSt) : (updVault m f).pair = m.pair := rfl
@[simp] theorem updVault_dma (m : Chip) (f : VaultSt → VaultSt) : (updVault m f).dma = m.dma := rfl
@[simp] theorem updVault_mint (m : Chip) (f : VaultSt → VaultSt) : (updVault m f).mint = m.mint := rfl
@[simp] theorem updVault_vault (m : Chip) (f : VaultSt → VaultSt) : (updVault m f).vault = f m.vault := rfl
@[simp] theorem updVault_life (m : Chip) (f : VaultSt → VaultSt) : (updVault m f).life = m.life := rfl
@[simp] theorem updVault_cl (m : Chip) (f : VaultSt → VaultSt) : (updVault m f).cl = m.cl := rfl
@[simp] theorem updVault_sge (m : Chip) (f : VaultSt → VaultSt) : (updVault m f).sge = m.sge := rfl
@[simp] theorem updVault_triad (m : Chip) (f : VaultSt → VaultSt) : (updVault m f).triad = m.triad := rfl
@[simp] theorem updVault_otp (m : Chip) (f : VaultSt → VaultSt) : (updVault m f).otp = m.otp := rfl
@[simp] theorem updVault_service (m : Chip) (f : VaultSt → VaultSt) : (updVault m f).service = m.service := rfl
/-! ### The frame of a command -/

@[simp] theorem done_lt (s : State) (t : Nat) (m : Chip) : (s.done t m).lt = s.when_ t := rfl
@[simp] theorem done_pending (s : State) (t : Nat) (m : Chip) : (s.done t m).pending = s.pending := rfl
@[simp] theorem done_chip (s : State) (t : Nat) (m : Chip) : (s.done t m).chip = idleTrack (s.when_ t) (msixRise s.chip m) := rfl

/-- Everything that `State.run` can do: it always answers the next state, at the LT of the command and with the queue as it was. -/
theorem run_next (s : State) (t : Nat) (f : Nat → Chip → Chip) : s.run t f = .next (s.done t (f (s.when_ t) (s.found t))) := rfl

/-- Everything that `State.core` can do: the effect while CORE runs, time passing otherwise. -/
theorem core_next (s : State) (t : Nat) (f : Nat → Chip → Chip) :
    s.core t f = .next (s.done t (if coreOn (s.found t) then f (s.when_ t) (s.found t) else s.found t)) := rfl

theorem core_on (s : State) (t : Nat) (f : Nat → Chip → Chip) (h : coreOn (s.found t) = true) :
    s.core t f = .next (s.done t (f (s.when_ t) (s.found t))) := by simp [core_next, h]

theorem core_off (s : State) (t : Nat) (f : Nat → Chip → Chip) (h : coreOn (s.found t) = false) :
    s.core t f = .next (s.done t (s.found t)) := by simp [core_next, h]

/-- Everything that an access can do: its effect at the LT at which BRG accepts it, on the device that BRG has taken it on. -/
theorem access_next (s : State) (t who a : Nat) (wr posted : Bool) (f : Nat → Chip → Chip) :
    s.access t who a wr posted f =
      s.core (s.accept t who a wr) fun now m => f now (brgTake (canSettle m now) now who a posted) := rfl

/-- Everything that a CAN command can do. -/
theorem can_next (s : State) (t : Nat) (f : Nat → Chip → Chip) :
    s.can t f = .next (s.done t (if canOn (s.found t) then f (s.when_ t) (canSettle (s.found t) (s.when_ t)) else s.found t)) := rfl

/-! ### The LT of a command (R14, R33, R612, R840) -/

/-- Ledger time does not move back. -/
theorem le_when (s : State) (t : Nat) : s.lt ≤ s.when_ t := by
  unfold State.when_
  split
  · exact Nat.le_refl _
  · split
    · exact Nat.le_add_right _ _
    · split
      · omega
      · exact Nat.le_add_right _ _

/-- While FCLK runs, a command happens in the cycle of its LT, or in the present one. -/
theorem when_cycle (s : State) (t : Nat) (h : s.chip.pwr.fclk = true) : t < s.when_ t + cyc := by
  unfold State.when_ cyc
  simp only [h, if_true]
  split <;> omega

/-- A read or a write is accepted at its LT or later. -/
theorem le_accept (s : State) (t who a : Nat) (wr : Bool) : t ≤ s.accept t who a wr := by
  have fold : ∀ (l : List (Nat × Nat)) (x : Nat), x ≤ l.foldl (fun a y => max a y.2) x := by
    intro l
    induction l with
    | nil => exact fun x => Nat.le_refl x
    | cons y r ih => exact fun x => Nat.le_trans (Nat.le_max_left x y.2) (ih _)
  unfold State.accept
  split
  · exact Nat.le_refl _
  · simp only
    split
    · exact Nat.le_trans (Nat.le_max_left _ _) (fold _ _)
    · split
      · exact Nat.le_trans (Nat.le_max_left _ _) (Nat.le_max_left _ _)
      · exact Nat.le_max_left _ _

/-- A command whose LT has passed finds the device as it is, while CORE runs. -/
theorem found_now (s : State) (t : Nat) (h : t ≤ s.lt) (hc : coreOn s.chip = true) : s.found t = s.chip := by
  have hw : s.when_ t = s.lt := by simp [State.when_, h]
  simp [State.found, hw, hc, passFuel, pass]

/-! ### What an access leaves of the device -/

@[simp] theorem brgTake_regs (m : Chip) (now who a : Nat) (p : Bool) : (brgTake m now who a p).regs = m.regs := by
  unfold brgTake; split <;> rfl

@[simp] theorem monClear_regs (m : Chip) (a : Nat) : (monClear m a).regs = m.regs := rfl

/-- A write that changes no field that is read only after commit is judged by its data (R12). -/
theorem judged_open (r : RegRow) (old data : Nat) : dataJudged false r old data = data := rfl

end Sys2Proof.Machine
end

