-- ==== Sys2Proof/Laws/Vault.lean ====
section
/-! SUPPORT. What the Vault holds in scrambled form reads as what was put in: keys in two shares (R417), rows of the OTP array under their
mask (R416). -/

namespace Sys2Proof.Machine

@[simp] theorem leBytes_length (n v : Nat) : (leBytes n v).length = n := by
  induction n generalizing v with
  | zero => rfl
  | succ n ih => simp [leBytes, ih]

/-- XOR with the same bytes undoes XOR. -/
theorem xorBytes_xorBytes (a b : List Byte) (h : a.length = b.length) : xorBytes (xorBytes a b) b = a := by
  unfold xorBytes
  induction a generalizing b with
  | nil => rfl
  | cons x r ih =>
    cases b with
    | nil => simp at h
    | cons y q => simp [ih q (by simpa using h)]

theorem xorBytes_comm (a b : List Byte) : xorBytes a b = xorBytes b a := by
  unfold xorBytes
  induction a generalizing b with
  | nil => simp
  | cons x r ih =>
    cases b with
    | nil => rfl
    | cons y q => simp [ih q, BitVec.xor_comm]

theorem xorBytes_length (a b : List Byte) (h : a.length = b.length) : (xorBytes a b).length = a.length := by simp [xorBytes, h]

/-- The two shares give the key back, whatever random value the first one is. -/
@[simp] theorem key_sharesOf (pol : Nat) (key : List Byte) (tag rnd : Nat) : (sharesOf pol key tag rnd).key = key := by
  unfold KeySlot.key sharesOf
  rw [xorBytes_comm]
  exact xorBytes_xorBytes _ _ (by simp)

/-- A key that was loaded into a slot is the slot's key. -/
theorem slotOf_setSlot (m : Chip) (s pol : Nat) (key : List Byte) (tag : Nat) :
    slotOf (setSlot m s pol key tag) s = some (sharesOf pol key tag (freeVal m)) := sget_sput_same _ _ _

/-- Re-randomising changes the shares and not the key. -/
theorem key_reshare (m : Chip) (s : Nat) : ((slotOf (reshare m s) s).map (·.key)) = ((slotOf m s).map (·.key)) := by
  unfold reshare
  cases h : slotOf m s with
  | none => simp [h]
  | some k => simp [slotOf_setSlot]

/-- A row reads as it was programmed, wherever it lies and whatever its mask is. -/
theorem rowOf_setRow (m : Chip) (i : Nat) (l : List Byte) : rowOf (setRow m i l) i = some l := by
  unfold rowOf setRow
  simp only [updVault, sget_sput_same, Option.map_some]
  unfold fmsXor
  rw [xorBytes_length _ _ (by simp)]
  simp [xorBytes_xorBytes]

end Sys2Proof.Machine
end

