-- ==== Sys2Proof/Tests/Slice0.lean ====
section
/-! SUPPORT. Tests: a command that each check of `Instr.wf` refuses, worked examples of the spec, and for every statement with hypotheses
a concrete device and operands that meet all of them together (its expected results come from the spec, never from a run). -/

namespace Sys2Proof.Machine

section

set_option Elab.async false

/-! ### Small states -/

/-- A state at LT `n` with the device `m` and no command waiting. -/
def at_ (n : Nat) (m : Chip) : State := { lt := n, chip := m, pending := [] }

/-- The device after reset. -/
abbrev r0 : Chip := State.reset.chip

/-- The device after reset with some registers set. -/
def rg (l : List (Nat × Nat)) : Chip := l.foldl (fun m p => wrN m p.1 p.2) r0

/-- The same with one frame held, or with a frame and a copy of it. -/
def held (f : Frame) : Chip := updTm r0 fun x => { x with frames := [f] }
def cut (f : Frame) (c : Copy) : Chip := updTm r0 fun x => { x with frames := [f], copies := [c] }

def aFrame : Frame :=
  { id := 1, port := 0, stamp := 0, t0 := 0, bytes := [], len := 64, tailAt := some 0, fcsOk := false, tooLong := false, secured := false }

def aCopy : Copy :=
  { fid := 1, port := 0, tc := 0, inPort := 0, stamp := 0, len := 0, charge := 0, cut := false, multi := false, mirror := false, mark := false, tag := 0,
    st := .sending }

def aFlow : CtEnt :=
  { oSrc := 0, oDst := 0, oSport := 0, oDport := 0, proto := 17, v6 := false, finByResp := false, state := 8, oZone := 1, rZone := 1, lastSeen := 0,
    created := 0, fOrig := 0, fResp := 0 }

def aRcvy : RcvySt := { seq := 0, takeAny := false, hist := 0, last := 0 }

def aDec : LaneDec := { lane := 0, fid := 1, bucket := 0, s0 := 0, ecc := none, ctEcc := none, fault := false }

def aJob : CJob := { ring := 0, idx := 0, desc := [], blk := [], key := [], iv := none, core := some 0, since := 0 }

def aKey : KeySlot := sharesOf 0x1FFF0000 [] 0 0

def aMsg : CMsg := { ident := 0, fmt := 0, tag := 0, data := [], ring := none }

def aWork : DmaWork := { ring := 0, idx := 0, n := 1, desc := [], pos := 65536 }

def anExport : ExportBuf := { desc := 0, addr := 0, cap := 1, count := 1, firstLt := 0, partner := false, firstSeq := 0, lastSeq := 0, seqs := [] }

def aPend : CfgPend := { rollback := false, atEn := false, cycle := 0, notBefore := 0, due := true }

def aPwe : PweEnt := { lt := 0, addr := 0, data := 0, who := 2, code := 1, seq := 0 }

def anErr : SafeEnt := ⟨0, 0, 0, 1, 0, false⟩

/-! ### How the commands of a witness find such a state: LT 0 of the command has passed -/

theorem when_at {n : Nat} {m : Chip} : (at_ n m).when_ 0 = n := if_pos (Nat.zero_le n)

theorem finds {n : Nat} {m : Chip} (h : coreOn m = true) : Finds (at_ n m) 0 m n := ⟨⟨found_now _ _ (Nat.zero_le n) h, when_at⟩, h⟩

theorem findsAny {n : Nat} {m : Chip} : FindsAny (at_ n m) 0 ((at_ n m).found 0) n := ⟨rfl, when_at⟩

theorem findsCan {n : Nat} {m : Chip} (h : coreOn m = true) (hc : canOn m = true) : FindsCan (at_ n m) 0 (canSettle m n) n := by
  have hf : (at_ n m).found 0 = m := found_now _ _ (Nat.zero_le n) h
  exact ⟨when_at, by rw [hf]; exact hc, by rw [hf]⟩

/-- The device as BRG has taken an access on it, and as a write finds it. -/
def took (n : Nat) (c : Chip) (who a : Nat) (p : Bool) : Chip := brgTake (canSettle c n) n who a p
def seen (n : Nat) (c : Chip) (who a : Nat) : Chip := monClear (took n c who a (isPosted c who)) a

theorem accepts {n who a : Nat} {c : Chip} {wr p : Bool} (h : (coreOn c && (at_ n c).accept 0 who a wr == 0) = true) :
    Accepts (at_ n c) 0 who a wr p 0 (took n c who a p) n := by
  have hc := (Bool.and_eq_true_iff.mp h).1
  have ha := eq_of_beq (Bool.and_eq_true_iff.mp h).2
  have hf : (at_ n c).found 0 = c := found_now _ _ (Nat.zero_le n) hc
  exact ⟨ha, when_at, by rw [hf]; exact hc, by rw [hf]; rfl⟩

theorem reaches {n who a : Nat} {c : Chip} {x : Reach}
    (h : ((coreOn c && (at_ n c).accept 0 who a true == 0) && carries (seen n c who a) who a x) = true) :
    Reaches (at_ n c) 0 0 (seen n c who a) n who a x :=
  have h := Bool.and_eq_true_iff.mp h
  ⟨_, accepts h.1, rfl, h.2⟩

theorem writes {n who a d : Nat} {c : Chip}
    (h : ((coreOn c && (at_ n c).accept 0 who a true == 0) && taken (seen n c who a) n who a d) = true) :
    Writes (at_ n c) 0 0 (seen n c who a) n who a d :=
  have h := Bool.and_eq_true_iff.mp h
  ⟨_, accepts h.1, rfl, h.2⟩

theorem row_set {m : Chip} {i : Nat} {l : List Byte} : (rowOf (setRow m i l) i).isSome = true := by rw [rowOf_setRow]; rfl

/-- The row of a register and what stands beside it. -/
def regAt (a : Nat) : Blk × RegRow × List Nat :=
  (regRow a).getD (.glb, ⟨"", 0, [], 0, 0, 0, 0, 0, .stored, [], []⟩, [])

/-! ### Well-formed commands -/

theorem test_wf_register_write : Instr.wf (.registerWrite 0 2 0x40000000 0) = true := by decide

theorem test_wf_speed_word : Instr.wf (.usxgmiiSpeedWord 0 0 65536) = false := by decide

theorem test_wf_link_word : Instr.wf (.linkUp 0 0 65536 0) = false := by decide

theorem test_wf_empty_frame : Instr.wf (.frameReceive 0 0 [] true [] [] false 0) = false := by decide

theorem test_wf_scrub_index : Instr.wf (.tableScrub 0 8 64) = false := by decide

theorem test_wf_cipher_descriptor : Instr.wf (.cipherJobStart 0 [] [] [] [] true true) = false := by decide

theorem test_wf_can_descriptor : Instr.wf (.canTxEnqueue 0 0 [] [] true) = false := by decide

theorem test_wf_can_standard_identifier :
    Instr.wf (.canFrameReceived 0 0 2048 false false 0 false false 0 0 0 [] 0 0) = false := by decide

theorem test_wf_pn_standard_identifier : Instr.wf (.canPnWake 0 0 0 2048 false 0 [] 0 0) = false := by decide

theorem test_wf_pn_data : Instr.wf (.canPnWake 0 0 0 0 false 0 [0, 1, 2, 3, 4, 5, 6, 7, 8] 0 0) = false := by decide

theorem test_wf_lin_data : Instr.wf (.linFrameReceived 0 0 ([0, 1, 2, 3, 4, 5, 6, 7, 8], 0) 0 0) = false := by decide

theorem test_wf_bar2_empty : Instr.wf (.bar2Write 0 0 0 []) = false := by decide

theorem test_wf_bar2_end : Instr.wf (.bar2Write 0 0 0x3FFFFFF [0, 1]) = false := by decide

theorem test_wf_bar0_end : Instr.wf (.bar0PartialWrite 0 0 0x2000000) = false := by decide

theorem test_wf_posted_address : Instr.wf (.postedWriteError 0 2 0x40000002 0 0) = false := by decide

theorem test_wf_timeout_address : Instr.wf (.targetTimeout 0 2 0x42000000 0 true 0) = false := by decide

theorem test_wf_exclusive_address : Instr.wf (.exclusive64Access 0 0 0x100000000) = false := by decide

theorem test_wf_report_info : Instr.wf (.safeErrorReport 0 0 0 0 0x100000000) = false := by decide

/-! ### Worked examples of the spec -/

/-- The example after R240: with 8,192 cells free and `alpha_k` = -1 the limit is 4,096, and with 8,181 free it is 4,090. -/
theorem test_alpha_limit : alphaLimit 8192 15 = 4096 ∧ alphaLimit 8181 15 = 4090 := by decide

/-- The example after R700: from 600 mV in steps of 5 mV, 742 mV takes code 29. -/
theorem test_voltage_code : vCode (rg [(A.PWR_PMIC_VMAP, 600 + 50 * 2 ^ 16)]) 742 = 29 := by decide +kernel

/-- The example of 20_address_map.md: vector 79 of a host function has its entry at BAR0 offset 0x27_04F0. -/
theorem test_vector_entry : (regRow (0x40000000 + 0x2704F0)).map (fun x => (x.1, x.2.1.off)) = some (.hif, 0x70000) := by decide +kernel

/-- R12, on PAIR_CFG: the reset value is 0x8000, and a taken write leaves the data. -/
theorem test_register_write : rdN r0 A.PAIR_CFG = 0x8000 ∧ rdN (stored r0 A.PAIR_CFG 0x8001) A.PAIR_CFG = 0x8001 := by decide +kernel

/-- The catalogue's check value of CRC-32C over the digits 1 to 9, from the initial value of all ones. -/
theorem test_crc32c : crc32c 0xFFFFFFFF [0x31, 0x32, 0x33, 0x34, 0x35, 0x36, 0x37, 0x38, 0x39] = 0xE3069283 := by decide +kernel

/-! ### Witnesses of the general statements -/

/-- The device with a configuration activated. -/
def live (m : Chip) : Chip := updCfg m fun x => { x with bank := [.active, .empty] }

/-- The device with CORE off. -/
def dark : Chip := updPwr r0 fun x => { x with mode := .deep, fclk := false }

theorem witness_EmptyQueuePassesOneCycle :
    (∃ s : State, s.pending = [] ∧ coreOn (s.found s.nextLt) = true ∧ s.chip.pwr.fclk = true) ∧
    (∃ s : State, s.pending = [] ∧ coreOn (s.found s.nextLt) = false) ∧
    (∃ s : State, s.pending = [] ∧ s.chip.pwr.fclk = false ∧ s.chip.pwr.mode ≠ .off) :=
  ⟨⟨at_ 0 r0, rfl, by decide +kernel⟩, ⟨at_ 0 dark, rfl, by decide +kernel⟩, ⟨at_ 0 dark, rfl, by decide +kernel⟩⟩

theorem idle_step (s : State) (h : s.pending = []) : ∃ u, step s = .next u := by
  unfold step; rw [h]; simp only; exact ⟨_, rfl⟩

theorem witness_EveryCommandCompletes : ∃ s : State, s.chip.pwr.fclk = true := ⟨at_ 0 r0, by decide +kernel⟩

theorem witness_LedgerTimeNeverMovesBack : ∃ (x : Nat) (s u : State), x ≤ s.lt ∧ step s = .next u := by
  obtain ⟨u, hu⟩ := idle_step (at_ 5 r0) rfl
  exact ⟨5, at_ 5 r0, u, Nat.le_refl _, hu⟩

theorem witness_IdleTimeFollowsWork : ∃ s u : State, step s = .next u := by
  obtain ⟨u, hu⟩ := idle_step (at_ 5 r0) rfl
  exact ⟨at_ 5 r0, u, hu⟩

theorem witness_CoreOffLeavesDevice :
    ∃ (c : Instr) (s : State), outsideCore c = false ∧ coreOn s.chip = false :=
  ⟨.registerWrite 0 2 0x40000000 0, at_ 0 dark, rfl, by decide +kernel⟩

theorem witness_TimeAloneChangesNothing :
    ∃ s : State, s.chip.tm.frames = [] ∧ s.chip.tm.copies = [] ∧ s.chip.tm.sch ≠ [] ∧ (∀ x ∈ s.chip.tm.sch, x.shapers = [] ∧ x.purse = none) ∧
      (∀ l ∈ s.chip.prs.lanes, l.fifo = [] ∧ l.pipe = []) ∧ s.chip.prs.dec = [] ∧ s.chip.tm.adm = [] ∧ s.chip.sge.dueNow = [] ∧
      s.chip.late = [] ∧ s.chip.cfg.pend = none ∧ s.chip.fresh = [] ∧ s.chip.pwr.fclk = true :=
  ⟨at_ 0 (updTm r0 fun x => { x with sch := [{}] }), by decide +kernel⟩

theorem witness_RegisterFileHoldsWhatIsWritten :
    ∃ (m : Chip) (a b : Nat), b ≠ a ∧ m.regs ≠ [] ∧ rising m.regs = true ∧ (m.regs.all fun p => p.2 != resetWord p.1) = true :=
  ⟨rg [(A.TIME_CFG, 2), (A.PAIR_CFG, 1)], A.TIME_CFG, A.PAIR_CFG, by decide +kernel⟩

theorem witness_SramHoldsWhatIsStored :
    ∃ (m : Chip) (a x y : Nat) (l : List Byte), sramBase ≤ a ∧ a + l.length ≤ sramBase + sramSize ∧ x < a ∧ a + l.length ≤ y ∧
      Memory.wf m.dma.sram = true ∧ m.dma.sram ≠ [] :=
  ⟨memStore r0 2 sramBase [1, 2], sramBase + sramSize - 2, sramBase, sramBase + sramSize, [3, 4], by decide +kernel⟩

theorem witness_Bar2WriteStoresItsBytes :
    ∃ (m : Chip) (f : Fin 2) (off x y : Nat) (l : List Byte), Finds (at_ 0 m) 0 m 0 ∧ fnUp m f = true ∧ off + l.length ≤ sramSize ∧
      flag m A.HIF_BAR2_CFG f = true ∧ x < sramBase + off ∧ sramBase + off + l.length ≤ y :=
  ⟨rg [(A.HIF_LINK_STATUS, 2), (A.HIF_BAR2_CFG, 3)], 1, sramSize - 1, 0, sramBase + sramSize, [7], finds (by decide +kernel), by decide +kernel⟩

/-- A write of a word that BRG has accepted finds the device at `m`. -/
def Lands (m : Chip) (who a : Nat) : Prop :=
  ∃ (s : State) (m0 : Chip), Accepts s 0 who a true (isPosted s.chip who) 0 m0 0 ∧ monClear m0 a = m

theorem lands {who a : Nat} {c : Chip} (h : (coreOn c && (at_ 0 c).accept 0 who a true == 0) = true) : Lands (seen 0 c who a) who a :=
  ⟨_, _, accepts h, rfl⟩

/-- One witness for each way that a write of a register can go. -/
theorem witness_RegisterWriteCompletes :
    (∃ (m : Chip) (a : Nat) (d : Word), Lands m 2 a ∧ carries m 2 a .ok = true ∧ regRow a = some (regAt a) ∧ fieldRow (regAt a).1 (regAt a).2.1 = true ∧
      rwlBroken m (regAt a).2.1 a d.toNat = false ∧
      allowed m 0 2 (regAt a).1 (regAt a).2.1 a d.toNat = true ∧
      4 < (regAt a).2.1.off ∧
      inForceLater a = false) ∧
    (∃ (m : Chip) (a : Nat) (d : Word), Lands m 2 a ∧ carries m 2 a .ok = true ∧ regRow a = some (regAt a) ∧ fieldRow (regAt a).1 (regAt a).2.1 = true ∧
      rwlBroken m (regAt a).2.1 a d.toNat = false ∧
      allowed m 0 2 (regAt a).1 (regAt a).2.1 a d.toNat = true ∧
      4 < (regAt a).2.1.off ∧
      inForceLater a = true) ∧
    (∃ (m : Chip) (a : Nat) (d : Word), Lands m 2 a ∧ carries m 2 a .ok = true ∧ regRow a = some (regAt a) ∧ fieldRow (regAt a).1 (regAt a).2.1 = true ∧
      (blockFirst (regAt a).1 a (judged m (regAt a).2.1 a d.toNat)).isSome = true) ∧
    (∃ (m : Chip) (a : Nat) (d : Word), Lands m 2 a ∧ carries m 2 a .ok = true ∧ regRow a = some (regAt a) ∧ fieldRow (regAt a).1 (regAt a).2.1 = true ∧
      blockFirst (regAt a).1 a (judged m (regAt a).2.1 a d.toNat) = none ∧
      rangeCause (committed m) (regAt a).2.1 (oldWord m a) d.toNat = some 3) ∧
    (∃ (m : Chip) (a : Nat) (d : Word), Lands m 6 a ∧ carries m 6 a .ok = true ∧ regRow a = some (regAt a) ∧ fieldRow (regAt a).1 (regAt a).2.1 = true ∧
      blockFirst (regAt a).1 a (judged m (regAt a).2.1 a d.toNat) = none ∧
      rangeCause (committed m) (regAt a).2.1 (oldWord m a) d.toNat = none ∧
      blockCheck m 0 6 (regAt a).1 a (oldWord m a) (newWord m a d.toNat) (judged m (regAt a).2.1 a d.toNat) = 4) ∧
    (∃ (m : Chip) (a : Nat) (d : Word), Lands m 2 a ∧ carries m 2 a .ok = true ∧ regRow a = some (regAt a) ∧ fieldRow (regAt a).1 (regAt a).2.1 = true ∧
      rwlBroken m (regAt a).2.1 a d.toNat = true ∧
      allowed m 0 2 (regAt a).1 (regAt a).2.1 a d.toNat = true ∧
      inForceLater a = false) ∧
    (∃ (m : Chip) (a : Nat) (d : Word), Lands m 2 a ∧ carries m 2 a .ok = true ∧ regRow a = some (regAt a) ∧ fieldRow (regAt a).1 (regAt a).2.1 = true ∧
      rwlBroken m (regAt a).2.1 a d.toNat = true ∧
      allowed m 0 2 (regAt a).1 (regAt a).2.1 a d.toNat = true ∧
      inForceLater a = true) ∧
    (∃ (m : Chip) (a : Nat) (d : Word), Lands m 2 a ∧ carries m 2 a .ok = true ∧ regRow a = some (regAt a) ∧ fieldRow (regAt a).1 (regAt a).2.1 = true ∧
      rwlBroken m (regAt a).2.1 a d.toNat = false ∧
      allowed m 0 2 (regAt a).1 (regAt a).2.1 a d.toNat = true ∧
      (regAt a).2.1.off ≤ 4 ∧ inForceLater a = false) ∧
    (∃ (m : Chip) (a : Nat), Lands m 2 a ∧ carries m 2 a .ok = true ∧ regRow a = some (regAt a) ∧
      ((regAt a).1 == .hif && (regAt a).2.1.off == 0x70000) = false ∧ ((regAt a).1 == .safe && (regAt a).2.1.off == 0x40000) = false ∧
      (regAt a).2.1.kind ≠ .stored ∧ (regAt a).2.1.kind ≠ .writeOnly) ∧
    (∃ (m : Chip) (a : Nat), Lands m 2 a ∧ carries m 2 a .ok = true ∧ regRow a = none) ∧
    (∃ (m : Chip) (a n : Nat), Lands m 2 a ∧ carries m 2 a (.held n) = true) ∧
    (∃ (m : Chip) (a : Nat), Lands m 2 a ∧ carries m 2 a (.err 2) = true) :=
  ⟨⟨seen 0 (r0) 2 _, A.PAIR_CFG, 0x8001, lands (by decide +kernel), by decide +kernel⟩,
   ⟨seen 0 (r0) 2 _, A.PRS_LANE_CFG, 0x10A, lands (by decide +kernel), by decide +kernel⟩,
   ⟨seen 0 (r0) 2 _, A.MAC_PPLCA_CFG 0, 33 * 256, lands (by decide +kernel), by decide +kernel⟩,
   ⟨seen 0 (r0) 2 _, A.LEDGER_CFG, 0, lands (by decide +kernel), by decide +kernel⟩,
   ⟨seen 0 (r0) 6 _, A.SAFE_EC_ACK, 1, lands (by decide +kernel), by decide +kernel⟩,
   ⟨seen 0 (live r0) 2 _, Blk.base .prs + 0x30100, 0x44444440, lands (by decide +kernel), by decide +kernel⟩,
   ⟨seen 0 (live r0) 2 _, 0x40420004, 1, lands (by decide +kernel), by decide +kernel⟩,
   ⟨seen 0 (live r0) 2 _, irqEnable .time, 1, lands (by decide +kernel), by decide +kernel⟩,
   ⟨seen 0 (r0) 2 _, A.GATE_RCVY1 0, lands (by decide +kernel), by decide +kernel⟩,
   ⟨seen 0 (r0) 2 _, 0x400FFFF0, lands (by decide +kernel), by decide +kernel⟩,
   ⟨seen 0 (updPwr r0 fun x => { x with on := 0 }) 2 _, A.MAC_PCFG 8, 8, lands (by decide +kernel), by decide +kernel⟩,
   ⟨seen 0 (updPwr r0 fun x => { x with on := 0 }) 2 _, 0x40C00000, lands (by decide +kernel), by decide +kernel⟩⟩

theorem witness_RwlFieldsStayAfterCommit :
    ∃ (r : RegRow) (i j : Nat), Nat.testBit r.w1c i = false ∧ Nat.testBit r.w1s i = false ∧ Nat.testBit r.rw i = true ∧
      Nat.testBit r.w1c j = false ∧ Nat.testBit r.w1s j = false ∧ Nat.testBit r.rw j = false ∧ Nat.testBit r.rwl j = true :=
  ⟨{ (regAt A.TIME_CFG).2.1 with rw := 1, rwl := 2 }, 0, 1, by decide +kernel⟩

theorem witness_FirstRejectedAccessIsKept :
    (∃ (m : Chip) (b : Blk) (off cause : Nat), flag m (errCapture b) 31 = false ∧ b ≠ .hif ∧ off < 2 ^ 21 ∧ cause < 16) ∧
    (∃ (m : Chip) (b : Blk) (off cause : Nat), flag m (errCapture b) 31 = false ∧ b = .hif ∧ off < 2 ^ 26 ∧ cause < 16) ∧
    (∃ (m : Chip) (b : Blk), flag m (errCapture b) 31 = true) ∧ (∃ d : Nat, bit d 0 = true) ∧ (∃ d : Nat, bit d 0 = false) :=
  ⟨⟨r0, .time, 2 ^ 21 - 1, 15, by decide +kernel⟩, ⟨r0, .hif, 2 ^ 26 - 1, 15, by decide +kernel⟩, ⟨rg [(errCapture .time, 2 ^ 31)], .time, by decide +kernel⟩,
   ⟨1, rfl⟩, ⟨2, rfl⟩⟩

theorem witness_ShadowIsOfTheInitiator :
    ∃ a grp who1 : Nat, regRow a = some (regAt a) ∧ wordPart (regAt a).1 (regAt a).2.1 (regAt a).2.2 = some false ∧
      regRow (a + 4) = some (regAt (a + 4)) ∧ wordPart (regAt a).1 (regAt (a + 4)).2.1 (regAt (a + 4)).2.2 = some true ∧
      (regAt (a + 4)).1 = (regAt a).1 ∧ who1 < 8 ∧ (grp, who1) ≠ (shadowGroup (regAt a).1 a, 7) :=
  ⟨Blk.base .time + 0x30, 0, 6, by decide +kernel⟩

theorem witness_InterruptSummaryShowsBlocks :
    ∃ (m : Chip) (b : Blk), b.ownMask = 0 ∧ b ≠ .safe ∧ irqLevel m b ≠ 0 ∧ flag m (irqRoute 1) b.irqBit = true :=
  ⟨rg [(irqStatus .time, 1), (irqEnable .time, 1), (irqRoute 1, 2 ^ 8)], .time, by decide +kernel⟩

theorem witness_RisenInterruptsAreSent :
    ∃ (m0 m m1 : Chip) (b : Blk), irqTo m 1 b = true ∧ irqTo m0 1 b = false ∧ msixMasked m 1 (64 + b.irqBit) = true ∧
      irqTo m1 1 b = true ∧ msixMasked m1 1 (64 + b.irqBit) = false :=
  ⟨r0, rg [(irqStatus .time, 1), (irqEnable .time, 1), (irqRoute 1, 2 ^ 8)],
   { rg [(irqStatus .time, 1), (irqEnable .time, 1), (irqRoute 1, 2 ^ 8)] with msix := sput [] (1024 + 72 * 4 + 3) 0 }, .time, by decide +kernel⟩

/-- A device with `n` errors waiting. -/
def errs (n : Nat) : Chip := updSafe r0 fun x => { x with q := List.replicate n anErr }

theorem witness_CollectorKeepsItsHead :
    (∃ (m : Chip) (h : SafeEnt) (r : List SafeEnt), m.safe.q = h :: r ∧ m.safe.q.length = 63) ∧ (∃ m : Chip, m.safe.q.length = 64) :=
  ⟨⟨errs 63, anErr, List.replicate 62 anErr, by decide +kernel⟩, ⟨errs 64, by decide +kernel⟩⟩

theorem witness_FullCollectorLosesReports :
    (∃ (s : State) (m : Chip) (sev : Fin 4), Finds s 0 m 0 ∧ 64 ≤ m.safe.q.length ∧ sev ≠ 0) ∧
    (∃ (s : State) (m : Chip) (who : Fin 8), Writes s 0 0 m 0 who A.SAFE_EC_OVF_CLR 1) :=
  ⟨⟨at_ 0 (errs 64), _, 3, finds (by decide +kernel), by decide +kernel⟩, ⟨at_ 0 (errs 63), seen 0 _ _ _, 6, writes (by decide +kernel)⟩⟩

/-- A device with `n` events waiting. -/
def evts (n : Nat) : Chip := updLedger r0 fun x => { x with evtQ := List.replicate n ⟨1, 0, 0, []⟩ }

theorem witness_EventQueueHolds256Records :
    (∃ m : Chip, m.ledger.evtQ.length = 255) ∧ (∃ m : Chip, m.ledger.evtQ.length = 256) :=
  ⟨⟨evts 255, by decide +kernel⟩, ⟨evts 256, by decide +kernel⟩⟩

theorem witness_FaultTakesTheToken :
    (∃ m : Chip, m.safe.fault = false ∧ m.pair.active = true) ∧ (∃ m : Chip, m.safe.fault = true) :=
  ⟨⟨updPair (updSafe r0 fun x => { x with fault := false }) fun x => { x with active := true }, by decide +kernel⟩, ⟨r0, by decide +kernel⟩⟩

/-! ### Witnesses of the commands' statements -/

theorem witness_Link :
    (∃ (s : State) (m : Chip) (p : Fin 8) (code : Nat), Finds s 0 m 0 ∧ isB p = true ∧ laneMode m p = 3 ∧ portEn m p = true ∧
      (code = 1 ∨ code = 2)) ∧
    (∃ (s : State) (m : Chip) (p : Fin 8) (code : Nat), Finds s 0 m 0 ∧ isB p = true ∧ laneMode m p = 3 ∧ portEn m p = true ∧ 3 ≤ code ∧
      code ≤ 6 ∧ linkOn m p = false) ∧
    (∃ (s : State) (m : Chip) (p : Fin 8) (code : Nat), Finds s 0 m 0 ∧ isB p = true ∧ laneMode m p = 3 ∧ portEn m p = true ∧ 3 ≤ code ∧
      code ≤ 6 ∧ linkOn m p = true ∧ speedOf m p ≠ code) ∧
    (∃ (s : State) (m : Chip) (p : Fin 8), Finds s 0 m 0 ∧ portEn m p = true ∧ laneMode m p = 2 ∧ linkOn m p = false ∧ (portOf m p).train
      = none ∧ (portOf m p).retrain = none) ∧
    (∃ (s : State) (m : Chip) (p : Fin 8) (t0 : Nat), Finds s 0 m (500 * ms) ∧ (portOf m p).train = some t0 ∧ t0 + 500 * ms ≤ (500 * ms)) ∧
    (∃ (s : State) (m : Chip) (p : Fin 8) (r : Nat), Finds s 0 m 0 ∧ (portOf m p).retrain = some r ∧ r ≤ 0) ∧
    (∃ (s : State) (m : Chip) (p : Fin 24), Finds s 0 m 0 ∧ p.val < 20) ∧
    (∃ (s : State) (m : Chip) (p : Fin 24) (loss : Nat), Finds s 0 m (1000 * ms) ∧ p.val < 20 ∧ loss + fld m (A.MAC_PLINK p) 0 16 * us ≤
      (1000 * ms)) :=
  ⟨⟨at_ 0 (rg [(A.MAC_PCFG 0, 0x31)]), _, 0, 1, finds (by decide +kernel), by decide +kernel⟩,
   ⟨at_ 0 (rg [(A.MAC_PCFG 0, 0x31)]), _, 0, 3, finds (by decide +kernel), by decide +kernel⟩,
   ⟨at_ 0 (rg [(A.MAC_PCFG 0, 0x31), (A.MAC_PSTATUS 0, 1)]), _, 0, 3, finds (by decide +kernel), by decide +kernel⟩,
   ⟨at_ 0 (rg [(A.MAC_PCFG 0, 0x21)]), _, 0, finds (by decide +kernel), by decide +kernel⟩,
   ⟨at_ (500 * ms) (updPort r0 0 fun x => { x with train := some 0 }), _, 0, 0, finds (by decide +kernel), by decide +kernel⟩,
   ⟨at_ 0 (updPort r0 0 fun x => { x with retrain := some 0 }), _, 0, 0, finds (by decide +kernel), by decide +kernel⟩,
   ⟨at_ 0 (rg [(A.MAC_PCFG 0, 1)]), _, 0, finds (by decide +kernel), by decide +kernel⟩,
   ⟨at_ (1000 * ms) r0, _, 0, 0, finds (by decide +kernel), by decide +kernel⟩⟩

theorem witness_EdgePort :
    (∃ (s : State) (m : Chip) (e : Fin 8), Finds s 0 m 0 ∧ (domOn m (phyDom (8 + e)) = true ∨ flag m (A.MAC_PT1_CFG (8 + e)) 2 = true)) ∧
    (∃ (s : State) (m : Chip) (e : Fin 8), Finds s 0 m 0 ∧ domOn m (phyDom (8 + e)) = true) ∧
    (∃ (s : State) (m : Chip) (e : Fin 8) (w : Nat), Finds s 0 m (4 * ms) ∧ (portOf m (8 + e)).warm = some w ∧ w + 4 * ms ≤ (4 * ms) ∧
      linkOn m (8 + e) = false) ∧
    (∃ (s : State) (m : Chip) (d : Fin 4), Finds s 0 m 0 ∧ plcaFollower m (16 + d) = true ∧ linkOn m (16 + d) = true ∧ flag m
      (A.MAC_PPLCA_STATUS (16 + d)) 0 = true) ∧
    (∃ (s : State) (m : Chip) (d : Fin 4), Finds s 0 m 0 ∧ plcaFollower m (16 + d) = true ∧ linkOn m (16 + d) = true) ∧
    (∃ (s : State) (m : Chip) (p : Fin 8) (k : Nat), Finds s 0 m 0 ∧ portEn m p = false ∧ flag m (A.MAC_PPRBS_CFG p) 4 = true ∧ k ≠ 0) :=
  ⟨⟨at_ 0 r0, _, 0, finds (by decide +kernel), by decide +kernel⟩,
   ⟨at_ 0 r0, _, 0, finds (by decide +kernel), by decide +kernel⟩,
   ⟨at_ (4 * ms) (updPort r0 8 fun x => { x with warm := some 0 }), _, 0, 0, finds (by decide +kernel), by decide +kernel⟩,
   ⟨at_ 0 (rg [(A.MAC_PPLCA_CFG 16, 3), (A.MAC_PSTATUS 16, 1), (A.MAC_PPLCA_STATUS 16, 1)]), _, 0, finds (by decide +kernel),
      by decide +kernel⟩,
   ⟨at_ 0 (rg [(A.MAC_PPLCA_CFG 16, 3), (A.MAC_PSTATUS 16, 1)]), _, 0, finds (by decide +kernel), by decide +kernel⟩,
   ⟨at_ 0 (rg [(A.MAC_PPRBS_CFG 0, 16)]), _, 0, 1, finds (by decide +kernel), by decide +kernel⟩⟩

theorem witness_Ingress :
    (∃ (s : State) (m : Chip) (p : Fin 20), Finds s 0 m 0 ∧ loopMode m p = 0) ∧
    (∃ (s : State) (m : Chip) (fid : Nat) (f : Frame), Finds s 0 m 0 ∧ frameOf m fid = some f ∧ f.phase = .arriving ∧ f.dead = false ∧
      (f.secured && (f.tooLong || !f.fcsOk)) = false) ∧
    (∃ (s : State) (m : Chip) (fid : Nat) (f : Frame), Finds s 0 m 0 ∧ frameOf m fid = some f ∧ f.phase = .headReady) ∧
    (∃ (s : State) (m : Chip) (l : Fin 4) (fid : Nat) (k : Nat) (a : Nat) (r : List (Nat × Nat × Nat)), Finds s 0 m 0 ∧ (laneOf m l).pipe
      = (fid, k, a) :: r) ∧
    (∃ (s : State) (m : Chip) (d : LaneDec), Finds s 0 m 0 ∧ m.prs.dec = [d]) ∧
    (∃ (s : State) (m : Chip) (fid : Nat) (f : Frame), Finds s 0 m 0 ∧ frameOf m fid = some f ∧ f.ended = false ∧ f.tailIn 0 = true ∧
      f.tooLong = false ∧ f.fcsOk = false) ∧
    (∃ (s : State) (m : Chip) (fid : Nat) (f : Frame), Finds s 0 m 0 ∧ frameOf m fid = some f ∧ f.ended = false ∧ f.tailIn 0 = true ∧
      f.tooLong = true) ∧
    (∃ (s : State) (m : Chip) (fid : Nat) (f : Frame), Finds s 0 m 0 ∧ frameOf m fid = some f ∧ f.ended = false ∧ f.tailIn 0 = true ∧
      f.tooLong = false ∧ f.fcsOk = true ∧ f.dead = false) ∧
    (∃ (s : State) (m : Chip) (fid : Nat) (p : Fin 20) (f : Frame) (c : Copy), Finds s 0 m 0 ∧ openCut m fid p = some (f, c) ∧ c.len ≤
      copySent m c 0 ∧ f.tailIn 0 = false) ∧
    (∃ (s : State) (m : Chip) (fid : Nat) (p : Fin 20) (got : Nat) (f : Frame) (c : Copy), Finds s 0 m 0 ∧ openCut m fid p = some (f, c) ∧
      got ≤ frameByte f c (copySent m c 0) ∧ f.verified = false) :=
  ⟨⟨at_ 0 (rg [(A.MAC_PCFG 0, 1), (A.MAC_PSTATUS 0, 1)]), _, 0, finds (by decide +kernel), by decide +kernel⟩,
   ⟨at_ 0 (held aFrame), _, 1, aFrame, finds (by decide +kernel), by decide +kernel⟩,
   ⟨at_ 0 (held { aFrame with phase := .headReady }), _, 1, { aFrame with phase := .headReady }, finds (by decide +kernel),
      by decide +kernel⟩,
   ⟨at_ 0 (updLane (held aFrame) 0 fun x => { x with pipe := [(1, 0, 0)] }), _, 0, 1, 0, 0, [], finds (by decide +kernel),
      by decide +kernel⟩,
   ⟨at_ 0 (updPrs (held aFrame) fun x => { x with dec := [aDec] }), _, aDec, finds (by decide +kernel), by decide +kernel⟩,
   ⟨at_ 0 (held aFrame), _, 1, aFrame, finds (by decide +kernel), by decide +kernel⟩,
   ⟨at_ 0 (held { aFrame with tooLong := true }), _, 1, { aFrame with tooLong := true }, finds (by decide +kernel), by decide +kernel⟩,
   ⟨at_ 0 (held { aFrame with fcsOk := true }), _, 1, { aFrame with fcsOk := true }, finds (by decide +kernel), by decide +kernel⟩,
   ⟨at_ 0 (cut { aFrame with tailAt := none } { aCopy with cut := true }), _, 1, 0, { aFrame with tailAt := none },
      { aCopy with cut := true }, finds (by decide +kernel), by decide +kernel⟩,
   ⟨at_ 0 (cut aFrame { aCopy with cut := true }), _, 1, 0, 0, aFrame, { aCopy with cut := true }, finds (by decide +kernel),
      by decide +kernel⟩⟩

theorem witness_LaneAndTable :
    (∃ (s : State) (m : Chip) (l : Fin 4) (a : Nat), Finds s 0 m (7999 * cyc) ∧ (laneOf m l).above = some a ∧ (laneOf m l).slow = false ∧
      m.late.any (·.2 == .lane l true) = false ∧ a + 7999 * cyc ≤ (7999 * cyc)) ∧
    (∃ (s : State) (m : Chip) (l : Fin 4) (b : Nat), Finds s 0 m (39999 * cyc) ∧ (laneOf m l).below = some b ∧ (laneOf m l).slow = true ∧
      m.late.any (·.2 == .lane l false) = false ∧ b + 39999 * cyc ≤ (39999 * cyc)) ∧
    (∃ (s : State) (m : Chip) (g : Fin 8), Finds s 0 m 0 ∧ m.prs.lag.getD g [] ≠ distributing m g) ∧
    (∃ (s : State) (m : Chip) (i : Fin 65536) (e : CtEnt), Finds s 0 m (10 ^ 18) ∧ sget m.prs.ct i.val = some e ∧ ctLive m e (10 ^ 18) =
      false) ∧
    (∃ (s : State) (m : Chip) (i : Fin 65536) (e : CtEnt), Finds s 0 m 0 ∧ sget m.prs.ct i.val = some e ∧ ctLive m e 0 = true) :=
  ⟨⟨at_ (7999 * cyc) (updLane r0 0 fun x => { x with above := some 0 }), _, 0, 0, finds (by decide +kernel), by decide +kernel⟩,
   ⟨at_ (39999 * cyc) (updLane r0 0 fun x => { x with below := some 0, slow := true }), _, 0, 0, finds (by decide +kernel),
      by decide +kernel⟩,
   ⟨at_ 0 (updPrs r0 fun x => { x with lag := [[0]] }), _, 0, finds (by decide +kernel), by decide +kernel⟩,
   ⟨at_ (10 ^ 18) (updPrs r0 fun x => { x with ct := [(0, aFlow)] }), _, 0, aFlow, finds (by decide +kernel), by decide +kernel⟩,
   ⟨at_ 0 (updPrs r0 fun x => { x with ct := [(0, aFlow)] }), _, 0, aFlow, finds (by decide +kernel), by decide +kernel⟩⟩

theorem witness_Queue :
    (∃ (s : State) (m : Chip) (p : Fin 24) (tc : Fin 8) (c : Copy), Finds s 0 m (2 * us) ∧ headOf m p tc = some c ∧ c.st = .queued ∧
      headDue m (2 * us) p tc = true ∧ aged m (2 * us) c = true ∧ c.multi = false) ∧
    (∃ (s : State) (m : Chip) (p : Fin 24) (c : Copy) (f : Frame), Finds s 0 m (10 ^ 12) ∧ oldestTx m p = some c ∧ frameOf m c.fid = some
      f ∧ f.verified = true ∧ p.val < 20 ∧ c.start + txLt m c ≤ (10 ^ 12)) ∧
    (∃ (s : State) (m : Chip) (p : Fin 24) (c : Copy) (f : Frame), Finds s 0 m 0 ∧ oldestTx m p = some c ∧ frameOf m c.fid = some f ∧
      f.verified = true ∧ 20 ≤ p.val) ∧
    (∃ (s : State) (m : Chip) (fid : Nat) (f : Frame), Finds s 0 m (10 ^ 18) ∧ frameOf m fid = some f ∧ f.stamp + fld m
      A.TM_MC_RESIDUE_AGE 0 20 * us < (10 ^ 18)) ∧
    (∃ (s : State) (m : Chip) (p : Fin 24) (e : Nat), Finds s 0 m 0 ∧ tmPort m p = .hold e ∧ e ≤ 0) ∧
    (∃ (s : State) (m : Chip), Finds s 0 m 0 ∧ m.tm.scrub < 65535 ∧ m.tm.scrubDue ≤ 0) :=
  ⟨⟨at_ (2 * us) (updTm (rg [(A.TM_Q_RES 0, 1)]) fun x => { x with copies := [{ aCopy with st := .queued }] }), _, 0, 0,
      { aCopy with st := .queued }, finds (by decide +kernel), by decide +kernel⟩,
   ⟨at_ (10 ^ 12) (cut { aFrame with verified := true } aCopy), _, 0, aCopy, { aFrame with verified := true }, finds (by decide +kernel),
      by decide +kernel⟩,
   ⟨at_ 0 (cut { aFrame with verified := true } { aCopy with port := 20 }), _, 20, { aCopy with port := 20 },
      { aFrame with verified := true }, finds (by decide +kernel), by decide +kernel⟩,
   ⟨at_ (10 ^ 18) (held aFrame), _, 1, aFrame, finds (by decide +kernel), by decide +kernel⟩,
   ⟨at_ 0 (updTm r0 fun x => { x with ports := [.hold 0] }), _, 0, 0, finds (by decide +kernel), by decide +kernel⟩,
   ⟨at_ 0 r0, _, finds (by decide +kernel), by decide +kernel⟩⟩

theorem witness_TimeAndGate :
    (∃ (s : State) (m : Chip), Finds s 0 m 0 ∧ m.time.slewing = true ∧ wOff m 0 = 0) ∧
    (∃ (s : State) (m : Chip), Finds s 0 m 0 ∧ m.time.holdover = false ∧ unsteered m 0 = true) ∧
    (∃ (s : State) (m : Chip), Finds s 0 m 0 ∧ flag m A.TIME_BCYC_CFG 31 = true ∧ ((bcycBase m + m.time.bnext * bcycLen m : Nat) : Int) *
      nsU ≤ workU m 0) ∧
    (∃ (s : State) (m : Chip) (p : Fin 20) (ct : Int), Finds s 0 m 0 ∧ (gateOf m p).ct = some ct ∧ ct ≤ workU m 0) :=
  ⟨⟨at_ 0 (updTime r0 fun x => { x with slewing := true, w := 0 }), _, finds (by decide +kernel), by decide +kernel⟩,
   ⟨at_ 0 (updTime r0 fun x => { x with holdover := false }), _, finds (by decide +kernel), by decide +kernel⟩,
   ⟨at_ 0 (rg [(A.TIME_BCYC_CFG, 0x80000001)]), _, finds (by decide +kernel), by decide +kernel⟩,
   ⟨at_ 0 (updGate r0 0 fun x => { x with pending := some 0 }), _, 0, 0, finds (by decide +kernel), by decide +kernel⟩⟩

theorem witness_PreemptionAndTrim :
    (∃ (s : State) (m : Chip) (p : Fin 16), Finds s 0 m 0 ∧ preActive m p = true ∧ holdDue m p 0 1 (fld m (A.GATE_PRE_ADV p) 0 16) = true) ∧
    (∃ (s : State) (m : Chip) (p : Fin 16), Finds s 0 m 0 ∧ (gateOf m p).hold = true ∧ holdDue m p 0 2 (fld m (A.GATE_PRE_ADV p) 16 16) =
      true) ∧
    (∃ (s : State) (m : Chip) (p : Fin 16), Finds s 0 m 0 ∧ flag m (A.GATE_PRE_CFG p) 0 = true ∧ flag m (A.GATE_PRE_CFG p) 1 = false ∧
      linkOn m p = true ∧ fld m (A.GATE_PRE_STATUS p) 1 2 < 2 ∧ (gateOf m p).tries < 3 ∧ ((gateOf m p).tries = 0 ∨ (gateOf m p).lastTry
      + verifyLt m p ≤ 0)) ∧
    (∃ (s : State) (m : Chip) (p : Fin 16), Finds s 0 m 0 ∧ fld m (A.GATE_PRE_STATUS p) 1 2 = 1) ∧
    (∃ (s : State) (m : Chip) (p : Fin 16), Finds s 0 m (1000 * ms) ∧ fld m (A.GATE_PRE_STATUS p) 1 2 = 1 ∧ (gateOf m p).tries = 3 ∧
      (gateOf m p).lastTry + verifyLt m p ≤ (1000 * ms)) ∧
    (∃ (s : State) (m : Chip) (p : Fin 20) (a : Option Int) (b : Int), Finds s 0 m 0 ∧ trimWindow m p 0 = some (a, some b) ∧
      (gateOf m p).trimmed = false ∧ egressIdle m p 0 = true ∧ workU m 0 < b - 300 * nsU) ∧
    (∃ (s : State) (m : Chip) (p : Fin 20) (a : Option Int) (b : Int), Finds s 0 m 0 ∧ (gateOf m p).trimmed = true ∧ trimWindow m p 0 =
      some (a, some b) ∧ b - 300 * nsU ≤ workU m 0) ∧
    (∃ (s : State) (m : Chip) (p : Fin 20), Finds s 0 m 0 ∧ (gateOf m p).trimmed = true ∧ trimWindow m p 0 = none) ∧
    (∃ (s : State) (m : Chip) (fn : Fin 1024) (r : RcvySt), Finds s 0 m (1000 * ms) ∧ sget m.rcvy fn = some r ∧ r.last + fld m
      (A.GATE_RCVY0 fn) 16 16 * ms ≤ (1000 * ms)) :=
  ⟨⟨at_ 0 (updGate (rg [(A.GATE_PCTL 0, 1), (A.GATE_PRE_CFG 0, 3), (A.MAC_PSTATUS 0, 1)]) 0 fun x =>
      { x with valid := true, oper := [(0, 200 + 0x1FF * 2 ^ 32)], cycle := 200, len := 1 }), _, 0, finds (by decide +kernel),
      by decide +kernel⟩,
   ⟨at_ 0 (updGate (rg [(A.GATE_PCTL 0, 1)]) 0 fun x =>
      { x with hold := true, valid := true, oper := [(0, 200 + 0x2FF * 2 ^ 32)], cycle := 200, len := 1 }), _, 0, finds
      (by decide +kernel), by decide +kernel⟩,
   ⟨at_ 0 (rg [(A.GATE_PRE_CFG 0, 1), (A.MAC_PSTATUS 0, 1)]), _, 0, finds (by decide +kernel), by decide +kernel⟩,
   ⟨at_ 0 (rg [(A.GATE_PRE_STATUS 0, 2)]), _, 0, finds (by decide +kernel), by decide +kernel⟩,
   ⟨at_ (1000 * ms) (updGate (rg [(A.GATE_PRE_STATUS 0, 2)]) 0 fun x => { x with tries := 3 }), _, 0, finds (by decide +kernel),
      by decide +kernel⟩,
   ⟨at_ 0 (updGate (rg [(A.GATE_PCTL 0, 1), (A.GATE_TRIM_CFG 0, 0xFF000001)]) 0 fun x =>
      { x with valid := true, oper := [(0, 1000), (1, 1000 + 0xFF * 2 ^ 32)], cycle := 2000, len := 2 }), _, 0, some 0, 1000 * slotU,
      finds (by decide +kernel), by decide +kernel⟩,
   ⟨at_ 0 (updGate (rg [(A.GATE_PCTL 0, 1), (A.GATE_TRIM_CFG 0, 0xFF000001)]) 0 fun x =>
      { x with trimmed := true, valid := true, oper := [(0, 100), (1, 1900 + 0xFF * 2 ^ 32)], cycle := 2000, len := 2 }), _, 0, some 0,
      100 * slotU, finds (by decide +kernel), by decide +kernel⟩,
   ⟨at_ 0 (updGate r0 0 fun x => { x with trimmed := true }), _, 0, finds (by decide +kernel), by decide +kernel⟩,
   ⟨at_ (1000 * ms) ({ r0 with rcvy := [(0, aRcvy)] }), _, 0, aRcvy, finds (by decide +kernel), by decide +kernel⟩⟩

theorem witness_CipherJob :
    (∃ (s : State) (m : Chip) (c : Fin 8) (j : CJob), Finds s 0 m 0 ∧ jobOn m c = some j) ∧
    (∃ (s : State) (m : Chip) (c : Fin 10) (j : CJob), Finds s 0 m 0 ∧ jobOn m c = some j) ∧
    (∃ (s : State) (m : Chip) (kecc : Bool) (p : Nat), Finds s 0 m 0 ∧ waitingPri m kecc = some p) ∧
    (∃ (s : State) (m : Chip) (client : Fin 3), Finds s 0 m 0 ∧ client ≠ 0) ∧
    (∃ (s : State) (m : Chip) (c : Fin 8) (est : Nat), Finds s 0 m 0 ∧ (coreOf m c).slow = false ∧ (coreOf m c).quar = false ∧
      (coreOf m c).resv = false ∧ est < fld m A.MINT_TELLER_CFG 8 7 ∧ (jobOn (emit (setIrq (updCore m c fun x =>
      { x with slow := true, rate := est, resv := false }) .mint 2) 0x0503 (srcId 5 c) 0 [(1, 1), (1, est)]) c = none)) ∧
    (∃ (s : State) (m : Chip) (c : Fin 8) (rate : Nat), Finds s 0 m 0 ∧ (coreOf m c).slow = true ∧ fld m A.MINT_TELLER_CFG 8 7 + 10 ≤
      rate) ∧
    (∃ (s : State) (m : Chip) (c : Fin 10) (client : Fin 4), Finds s 0 m 0 ∧ jobOn m c = none ∧ client ≠ 1) ∧
    (∃ (s : State) (m : Chip) (c : Fin 10) (j : CJob), Finds s 0 m 0 ∧ jobOn m c = some j ∧ j.retried = false) ∧
    (∃ (s : State) (m : Chip) (c : Fin 10), Finds s 0 m 0 ∧ jobOn m c = none ∧ (coreOf m c).resv = false) ∧
    (∃ (s : State) (m : Chip) (c : Fin 10) (j : CJob), Finds s 0 m 0 ∧ jobOn m c = some j ∧ j.retried = true ∧ (coreOf m c).resv = false) ∧
    (∃ (s : State) (m : Chip) (c : Fin 10), Finds s 0 m 0 ∧ (coreOf m c).test = true) :=
  ⟨⟨at_ 0 (updMint r0 fun x => { x with jobs := [aJob] }), _, 0, aJob, finds (by decide +kernel), by decide +kernel⟩,
   ⟨at_ 0 (updMint r0 fun x => { x with jobs := [aJob] }), _, 0, aJob, finds (by decide +kernel), by decide +kernel⟩,
   ⟨at_ 0 (updMint r0 fun x => { x with jobs := [{ aJob with core := none }] }), _, false, 0, finds (by decide +kernel),
      by decide +kernel⟩,
   ⟨at_ 0 r0, _, 1, finds (by decide +kernel), by decide +kernel⟩,
   ⟨at_ 0 (rg [(A.MINT_TELLER_CFG, 50 * 256)]), _, 0, 1, finds (by decide +kernel), by decide +kernel⟩,
   ⟨at_ 0 (updCore r0 0 fun x => { x with slow := true }), _, 0, 200, finds (by decide +kernel), by decide +kernel⟩,
   ⟨at_ 0 r0, _, 0, 0, finds (by decide +kernel), by decide +kernel⟩,
   ⟨at_ 0 (updMint r0 fun x => { x with jobs := [aJob] }), _, 0, aJob, finds (by decide +kernel), by decide +kernel⟩,
   ⟨at_ 0 r0, _, 0, finds (by decide +kernel), by decide +kernel⟩,
   ⟨at_ 0 (updMint r0 fun x => { x with jobs := [{ aJob with retried := true }] }), _, 0, { aJob with retried := true }, finds
      (by decide +kernel), by decide +kernel⟩,
   ⟨at_ 0 (updCore r0 0 fun x => { x with test := true }), _, 0, finds (by decide +kernel), by decide +kernel⟩⟩

theorem witness_VaultKey :
    (∃ (s : State) (m : Chip) (mb : Fin 4), Finds s 0 m 0 ∧ serves m mb 1 true = true) ∧
    (∃ (s : State) (m : Chip) (mb : Fin 4) (ok : Bool), Finds s 0 m 0 ∧ serves m mb 2 ok = true) ∧
    (∃ (s : State) (m : Chip) (mb : Fin 4) (k : KeySlot) (m1 : Chip) (v : Nat), Finds s 0 m 0 ∧ serves m mb 3 true = true ∧ slotOf m
      (vreq m mb).slot = some k ∧ ctrAsk m 1 = (m1, .value v)) ∧
    (∃ (s : State) (m : Chip) (mb : Fin 4), Finds s 0 m 0 ∧ serves m mb 4 true = true) ∧
    (∃ (s : State) (m : Chip) (mb : Fin 4) (ok : Bool) (r : KeySlot), Finds s 0 m 0 ∧ serves m mb 5 ok = true ∧ slotOf m (vreq m mb).aux =
      some r) ∧
    (∃ (s : State) (m : Chip) (mb : Fin 4) (ok : Bool) (r : KeySlot), Finds s 0 m 0 ∧ serves m mb 6 ok = true ∧ slotOf m (vreq m mb).aux =
      some r) ∧
    (∃ (s : State) (m : Chip) (mb : Fin 4) (k : KeySlot) (r : KeySlot), Finds s 0 m 0 ∧ serves m mb 7 true = true ∧ slotOf m
      (vreq m mb).slot = some k ∧ slotOf m (vreq m mb).aux = some r) :=
  ⟨⟨at_ 0 (updVault (rg [(A.VAULT_MB_CMD 2, 0x801), (A.VAULT_MB_POLICY 2, 0), (A.VAULT_MB_ARG 2, 0)]) fun v => { v with queue := [2] }),
      _, 2, finds (by decide +kernel), by decide +kernel⟩,
   ⟨at_ 0 (updVault (rg [(A.VAULT_MB_CMD 2, 0x802), (A.VAULT_MB_POLICY 2, 0), (A.VAULT_MB_ARG 2, 0)]) fun v =>
      { v with queue := [2], isSealed := true }), _, 2, true, finds (by decide +kernel), by decide +kernel⟩,
   ⟨at_ 0 (updVault (rg [(A.VAULT_MB_CMD 2, 0x803), (A.VAULT_MB_POLICY 2, 0), (A.VAULT_MB_ARG 2, 0)]) fun v =>
      { v with queue := [2], isSealed := true, slots := [(8, aKey)], ctrs := [{}, { limit := 5 }] }), _, 2, aKey, (ctrAsk (updVault (rg
      [(A.VAULT_MB_CMD 2, 0x803), (A.VAULT_MB_POLICY 2, 0), (A.VAULT_MB_ARG 2, 0)]) fun v =>
      { v with queue := [2], isSealed := true, slots := [(8, aKey)], ctrs := [{}, { limit := 5 }] }) 1).1, 0, finds (by decide +kernel),
      by decide +kernel⟩,
   ⟨at_ 0 (updVault (rg [(A.VAULT_MB_CMD 2, 0x804), (A.VAULT_MB_POLICY 2, 0), (A.VAULT_MB_ARG 2, 0)]) fun v => { v with queue := [2] }),
      _, 2, finds (by decide +kernel), by decide +kernel⟩,
   ⟨at_ 0 (updVault (rg [(A.VAULT_MB_CMD 2, 0x80905), (A.VAULT_MB_POLICY 2, 0), (A.VAULT_MB_ARG 2, 32)]) fun v =>
      { v with queue := [2], slots := [(8, aKey)] }), _, 2, true, aKey, finds (by decide +kernel), by decide +kernel⟩,
   ⟨at_ 0 (updVault (rg [(A.VAULT_MB_CMD 2, 0x80906), (A.VAULT_MB_POLICY 2, 0), (A.VAULT_MB_ARG 2, 24)]) fun v =>
      { v with queue := [2], slots := [(8, aKey)] }), _, 2, true, aKey, finds (by decide +kernel), by decide +kernel⟩,
   ⟨at_ 0 (updVault (rg [(A.VAULT_MB_CMD 2, 0x80807), (A.VAULT_MB_POLICY 2, 0), (A.VAULT_MB_ARG 2, 0)]) fun v =>
      { v with queue := [2], slots := [(8, aKey)] }), _, 2, aKey, aKey, finds (by decide +kernel), by decide +kernel⟩⟩

theorem witness_VaultAttestation :
    (∃ (s : State) (m : Chip) (mb : Fin 4) (ok : Bool), Finds s 0 m 0 ∧ serves m mb 8 ok = true ∧ ((vreq m mb).aux = 0 ∨ (vreq m mb).aux =
      2 ∨ (vreq m mb).aux = 3 ∨ (vreq m mb).aux = 1 ∧ mb ≠ 2)) ∧
    (∃ (s : State) (m : Chip) (mb : Fin 4) (ok : Bool), Finds s 0 m 0 ∧ serves m mb 8 ok = true ∧ (vreq m mb).aux ≠ 0 ∧ (vreq m mb).aux ≠
      2 ∧ (vreq m mb).aux ≠ 3 ∧ ((vreq m mb).aux = 1 → mb = 2)) ∧
    (∃ (s : State) (m : Chip) (mb : Fin 4) (ok : Bool), Finds s 0 m 0 ∧ serves m mb 9 ok = true) ∧
    (∃ (s : State) (m : Chip) (mb : Fin 4) (ok : Bool) (m1 : Chip) (v : Nat), Finds s 0 m 0 ∧ serves m mb 10 ok = true ∧ ctrAsk m 0 =
      (m1, .value v)) ∧
    (∃ (s : State) (m : Chip) (mb : Fin 4) (ok : Bool), Finds s 0 m 0 ∧ serves m mb 11 ok = true) ∧
    (∃ (s : State) (m : Chip) (mb : Fin 4), Finds s 0 m 0 ∧ serves m mb 12 true = true) ∧
    (∃ (s : State) (m : Chip) (mb : Fin 4), Finds s 0 m 0 ∧ serves m mb 13 true = true) ∧
    (∃ (s : State) (m : Chip) (mb : Fin 4) (ok : Bool) (i : Nat), Finds s 0 m 0 ∧ serves m mb 14 ok = true ∧ i = (if (vreq m mb).aux = 0
      then 0 else 1) ∧ rowOf m i = none) ∧
    (∃ (s : State) (m : Chip) (mb : Fin 4) (ok : Bool) (i : Nat), Finds s 0 m 0 ∧ serves m mb 14 ok = true ∧ i = (if (vreq m mb).aux = 0
      then 0 else 1) ∧ (rowOf m i).isSome = true) ∧
    (∃ (s : State) (m : Chip) (mb : Fin 4), Finds s 0 m 0 ∧ serves m mb 15 true = true ∧ m.vault.keygen = false) ∧
    (∃ (s : State) (m : Chip) (mb : Fin 4), Finds s 0 m 0 ∧ serves m mb 15 true = true ∧ m.vault.keygen = true) ∧
    (∃ (s : State) (m : Chip) (c : Nat) (l : Nat), Finds s 0 m 0 ∧ m.vault.nvm = some (c, l)) ∧
    (∃ (s : State) (m : Chip) (i : Fin 256) (k : KeySlot), Finds s 0 m 0 ∧ slotOf m i = some k) :=
  ⟨⟨at_ 0 (updVault (rg [(A.VAULT_MB_CMD 2, 0x808), (A.VAULT_MB_POLICY 2, 0), (A.VAULT_MB_ARG 2, 0)]) fun v => { v with queue := [2] }),
      _, 2, true, finds (by decide +kernel), by decide +kernel⟩,
   ⟨at_ 0 (updVault (rg [(A.VAULT_MB_CMD 2, 0x40808), (A.VAULT_MB_POLICY 2, 0), (A.VAULT_MB_ARG 2, 0)]) fun v =>
      { v with queue := [2] }), _, 2, true, finds (by decide +kernel), by decide +kernel⟩,
   ⟨at_ 0 (updVault (rg [(A.VAULT_MB_CMD 2, 0x809), (A.VAULT_MB_POLICY 2, 0), (A.VAULT_MB_ARG 2, 0)]) fun v =>
      { v with queue := [2], isSealed := true }), _, 2, true, finds (by decide +kernel), by decide +kernel⟩,
   ⟨at_ 0 (updVault (rg [(A.VAULT_MB_CMD 2, 0x80a), (A.VAULT_MB_POLICY 2, 0), (A.VAULT_MB_ARG 2, 0)]) fun v =>
      { v with queue := [2], keygen := true, ctrs := [{ limit := 5 }] }), _, 2, true, (ctrAsk (updVault (rg [(A.VAULT_MB_CMD 2, 0x80a),
      (A.VAULT_MB_POLICY 2, 0), (A.VAULT_MB_ARG 2, 0)]) fun v => { v with queue := [2], keygen := true, ctrs := [{ limit := 5 }] })
      0).1, 0, finds (by decide +kernel), by decide +kernel⟩,
   ⟨at_ 0 (updVault (rg [(A.VAULT_MB_CMD 2, 0x80b), (A.VAULT_MB_POLICY 2, 0), (A.VAULT_MB_ARG 2, 0)]) fun v => { v with queue := [2] }),
      _, 2, true, finds (by decide +kernel), by decide +kernel⟩,
   ⟨at_ 0 (updVault (rg [(A.VAULT_MB_CMD 2, 0x80c), (A.VAULT_MB_POLICY 2, 0), (A.VAULT_MB_ARG 2, 0)]) fun v =>
      { v with queue := [2], keygen := true }), _, 2, finds (by decide +kernel), by decide +kernel⟩,
   ⟨at_ 0 (updVault (rg [(A.VAULT_CTR_CFG 8, 2), (A.VAULT_MB_CMD 2, 0x8080d), (A.VAULT_MB_POLICY 2, 0), (A.VAULT_MB_ARG 2, 0)]) fun v =>
      { v with queue := [2] }), _, 2, finds (by decide +kernel), by decide +kernel⟩,
   ⟨at_ 0 (updVault (rg [(A.VAULT_MB_CMD 2, 0x80e), (A.VAULT_MB_POLICY 2, 0), (A.VAULT_MB_ARG 2, 0)]) fun v => { v with queue := [2] }),
      _, 2, true, 0, finds (by decide +kernel), by decide +kernel⟩,
   ⟨at_ 0 (setRow (updVault (rg [(A.VAULT_MB_CMD 2, 0x80e), (A.VAULT_MB_POLICY 2, 0), (A.VAULT_MB_ARG 2, 0)]) fun v =>
      { v with queue := [2] }) 0 []), _, 2, true, 0, finds (by decide +kernel), ⟨by decide +kernel, by decide +kernel, row_set⟩⟩,
   ⟨at_ 0 (updVault (rg [(A.VAULT_MB_CMD 2, 0x80f), (A.VAULT_MB_POLICY 2, 0), (A.VAULT_MB_ARG 2, 0)]) fun v => { v with queue := [2] }),
      _, 2, finds (by decide +kernel), by decide +kernel⟩,
   ⟨at_ 0 (updVault (rg [(A.VAULT_MB_CMD 2, 0x80f), (A.VAULT_MB_POLICY 2, 0), (A.VAULT_MB_ARG 2, 0)]) fun v =>
      { v with queue := [2], keygen := true }), _, 2, finds (by decide +kernel), by decide +kernel⟩,
   ⟨at_ 0 (updVault r0 fun v => { v with nvm := some (0, 0) }), _, 0, 0, finds (by decide +kernel), by decide +kernel⟩,
   ⟨at_ 0 (updVault r0 fun v => { v with slots := [(0, aKey)] }), _, 0, aKey, finds (by decide +kernel), by decide +kernel⟩⟩

theorem witness_CanTransmit :
    (∃ (s : State) (m : Chip) (c : Fin 16) (f : Nat), FindsCan s 0 m 0 ∧ canEn m c = true ∧ (canOf m c).ready = true ∧ (canOf m c).st < 2
      ∧ m.pwr.mode = .run ∧ (canOf m c).begun = none ∧ (canOf m c).holdOff ≤ 0 ∧ canSends m c = true ∧ candidate (canOf m c) = some f) ∧
    (∃ (s : State) (m : Chip) (c : Fin 16) (f : Nat), FindsCan s 0 m 0 ∧ (canOf m c).begun = some f) ∧
    (∃ (s : State) (m : Chip) (c : Fin 16), FindsCan s 0 m 0 ∧ canEn m c = true ∧ (canOf m c).ready = true ∧ (canOf m c).st < 2) ∧
    (∃ (s : State) (m : Chip) (c : Fin 16), FindsCan s 0 m 0 ∧ canEn m c = true ∧ (canOf m c).st = 3) ∧
    (∃ (s : State) (m : Chip) (c : Fin 16), FindsCan s 0 m 0 ∧ canEn m c = true) :=
  ⟨⟨at_ 0 (updCan (rg [(A.CAN_CH_CFG 0, 1)]) 0 fun x => { x with ready := true, fifos := [[aMsg]] }), _, 0, 0, findsCan
      (by decide +kernel) (by decide +kernel), by decide +kernel⟩,
   ⟨at_ 0 (updCan r0 0 fun x => { x with begun := some 0 }), _, 0, 0, findsCan (by decide +kernel) (by decide +kernel),
      by decide +kernel⟩,
   ⟨at_ 0 (updCan (rg [(A.CAN_CH_CFG 0, 1)]) 0 fun x => { x with ready := true }), _, 0, findsCan (by decide +kernel)
      (by decide +kernel), by decide +kernel⟩,
   ⟨at_ 0 (updCan (rg [(A.CAN_CH_CFG 0, 1)]) 0 fun x => { x with st := 3 }), _, 0, findsCan (by decide +kernel) (by decide +kernel),
      by decide +kernel⟩,
   ⟨at_ 0 (rg [(A.CAN_CH_CFG 0, 1)]), _, 0, findsCan (by decide +kernel) (by decide +kernel), by decide +kernel⟩⟩

theorem witness_CanReceive :
    (∃ (s : State) (m : Chip) (c : Fin 16) (b : Nat) (l : Nat), FindsCan s 0 m (1000 * ms) ∧ (bufOf m c b).lock = some l ∧ l + fld m
      (A.CAN_RX_LOCK c) 0 16 * us < (1000 * ms)) ∧
    (∃ (s : State) (m : Chip) (who : Fin 8) (c : Fin 16) (b : Nat), Accepts s 0 who (elemAddr s.chip c b 0) false false 0 m 0 ∧ b < rxBufs
      m c ∧ sends m who = true ∧ serviceDenied m who (elemAddr m c b (0)) false = false ∧ brgRange (elemAddr m c b (0)) = true ∧ reach m
      (elemAddr m c b (0)) = .ok ∧ canSlotOf m ((elemAddr m c b (0)) - A.CAN_RAM_WINDOW 0) = some (c.val, b, 0)) ∧
    (∃ (s : State) (m : Chip) (who : Fin 8) (c : Fin 16) (b : Nat), Accepts s 0 who (elemAddr s.chip c b 0) false false 0 m 0 ∧ b < rxBufs
      m c ∧ sends m who = true ∧ serviceDenied m who (elemAddr m c b (lastWord (bufOf m c b))) false = false ∧ brgRange (elemAddr m c b
      (lastWord (bufOf m c b))) = true ∧ reach m (elemAddr m c b (lastWord (bufOf m c b))) = .ok ∧ canSlotOf m ((elemAddr m c b
      (lastWord (bufOf m c b))) - A.CAN_RAM_WINDOW 0) = some (c.val, b, lastWord (bufOf m c b))) :=
  ⟨⟨at_ (1000 * ms) (updCan r0 0 fun x => { x with bufs := [(0, { lock := some 0 })] }), _, 0, 0, 0, findsCan (by decide +kernel)
      (by decide +kernel), by decide +kernel⟩,
   ⟨at_ 0 (rg [(A.CAN_LAYOUT 0, 4)]), took 0 _ _ _ _, 2, 0, 0, accepts (by decide +kernel), by decide +kernel⟩,
   ⟨at_ 0 (rg [(A.CAN_LAYOUT 0, 4)]), took 0 _ _ _ _, 2, 0, 0, accepts (by decide +kernel), by decide +kernel⟩⟩

theorem witness_Lin :
    (∃ (s : State) (m : Chip) (c : Fin 8) (err : Nat), Finds s 0 m 0 ∧ linEn m c = true ∧ (flag m (A.LIN_CH_CFG c) 1 && !chanGuarded m
      (16 + c.val)) = false ∧ flag m (A.LIN_STATUS c) 0 = false ∧ m.pwr.mode = .run ∧ (err = 5 ∨ err = 6)) ∧
    (∃ (s : State) (m : Chip) (c : Fin 8) (err : Nat), Finds s 0 m 0 ∧ linEn m c = true ∧ (flag m (A.LIN_CH_CFG c) 1 && !chanGuarded m
      (16 + c.val)) = false ∧ flag m (A.LIN_STATUS c) 0 = false ∧ m.pwr.mode = .run ∧ err ≠ 5 ∧ err ≠ 6) ∧
    (∃ (s : State) (m : Chip) (c : Fin 8) (err : Nat), Finds s 0 m 0 ∧ linEn m c = true ∧ (err = 0 ∨ err = 1 ∨ err = 4)) ∧
    (∃ (s : State) (m : Chip) (c : Fin 8) (i : Nat) (sof : Nat), Finds s 0 m (10 ^ 18) ∧ (linOf m c).cur = some (i, sof, false) ∧ linEn m
      c = true ∧ linDir m c i = 2 ∧ sof + linLimit m c i ≤ (10 ^ 18)) ∧
    (∃ (s : State) (m : Chip) (c : Fin 8), Finds s 0 m (4 * sec) ∧ linEn m c = true ∧ flag m (A.LIN_CH_CFG c) 1 = false ∧ flag m
      (A.LIN_STATUS c) 0 = false ∧ (linOf m c).lastAct + 4 * sec ≤ (4 * sec)) ∧
    (∃ (s : State) (m : Chip) (c : Fin 8) (pulse : Nat), Finds s 0 m 0 ∧ linEn m c = true ∧ flag m (A.LIN_STATUS c) 0 = true ∧ 150 ≤
      pulse) ∧
    (∃ (s : State) (m : Chip) (c : Fin 8) (e : Nat), Finds s 0 m 0 ∧ (linOf m c).resumeAt = some e ∧ linEn m c = true ∧ e ≤ 0) :=
  ⟨⟨at_ 0 (rg [(A.LIN_CH_CFG 0, 1)]), _, 0, 5, finds (by decide +kernel), by decide +kernel⟩,
   ⟨at_ 0 (rg [(A.LIN_CH_CFG 0, 1)]), _, 0, 0, finds (by decide +kernel), by decide +kernel⟩,
   ⟨at_ 0 (rg [(A.LIN_CH_CFG 0, 1)]), _, 0, 0, finds (by decide +kernel), by decide +kernel⟩,
   ⟨at_ (10 ^ 18) (updLin (rg [(A.LIN_CH_CFG 0, 1 + 19200 * 128), (A.LIN_FRAME 0 0, 2)]) 0 fun x =>
      { x with cur := some (0, 0, false) }), _, 0, 0, 0, finds (by decide +kernel), by decide +kernel⟩,
   ⟨at_ (4 * sec) (rg [(A.LIN_CH_CFG 0, 1)]), _, 0, finds (by decide +kernel), by decide +kernel⟩,
   ⟨at_ 0 (rg [(A.LIN_CH_CFG 0, 1), (A.LIN_STATUS 0, 1)]), _, 0, 150, finds (by decide +kernel), by decide +kernel⟩,
   ⟨at_ 0 (updLin (rg [(A.LIN_CH_CFG 0, 1)]) 0 fun x => { x with resumeAt := some 0 }), _, 0, 0, finds (by decide +kernel),
      by decide +kernel⟩⟩

theorem witness_Signal : ∃ (s : State) (m : Chip), Finds s 0 m 0 ∧ sgeRuns m = true :=
  ⟨at_ 0 (rg [(A.SGE_CTRL, 1)]), _, finds (by decide +kernel), by decide +kernel⟩

theorem witness_Dma :
    (∃ (s : State) (m : Chip) (r : Fin 64), Finds s 0 m 0 ∧ ringType m r = 0) ∧
    (∃ (s : State) (m : Chip) (r : Fin 64) (d : Nat), Finds s 0 m 0 ∧ (ringOf m r).gather = some d ∧ d ≤ 0) ∧
    (∃ (s : State) (m : Chip) (r : Fin 64), Finds s 0 m 0 ∧ ringType m r = 1) ∧
    (∃ (s : State) (m : Chip) (r : Fin 64) (w : DmaWork), Finds s 0 m 0 ∧ ringType m r = 7 ∧ (openWork m r (fun _ => true) = some w) ∧
      (copyDesc w.desc).total ≤ w.pos) ∧
    (∃ (s : State) (m : Chip) (r : Fin 64), Finds s 0 m us ∧ ringType m r = 5 ∧ fld m (A.HIF_RING_COAL r) 0 16 ≠ 0 ∧ (ringOf m r).unsig ≠
      0 ∧ (ringOf m r).first + fld m (A.HIF_RING_COAL r) 0 16 * us ≤ us) ∧
    (∃ (s : State) (m : Chip) (r : Fin 64), Finds s 0 m 0 ∧ (ringOf m r).stopping = true ∧ ringBusy m r = false ∧ (ringOf m r).err = 0) :=
  ⟨⟨at_ 0 r0, _, 0, finds (by decide +kernel), by decide +kernel⟩,
   ⟨at_ 0 (updRing r0 0 fun x => { x with gather := some 0 }), _, 0, 0, finds (by decide +kernel), by decide +kernel⟩,
   ⟨at_ 0 (rg [(A.HIF_RING_CFG 0, 2)]), _, 0, finds (by decide +kernel), by decide +kernel⟩,
   ⟨at_ 0 (updDma (rg [(A.HIF_RING_CFG 0, 14)]) fun x => { x with work := [aWork] }), _, 0, aWork, finds (by decide +kernel),
      by decide +kernel⟩,
   ⟨at_ us (updRing (rg [(A.HIF_RING_CFG 0, 10), (A.HIF_RING_COAL 0, 1)]) 0 fun x => { x with unsig := 1 }), _, 0, finds
      (by decide +kernel), by decide +kernel⟩,
   ⟨at_ 0 (updRing r0 0 fun x => { x with stopping := true }), _, 0, finds (by decide +kernel), by decide +kernel⟩⟩

theorem witness_Pcie :
    (∃ (s : State) (m : Chip) (l : Fin 2) (sp : Fin 5) (w : Fin 5), Finds s 0 m 0 ∧ sp ≠ 0 ∧ w ≠ 0 ∧
      (l = 1 → flag m A.HIF_LINK_STATUS 0 = true) ∧ domOn m 12 = true) ∧
    (∃ (s : State) (m : Chip) (f : Fin 2), Finds s 0 m 0 ∧ fnUp m f = true) ∧
    (∃ (s : State) (m : Chip) (f : Fin 2), Finds s 0 m 0 ∧ bmeOf m f = true) ∧
    (∃ (s : State) (m : Chip) (l : Fin 2), Finds s 0 m 0 ∧ flag m A.HIF_LINK_STATUS (1 + l.val) = true) ∧
    (∃ (s : State) (m : Chip) (f : Fin 2) (off : Nat) (b : List Byte), Finds s 0 m 0 ∧ fnUp m f = true ∧ off + b.length ≤ sramSize ∧ flag
      m A.HIF_BAR2_CFG f = true) ∧
    (∃ (s : State) (m : Chip) (f : Fin 2) (off : Nat) (b : List Byte), Finds s 0 m 0 ∧ fnUp m f = true ∧ (sramSize < off + b.length ∨ flag
      m A.HIF_BAR2_CFG f = false)) :=
  ⟨⟨at_ 0 r0, _, 0, 1, 1, finds (by decide +kernel), by decide +kernel⟩,
   ⟨at_ 0 (rg [(A.HIF_LINK_STATUS, 2), (A.HIF_BAR2_CFG, 1)]), _, 0, finds (by decide +kernel), by decide +kernel⟩,
   ⟨at_ 0 (updDma r0 fun x => { x with bme := [true] }), _, 0, finds (by decide +kernel), by decide +kernel⟩,
   ⟨at_ 0 (rg [(A.HIF_LINK_STATUS, 2), (A.HIF_BAR2_CFG, 1)]), _, 0, finds (by decide +kernel), by decide +kernel⟩,
   ⟨at_ 0 (rg [(A.HIF_LINK_STATUS, 2), (A.HIF_BAR2_CFG, 1)]), _, 0, 0, [1], finds (by decide +kernel), by decide +kernel⟩,
   ⟨at_ 0 (rg [(A.HIF_LINK_STATUS, 2)]), _, 0, 0, [1], finds (by decide +kernel), by decide +kernel⟩⟩

theorem witness_ErrorAndLedger :
    (∃ (s : State) (m : Chip) (c : Fin 5), Finds s 0 m 0 ∧ c ≠ 0) ∧
    (∃ (s : State) (m : Chip) (since : Nat), Finds s 0 m ms ∧ since + fld m A.BRG_CFG 0 16 * cyc ≤ ms) ∧
    (∃ (s : State) (m : Chip) (h : Fin 5) (a : Nat), Finds s 0 m 0 ∧ brgRange a = true ∧ sends m (2 + h) = true) ∧
    (∃ (s : State) (m : Chip) (sev : Fin 4), Finds s 0 m 0 ∧ sev ≠ 0) ∧
    (∃ (s : State) (m : Chip), Finds s 0 m 0 ∧ anchorIsDue m 0 = true ∧ ledgerFull m 0 = false) ∧
    (∃ (s : State) (m : Chip), Finds s 0 m 0 ∧ m.ledger.lostF + m.ledger.lostO + m.ledger.lostE ≠ 0 ∧ m.ledger.lostWin ≠ some (0 / ms) ∧
      m.ledger.startDue = none ∧ ledgerFull m 0 = false) ∧
    (∃ (s : State) (m : Chip) (ecc : Option Nat) (e : ExportBuf), Finds s 0 m 0 ∧ (exportMove m 0 ecc).ledger.exp = some e ∧ e.cap ≤
      e.count) ∧
    (∃ (s : State) (m : Chip) (e : ExportBuf), Finds s 0 m ms ∧ m.ledger.exp = some e ∧ 0 < e.count ∧ e.firstLt + fld m
      A.LEDGER_EXPORT_CFG 16 16 * us ≤ ms) :=
  ⟨⟨at_ 0 r0, _, 1, finds (by decide +kernel), by decide +kernel⟩,
   ⟨at_ ms r0, _, 0, finds (by decide +kernel), by decide +kernel⟩,
   ⟨at_ 0 r0, _, 0, A.TIME_CFG, finds (by decide +kernel), by decide +kernel⟩,
   ⟨at_ 0 r0, _, 1, finds (by decide +kernel), by decide +kernel⟩,
   ⟨at_ 0 (updLedger r0 fun x => { x with anchors := [0], startDue := none }), _, finds (by decide +kernel), by decide +kernel⟩,
   ⟨at_ 0 (updLedger r0 fun x => { x with lostF := 1, lostWin := none, startDue := none }), _, finds (by decide +kernel),
      by decide +kernel⟩,
   ⟨at_ 0 (updLedger r0 fun x => { x with exp := some anExport }), _, none, anExport, finds (by decide +kernel), by decide +kernel⟩,
   ⟨at_ ms (updLedger (rg [(A.LEDGER_EXPORT_CFG, 0x10000)]) fun x => { x with exp := some anExport }), _, anExport, finds
      (by decide +kernel), by decide +kernel⟩⟩

theorem witness_ResetAndSupply :
    (∃ (s : State) (m : Chip), FindsAny s 0 m 0 ∧ m.pwr.mode ≠ .off) ∧
    (∃ (s : State) (m : Chip), FindsAny s 0 m 0 ∧ s.chip.pwr.mode = .off) ∧
    (∃ (s : State) (m : Chip) (low : Nat), FindsAny s 0 m 0 ∧ 10 * us ≤ low) ∧
    (∃ (s : State) (m : Chip) (low : Nat), FindsAny s 0 m 0 ∧ us ≤ low ∧ bit m.pwr.vddio 0 = true ∧
      (m.pwr.mode = .run ∨ m.pwr.mode = .parking)) ∧
    (∃ (s : State) (m : Chip) (low : Nat), FindsAny s 0 m 0 ∧ low ≤ 400) ∧
    (∃ (s : State) (m : Chip) (l : Nat), FindsAny s 0 m 0 ∧ m.pwr.held = true ∧ m.pwr.rstAt = some (l, 2)) ∧
    (∃ (s : State) (m : Chip) (l : Nat) (c : Nat), FindsAny s 0 m 0 ∧ m.pwr.rstAt = some (l, c) ∧ c ≠ 2) ∧
    (∃ (s : State) (m : Chip) (k : Fin 6), FindsAny s 0 m 0 ∧ flag m A.GLB_CLK_STATUS k = true ∧ coreOn m = true ∧ k.val < 3) ∧
    (∃ (s : State) (m : Chip) (k : Fin 6), FindsAny s 0 m 0 ∧ flag m A.GLB_CLK_STATUS k = true ∧ coreOn m = true ∧ 3 ≤ k.val ∧ k.val < 5) ∧
    (∃ (s : State) (m : Chip), FindsAny s 0 m 0 ∧ flag m A.GLB_CLK_STATUS 5 = true ∧ coreOn m = true) ∧
    (∃ (s : State) (m : Chip) (i : Fin 4), FindsAny s 0 m 0 ∧ m.pwr.mode ≠ .off ∧ (i.val < 2 ∨ m.life = 0 ∨ m.life = 3)) :=
  ⟨⟨at_ 0 r0, _, findsAny, by decide +kernel⟩,
   ⟨at_ 0 (updPwr r0 fun x => { x with mode := .off }), _, findsAny, by decide +kernel⟩,
   ⟨at_ 0 r0, _, 10 * us, findsAny, by decide +kernel⟩,
   ⟨at_ 0 (updPwr r0 fun x => { x with vddio := 3 }), _, us, findsAny, by decide +kernel⟩,
   ⟨at_ 0 r0, _, 400, findsAny, by decide +kernel⟩,
   ⟨at_ 0 (updPwr r0 fun x => { x with held := true, rstAt := some (0, 2) }), _, 0, findsAny, by decide +kernel⟩,
   ⟨at_ 0 (updPwr r0 fun x => { x with rstAt := some (0, 3) }), _, 0, 3, findsAny, by decide +kernel⟩,
   ⟨at_ 0 (rg [(A.GLB_CLK_STATUS, 1)]), _, 0, findsAny, by decide +kernel⟩,
   ⟨at_ 0 (rg [(A.GLB_CLK_STATUS, 8)]), _, 3, findsAny, by decide +kernel⟩,
   ⟨at_ 0 (rg [(A.GLB_CLK_STATUS, 32)]), _, findsAny, by decide +kernel⟩,
   ⟨at_ 0 r0, _, 0, findsAny, by decide +kernel⟩⟩

theorem witness_Wake :
    (∃ (s : State) (m : Chip), FindsAny s 0 m 0 ∧ m.pwr.mode = .parking ∧ m.pwr.phase = 2) ∧
    (∃ (s : State) (m : Chip), FindsAny s 0 m (10 * us) ∧ (m.pwr.mode = .listen ∨ m.pwr.mode = .deep) ∧ m.pwr.enAt + 10 * us ≤ (10 * us) ∧
      bit m.pwr.en 0 = true) ∧
    (∃ (s : State) (m : Chip), FindsAny s 0 m (10 * us) ∧ m.pwr.mode = .waking ∧ m.pwr.enAt + 10 * us ≤ (10 * us) ∧ m.pwr.pg = true ∧
      m.pwr.pgAt + 10 * us ≤ (10 * us)) ∧
    (∃ (s : State) (m : Chip), FindsAny s 0 m 1 ∧ flag m A.PWR_WAKE_EN 4 = true ∧ rd64 m A.PWR_RTC_ALARM_LO ≠ 0 ∧ rd64 m
      A.PWR_RTC_ALARM_LO ≤ 1 ∧ wakeTaken m 4 = true) ∧
    (∃ (s : State) (m : Chip) (e : Fin 8), FindsAny s 0 m 0 ∧ flag m (A.MAC_PT1_CFG (8 + e)) 2 = true ∧ coreOn m = false) ∧
    (∃ (s : State) (m : Chip) (d : Fin 4) (kind : Fin 3) (ident : BitVec 29) (ide : Bool) (dlc : Fin 16) (data : List Byte) (errs : Nat),
      FindsAny s 0 m 0 ∧ wakeTaken m 2 = true ∧ bit m.pwr.vddio 1 = true ∧ coreOn m = false ∧ pnMatches m d kind ident.toNat ide dlc
      data errs = true) ∧
    (∃ (s : State) (m : Chip) (pgLow : Bool), FindsAny s 0 m 0 ∧ (m.pwr.mode = .listen ∨ m.pwr.mode = .deep) ∧ m.pwr.wake.isSome = true ∧
      (pgLow = true ∨ m.pwr.enAt + fld m A.PWR_PMIC_CFG 16 16 * us ≤ 0)) ∧
    (∃ (s : State) (m : Chip), FindsAny s 0 m 0 ∧ m.pwr.pg = false ∧ m.pwr.mode = .waking ∧ m.pwr.en = 0xF) ∧
    (∃ (s : State) (m : Chip), FindsAny s 0 m 0 ∧ m.pwr.mode = .run) ∧
    (∃ (s : State) (m : Chip), FindsAny s 0 m 0 ∧ m.pwr.mode = .waking ∧ m.pwr.deep = false ∧ m.pwr.fclk = true) ∧
    (∃ (s : State) (m : Chip), FindsAny s 0 m (1000 * ms) ∧ m.pwr.mode = .waking ∧ m.pwr.pg = false ∧ m.pwr.enAt + fld m A.PWR_PMIC_CFG 16
      16 * us ≤ (1000 * ms) ∧ m.safe.fault = false) ∧
    (∃ (s : State) (m : Chip) (v : Nat) (back : Nat), FindsAny s 0 m 0 ∧ m.pwr.spi = some v ∧ flag m A.PWR_PMIC_CFG 7 = true ∧ back = v %
      65536) :=
  ⟨⟨at_ 0 (updPwr r0 fun x => { x with mode := .parking, phase := 2 }), _, findsAny, by decide +kernel⟩,
   ⟨at_ (10 * us) (updPwr r0 fun x => { x with mode := .listen, en := 15, enAt := 0 }), _, findsAny, by decide +kernel⟩,
   ⟨at_ (10 * us) (updPwr r0 fun x => { x with mode := .waking, enAt := 0, pg := true, pgAt := 0 }), _, findsAny, by decide +kernel⟩,
   ⟨at_ 1 (updPwr (rg [(A.PWR_WAKE_EN, 16), (A.PWR_RTC_ALARM_LO, 1)]) fun x => { x with mode := .deep }), _, findsAny, by decide +kernel⟩,
   ⟨at_ 0 (updPwr (rg [(A.MAC_PT1_CFG 8, 4)]) fun x => { x with mode := .listen }), _, 0, findsAny, by decide +kernel⟩,
   ⟨at_ 0 (updPwr (rg [(A.CAN_PN_CFG 0, 0x81)]) fun x => { x with mode := .listen }), _, 0, 1, 0, false, 0, [], 0, findsAny,
      by decide +kernel⟩,
   ⟨at_ 0 (updPwr r0 fun x => { x with mode := .listen, wake := some (0, 0, 0) }), _, true, findsAny, by decide +kernel⟩,
   ⟨at_ 0 (updPwr r0 fun x => { x with mode := .waking, pg := false, en := 0xF }), _, findsAny, by decide +kernel⟩,
   ⟨at_ 0 r0, _, findsAny, by decide +kernel⟩,
   ⟨at_ 0 (updPwr r0 fun x => { x with mode := .waking, deep := false, fclk := true }), _, findsAny, by decide +kernel⟩,
   ⟨at_ (1000 * ms) (updSafe (updPwr r0 fun x => { x with mode := .waking, pg := false, enAt := 0 }) fun x => { x with fault := false }),
      _, findsAny, by decide +kernel⟩,
   ⟨at_ 0 (updPwr (rg [(A.PWR_PMIC_CFG, 0x80)]) fun x => { x with spi := some 5 }), _, 5, 5, findsAny, by decide +kernel⟩⟩

theorem witness_PowerManagement :
    (∃ (s : State) (m : Chip), Finds s 0 m 0 ∧ m.pwr.mode = .parking ∧ m.pwr.phase = 1 ∧ drained m = true) ∧
    (∃ (s : State) (m : Chip), Finds s 0 m 0 ∧ m.pwr.mode = .run ∧ m.pwr.mintLatch.isSome = true ∧ m.mint.jobs.all (·.core.isNone) = true) ∧
    (∃ (s : State) (m : Chip), Finds s 0 m (10 ^ 15) ∧ m.pwr.mode = .parking ∧ m.pwr.phase = 1 ∧ m.pwr.latch + fld m A.PWR_DRAIN_TMO 0 17
      * us ≤ (10 ^ 15)) ∧
    (∃ (s : State) (m : Chip) (l : Nat), Finds s 0 m (10 ^ 15) ∧ m.pwr.mode = .run ∧ m.pwr.mintLatch = some l ∧ l + fld m A.PWR_DRAIN_TMO
      0 17 * us ≤ (10 ^ 15)) ∧
    (∃ (s : State) (m : Chip), Finds s 0 m 0 ∧ m.pwr.en = 0xF ∧ m.pwr.pg = true) ∧
    (∃ (s : State) (m : Chip), Finds s 0 m 0 ∧ flag m A.PWR_AVS_CFG 31 = true) ∧
    (∃ (s : State) (m : Chip) (a : Nat), Finds s 0 m (10 ^ 12) ∧ m.pwr.idleSince = some a ∧ flag m A.PWR_IDLE_CFG 0 = true ∧ quiet m =
      true ∧ m.pwr.mode = .run ∧ a + fld m A.PWR_IDLE_CFG 16 16 * us ≤ (10 ^ 12)) ∧
    (∃ (s : State) (m : Chip), Finds s 0 m 0 ∧ m.pwr.idle = true) :=
  ⟨⟨at_ 0 (updPwr r0 fun x => { x with mode := .parking, phase := 1 }), _, finds (by decide +kernel), by decide +kernel⟩,
   ⟨at_ 0 (updPwr r0 fun x => { x with mintLatch := some 0 }), _, finds (by decide +kernel), by decide +kernel⟩,
   ⟨at_ (10 ^ 15) (updPwr r0 fun x => { x with mode := .parking, phase := 1, latch := 0 }), _, finds (by decide +kernel),
      by decide +kernel⟩,
   ⟨at_ (10 ^ 15) (updPwr r0 fun x => { x with mintLatch := some 0 }), _, 0, finds (by decide +kernel), by decide +kernel⟩,
   ⟨at_ 0 (updPwr r0 fun x => { x with en := 0xF, pg := true }), _, finds (by decide +kernel), by decide +kernel⟩,
   ⟨at_ 0 (rg [(A.PWR_AVS_CFG, 0x80000000)]), _, finds (by decide +kernel), by decide +kernel⟩,
   ⟨at_ (10 ^ 12) (updPwr (rg [(A.PWR_IDLE_CFG, 1)]) fun x => { x with idleSince := some 0 }), _, 0, finds (by decide +kernel),
      by decide +kernel⟩,
   ⟨at_ 0 (updPwr r0 fun x => { x with idle := true }), _, finds (by decide +kernel), by decide +kernel⟩⟩

theorem witness_Triad :
    (∃ (s : State) (m : Chip), Finds s 0 m 0 ∧ m.triad.mode = 0) ∧
    (∃ (s : State) (m : Chip), Finds s 0 m 0 ∧ m.triad.mode = 1) ∧
    (∃ (s : State) (m : Chip), Finds s 0 m 0 ∧ m.triad.mode < 2) ∧
    (∃ (s : State) (m : Chip) (d : Nat), Finds s 0 m 0 ∧ m.triad.restartAt = some d ∧ m.triad.mode = 3 ∧ d ≤ 0) ∧
    (∃ (s : State) (m : Chip), Finds s 0 m us ∧ lapsed m.triad.kick m.triad.pause (fld m A.TRIAD_WDT_CFG 0 16 * us) us = true ∧
      m.triad.mode ≠ 3) ∧
    (∃ (s : State) (m : Chip), Finds s 0 m us ∧ lapsed m.triad.ckick m.triad.cpause (fld m A.TRIAD_CWDT_CFG 0 24 * us) us = true) :=
  ⟨⟨at_ 0 (updTriad r0 fun x => { x with mode := 0 }), _, finds (by decide +kernel), by decide +kernel⟩,
   ⟨at_ 0 (updTriad r0 fun x => { x with mode := 1 }), _, finds (by decide +kernel), by decide +kernel⟩,
   ⟨at_ 0 (updTriad r0 fun x => { x with mode := 1 }), _, finds (by decide +kernel), by decide +kernel⟩,
   ⟨at_ 0 (updTriad r0 fun x => { x with mode := 3, restartAt := some 0 }), _, 0, finds (by decide +kernel), by decide +kernel⟩,
   ⟨at_ us (updTriad (rg [(A.TRIAD_WDT_CFG, 1)]) fun x => { x with mode := 0, kick := some 0, pause := none }), _, finds
      (by decide +kernel), by decide +kernel⟩,
   ⟨at_ us (updTriad (rg [(A.TRIAD_CWDT_CFG, 1)]) fun x => { x with ckick := some 0, cpause := none }), _, finds (by decide +kernel),
      by decide +kernel⟩⟩

theorem witness_Debug :
    (∃ (s : State) (m : Chip), Finds s 0 m 0 ∧ svcDebug m = false) ∧
    (∃ (s : State) (m : Chip), Finds s 0 m 0 ∧ svcDebug m = true) ∧
    (∃ (s : State) (m : Chip) (h : Fin 16), Finds s 0 m 0 ∧ svcDebug m = true ∧ m.life ≠ 3 ∧ bit h 0 = true) ∧
    (∃ (s : State) (m : Chip) (e : Nat), Finds s 0 m 0 ∧ m.triad.session = some e ∧ e ≤ 0) ∧
    (∃ (s : State) (m : Chip) (a : BitVec 32), Accepts s 0 7 a.toNat true false 0 m 0 ∧ svcDebug m = true) ∧
    (∃ (s : State) (m : Chip) (a : BitVec 32), Accepts s 0 7 a.toNat false false 0 m 0 ∧ svcDebug m = true) ∧
    (∃ (s : State) (m : Chip) (w : Bool) (a : BitVec 32), Accepts s 0 7 a.toNat w false 0 m 0 ∧ svcDebug m = false) :=
  ⟨⟨at_ 0 ({ r0 with life := 1 }), _, finds (by decide +kernel), by decide +kernel⟩,
   ⟨at_ 0 r0, _, finds (by decide +kernel), by decide +kernel⟩,
   ⟨at_ 0 r0, _, 1, finds (by decide +kernel), by decide +kernel⟩,
   ⟨at_ 0 (updTriad r0 fun x => { x with session := some 0 }), _, 0, finds (by decide +kernel), by decide +kernel⟩,
   ⟨at_ 0 r0, took 0 _ _ _ _, 0x40000000, accepts (by decide +kernel), by decide +kernel⟩,
   ⟨at_ 0 r0, took 0 _ _ _ _, 0x40000000, accepts (by decide +kernel), by decide +kernel⟩,
   ⟨at_ 0 ({ r0 with life := 1 }), took 0 _ _ _ _, true, 0x40000000, accepts (by decide +kernel), by decide +kernel⟩⟩

theorem witness_PairToken :
    (∃ (s : State) (m : Chip) (n : Nat) (flt : Bool), FindsAny s 0 m 0 ∧ coreOn m = true ∧ 2 + 2 * pairId m ≤ n ∧ mayClaim m 0 flt = true) ∧
    (∃ (s : State) (m : Chip) (d : Nat), FindsAny s 0 m 0 ∧ coreOn m = true ∧ m.pair.release = some d ∧ m.pair.active = true ∧ d ≤ 0) ∧
    (∃ (s : State) (m : Chip) (k : Nat), FindsAny s 0 m 0 ∧ coreOn m = true ∧ m.pair.active = true ∧ 8 ≤ k) ∧
    (∃ (s : State) (m : Chip) (d : Nat), FindsAny s 0 m 0 ∧ coreOn m = true ∧ m.pair.accept = some d ∧ d ≤ 0) ∧
    (∃ (s : State) (m : Chip), FindsAny s 0 m 0 ∧ coreOn m = true ∧ m.pair.handing = 2) ∧
    (∃ (s : State) (m : Chip), FindsAny s 0 m (1000 * ms) ∧ m.pair.active = true ∧ (cdiv (3 * bcycLen m) 30520 + 1) * 1953125 ≤
      ((1000 * ms) - m.pair.lease) * 16) ∧
    (∃ (s : State) (m : Chip) (d : Nat), FindsAny s 0 m 0 ∧ m.pair.holdoff = some d ∧ d ≤ 0) :=
  ⟨⟨at_ 0 (updCfg (updSafe (updPair (rg [(A.PAIR_CFG, 1), (A.PAIR_CTRL, 1)]) fun x => { x with fit := true }) fun x =>
      { x with fault := false }) fun x => { x with bank := [.active, .empty] }), _, 4, true, findsAny, by decide +kernel⟩,
   ⟨at_ 0 (updPair r0 fun x => { x with release := some 0, active := true }), _, 0, findsAny, by decide +kernel⟩,
   ⟨at_ 0 (updPair r0 fun x => { x with active := true }), _, 8, findsAny, by decide +kernel⟩,
   ⟨at_ 0 (updPair r0 fun x => { x with accept := some 0 }), _, 0, findsAny, by decide +kernel⟩,
   ⟨at_ 0 (updPair r0 fun x => { x with handing := 2 }), _, findsAny, by decide +kernel⟩,
   ⟨at_ (1000 * ms) (updPair r0 fun x => { x with active := true, lease := 0 }), _, findsAny, by decide +kernel⟩,
   ⟨at_ 0 (updPair r0 fun x => { x with holdoff := some 0 }), _, 0, findsAny, by decide +kernel⟩⟩

theorem witness_PairCycleAndImage :
    (∃ (s : State) (m : Chip) (k : Nat) (b : Nat), Finds s 0 m (1000 * us) ∧ m.pair.snap = some (k, b) ∧ pairEn m = true ∧ b + fld m
      A.PAIR_TIMING 8 8 * us ≤ (1000 * us) ∧ sget m.pair.own k = none) ∧
    (∃ (s : State) (m : Chip), Finds s 0 m 0 ∧ pairEn m = true) ∧
    (∃ (s : State) (m : Chip) (k : Nat) (b : Nat) (bad : Nat) (p : Bool) (q : Bool) (e : Bool), Finds s 0 m (200 * us) ∧ m.pair.check =
      some (k, b) ∧ m.pair.ownRes = none ∧ b + 200 * us ≤ (200 * us) ∧ (bad = (b2n (!p) + 2 * b2n (!q) + 4 * b2n (!e) + 8 * b2n (decide
      (2 ≤ m.triad.mode)) + 16 * b2n (m.safe.q.any fun x => 2 ≤ x.sev)))) ∧
    (∃ (s : State) (m : Chip) (x : Nat × Nat), Finds s 0 m (250 * us) ∧ m.pair.check = some x ∧ m.pair.parRes = none ∧ x.2 + 250 * us ≤
      (250 * us)) ∧
    (∃ (s : State) (m : Chip) (l : CfgLoad), Finds s 0 m 0 ∧ m.cfg.load = some l) ∧
    (∃ (s : State) (m : Chip) (p : CfgPend), Finds s 0 m 0 ∧ m.cfg.pend = some p ∧ p.due = true) ∧
    (∃ (s : State) (m : Chip), Finds s 0 m 1 ∧ m.cfg.gclDue = true ∧ m.cfg.actLt < 1) :=
  ⟨⟨at_ (1000 * us) (updPair (rg [(A.PAIR_CFG, 1)]) fun x => { x with snap := some (0, 0) }), _, 0, 0, finds (by decide +kernel),
      by decide +kernel⟩,
   ⟨at_ 0 (rg [(A.PAIR_CFG, 1)]), _, finds (by decide +kernel), by decide +kernel⟩,
   ⟨at_ (200 * us) (updPair r0 fun x => { x with check := some (0, 0), ownRes := none }), _, 0, 0, 0, true, true, true, finds
      (by decide +kernel), by decide +kernel⟩,
   ⟨at_ (250 * us) (updPair r0 fun x => { x with check := some (0, 0), parRes := none }), _, (0, 0), finds (by decide +kernel),
      by decide +kernel⟩,
   ⟨at_ 0 (updCfg r0 fun x => { x with load := some { bank := 0, hdr := [], body := [] } }), _, { bank := 0, hdr := [], body := [] },
      finds (by decide +kernel), by decide +kernel⟩,
   ⟨at_ 0 (updCfg r0 fun x => { x with pend := some aPend }), _, aPend, finds (by decide +kernel), by decide +kernel⟩,
   ⟨at_ 1 (updCfg r0 fun x => { x with gclDue := true }), _, finds (by decide +kernel), by decide +kernel⟩⟩

theorem witness_PowerRegister :
    (∃ (s : State) (m : Chip) (who : Fin 8) (d : Word), Writes s 0 0 m 0 who (A.GLB_RST_CMD) (d.toNat)) ∧
    (∃ (s : State) (m : Chip) (who : Fin 8) (d : Word), Writes s 0 0 m 0 who (irqRoute 0) (d.toNat)) ∧
    (∃ (s : State) (m : Chip) (who : Fin 8) (d : Word), Writes s 0 0 m 0 who (irqRoute 1) (d.toNat)) ∧
    (∃ (s : State) (m : Chip) (who : Fin 8) (a : Fin 4) (d : Word), Writes s 0 0 m 0 who (irqRoute a) (d.toNat) ∧ 2 ≤ a.val) ∧
    (∃ (s : State) (m : Chip) (who : Fin 8), Writes s 0 0 m 0 who (A.PWR_CMD) (1)) ∧
    (∃ (s : State) (m : Chip) (who : Fin 8), Writes s 0 0 m 0 who (A.PWR_CMD) (2)) ∧
    (∃ (s : State) (m : Chip) (who : Fin 8) (k : Fin 16) (d : Word), Writes s 0 0 m 0 who (A.PWR_DOM_CTRL) (d.toNat) ∧ d = BitVec.ofNat 32
      (setBits (rdN m A.PWR_DOM_CTRL) k 1 1)) ∧
    (∃ (s : State) (m : Chip) (who : Fin 8) (k : Fin 16) (d : Word), Writes s 0 0 m 0 who (A.PWR_DOM_CTRL) (d.toNat) ∧ d = BitVec.ofNat 32
      (setBits (rdN m A.PWR_DOM_CTRL) k 1 0)) :=
  ⟨⟨at_ 0 r0, seen 0 _ _ _, 2, 0xC0DE0001, writes (by decide +kernel)⟩,
   ⟨at_ 0 r0, seen 0 _ _ _, 2, 5, writes (by decide +kernel)⟩,
   ⟨at_ 0 r0, seen 0 _ _ _, 2, 5, writes (by decide +kernel)⟩,
   ⟨at_ 0 r0, seen 0 _ _ _, 2, 2, 5, writes (by decide +kernel), by decide +kernel⟩,
   ⟨at_ 0 r0, seen 0 _ _ _, 2, writes (by decide +kernel)⟩,
   ⟨at_ 0 r0, seen 0 _ _ _, 2, writes (by decide +kernel)⟩,
   ⟨at_ 0 r0, seen 0 _ _ _, 2, 2, BitVec.ofNat 32 (setBits (rdN (canSettle r0 0) A.PWR_DOM_CTRL) 2 1 1), writes (by decide +kernel),
      by decide +kernel⟩,
   ⟨at_ 0 r0, seen 0 _ _ _, 2, 2, BitVec.ofNat 32 (setBits (rdN (canSettle r0 0) A.PWR_DOM_CTRL) 2 1 0), writes (by decide +kernel),
      by decide +kernel⟩⟩

theorem witness_PortRegister :
    (∃ (s : State) (m : Chip) (who : Fin 8) (p : Fin 20), Writes s 0 0 m 0 who (A.MAC_PCNT_CLR p) (1) ∧ p.val < 16) ∧
    (∃ (s : State) (m : Chip) (who : Fin 8) (p : Fin 20), Writes s 0 0 m 0 who (A.MAC_PCNT_CLR p) (1) ∧ 16 ≤ p.val) ∧
    (∃ (s : State) (m : Chip) (who : Fin 8) (p : Fin 20) (d : Word), Writes s 0 0 m 0 who (A.MAC_PCFG p) (d.toNat) ∧ d = BitVec.ofNat 32
      (setBits (rdN m (A.MAC_PCFG p)) 0 1 0) ∧ flag m (A.MAC_PCFG p) 0 = true) ∧
    (∃ (s : State) (m : Chip) (who : Fin 8) (e : Fin 8), Writes s 0 0 m 0 who (A.MAC_PT1_CTRL (8 + e)) (1)) ∧
    (∃ (s : State) (m : Chip) (who : Fin 8) (e : Fin 8), Writes s 0 0 m 0 who (A.MAC_PT1_CTRL (8 + e)) (2)) ∧
    (∃ (s : State) (m : Chip) (who : Fin 8) (p : Fin 16) (d : Word), Writes s 0 0 m 0 who (A.MACSEC_TXSC_CFG p) (d.toNat)) :=
  ⟨⟨at_ 0 r0, seen 0 _ _ _, 2, 0, writes (by decide +kernel), by decide +kernel⟩,
   ⟨at_ 0 r0, seen 0 _ _ _, 2, 16, writes (by decide +kernel), by decide +kernel⟩,
   ⟨at_ 0 (rg [(A.MAC_PCFG 0, 1)]), seen 0 _ _ _, 2, 0, 0, writes (by decide +kernel), by decide +kernel⟩,
   ⟨at_ 0 r0, seen 0 _ _ _, 2, 0, writes (by decide +kernel)⟩,
   ⟨at_ 0 r0, seen 0 _ _ _, 2, 0, writes (by decide +kernel)⟩,
   ⟨at_ 0 r0, seen 0 _ _ _, 2, 0, 1, writes (by decide +kernel)⟩⟩

theorem witness_ParserRegister :
    (∃ (s : State) (m : Chip) (who : Fin 8) (d : Word), Writes s 0 0 m 0 who (A.PRS_LANE_CFG) (d.toNat)) ∧
    (∃ (s : State) (m : Chip) (who : Fin 8), Writes s 0 0 m 0 who (A.PRS_LANE_CTRL) (1)) ∧
    (∃ (s : State) (m : Chip) (who : Fin 8) (k : Fin 16) (staged : Bool), Writes s 0 0 m 0 who (A.PRS_TBL_CMD)
      ((tblWord k 0 staged).toNat)) ∧
    (∃ (s : State) (m : Chip) (who : Fin 8) (k : Fin 16) (staged : Bool), Writes s 0 0 m 0 who (A.PRS_TBL_CMD)
      ((tblWord k 1 staged).toNat)) ∧
    (∃ (s : State) (m : Chip) (who : Fin 8) (k : Fin 16) (staged : Bool), Writes s 0 0 m 0 who (A.PRS_TBL_CMD)
      ((tblWord k 2 staged).toNat)) ∧
    (∃ (s : State) (m : Chip) (who : Fin 8) (k : Fin 16) (staged : Bool), Writes s 0 0 m 0 who (A.PRS_TBL_CMD)
      ((tblWord k 3 staged).toNat)) ∧
    (∃ (s : State) (m : Chip) (who : Fin 8) (k : Fin 16) (staged : Bool), Writes s 0 0 m 0 who (A.PRS_TBL_CMD)
      ((tblWord k 4 staged).toNat)) ∧
    (∃ (s : State) (m : Chip) (who : Fin 8) (k : Fin 16) (staged : Bool), Writes s 0 0 m 0 who (A.PRS_TBL_CMD)
      ((tblWord k 5 staged).toNat)) ∧
    (∃ (s : State) (m : Chip) (who : Fin 8), Writes s 0 0 m 0 who (A.PRS_CT_CMD) ((ctWord 0).toNat)) ∧
    (∃ (s : State) (m : Chip) (who : Fin 8), Writes s 0 0 m 0 who (A.PRS_CT_CMD) ((ctWord 1).toNat)) ∧
    (∃ (s : State) (m : Chip) (who : Fin 8), Writes s 0 0 m 0 who (A.PRS_CT_CMD) ((ctWord 2).toNat)) ∧
    (∃ (s : State) (m : Chip) (who : Fin 8), Writes s 0 0 m 0 who (A.PRS_CT_CMD) ((ctWord 3).toNat)) :=
  ⟨⟨at_ 0 r0, seen 0 _ _ _, 2, 0x10A, writes (by decide +kernel)⟩,
   ⟨at_ 0 r0, seen 0 _ _ _, 2, writes (by decide +kernel)⟩,
   ⟨at_ 0 r0, seen 0 _ _ _, 2, 0, false, writes (by decide +kernel)⟩,
   ⟨at_ 0 r0, seen 0 _ _ _, 2, 0, false, writes (by decide +kernel)⟩,
   ⟨at_ 0 r0, seen 0 _ _ _, 2, 0, false, writes (by decide +kernel)⟩,
   ⟨at_ 0 r0, seen 0 _ _ _, 2, 0, false, writes (by decide +kernel)⟩,
   ⟨at_ 0 r0, seen 0 _ _ _, 2, 0, false, writes (by decide +kernel)⟩,
   ⟨at_ 0 r0, seen 0 _ _ _, 2, 0, false, writes (by decide +kernel)⟩,
   ⟨at_ 0 r0, seen 0 _ _ _, 2, writes (by decide +kernel)⟩,
   ⟨at_ 0 r0, seen 0 _ _ _, 2, writes (by decide +kernel)⟩,
   ⟨at_ 0 r0, seen 0 _ _ _, 2, writes (by decide +kernel)⟩,
   ⟨at_ 0 r0, seen 0 _ _ _, 2, writes (by decide +kernel)⟩⟩

theorem witness_SchedulerRegister :
    (∃ (s : State) (m : Chip) (who : Fin 8) (p : Fin 24) (e : Nat), Writes s 0 0 m 0 who (A.TM_PORT_CMD p) (1) ∧ tmPort m p = .hold e) ∧
    (∃ (s : State) (m : Chip) (who : Fin 8) (p : Fin 24) (d : Word), Writes s 0 0 m 0 who (A.TM_SCH_PORT_CFG p) (d.toNat)) ∧
    (∃ (s : State) (m : Chip) (who : Fin 8) (p : Fin 24) (c : Fin 8) (d : Word), Writes s 0 0 m 0 who (A.TM_SCH_Q_CFG p c) (d.toNat)) ∧
    (∃ (s : State) (m : Chip) (who : Fin 8) (p : Fin 24) (c : Fin 8) (d : Word), Writes s 0 0 m 0 who (A.TM_CBS_CFG p c) (d.toNat)) ∧
    (∃ (s : State) (m : Chip) (who : Fin 8) (p : Fin 24) (d : Word), Writes s 0 0 m 0 who (A.TM_PURSE_CFG p) (d.toNat)) :=
  ⟨⟨at_ 0 (updTm r0 fun x => { x with ports := [.hold 0] }), seen 0 _ _ _, 2, 0, 0, writes (by decide +kernel), by decide +kernel⟩,
   ⟨at_ 0 r0, seen 0 _ _ _, 2, 0, 0, writes (by decide +kernel)⟩,
   ⟨at_ 0 r0, seen 0 _ _ _, 2, 0, 0, 1538, writes (by decide +kernel)⟩,
   ⟨at_ 0 r0, seen 0 _ _ _, 2, 0, 0, 0, writes (by decide +kernel)⟩,
   ⟨at_ 0 r0, seen 0 _ _ _, 2, 0, 0, writes (by decide +kernel)⟩⟩

theorem witness_TimeRegister :
    (∃ (s : State) (m : Chip) (who : Fin 8) (k : Fin 2) (d : Word), Writes s 0 0 m 0 who (A.TIME_Dd_RATE k) (d.toNat)) ∧
    (∃ (s : State) (m : Chip) (who : Fin 8) (k : Fin 2), Writes s 0 0 m 0 who (A.TIME_Dd_ADJ_CMD k) (1)) ∧
    (∃ (s : State) (m : Chip) (who : Fin 8) (d : Word), Writes s 0 0 m 0 who (A.TIME_CFG) (d.toNat)) ∧
    (∃ (s : State) (m : Chip) (who : Fin 8), Writes s 0 0 m 0 who (A.TIME_CMD) (1)) ∧
    (∃ (s : State) (m : Chip) (who : Fin 8), Writes s 0 0 m 0 who (A.TIME_TXTS_POP) (1)) :=
  ⟨⟨at_ 0 r0, seen 0 _ _ _, 2, 0, 5, writes (by decide +kernel)⟩,
   ⟨at_ 0 r0, seen 0 _ _ _, 2, 0, writes (by decide +kernel)⟩,
   ⟨at_ 0 r0, seen 0 _ _ _, 2, 0x104, writes (by decide +kernel)⟩,
   ⟨at_ 0 r0, seen 0 _ _ _, 2, writes (by decide +kernel)⟩,
   ⟨at_ 0 r0, seen 0 _ _ _, 2, writes (by decide +kernel)⟩⟩

theorem witness_GateRegister :
    (∃ (s : State) (m : Chip) (who : Fin 8) (p : Fin 20) (d : Word), Writes s 0 0 m 0 who (A.GATE_PCTL p) (d.toNat) ∧ d = BitVec.ofNat 32
      (fld m (A.GATE_PCTL p) 0 1 + 2)) ∧
    (∃ (s : State) (m : Chip) (who : Fin 8) (p : Fin 20) (d : Word), Writes s 0 0 m 0 who (A.GATE_PCTL p) (d.toNat) ∧ d = BitVec.ofNat 32
      (fld m (A.GATE_PCTL p) 0 1 + 4)) ∧
    (∃ (s : State) (m : Chip) (who : Fin 8) (p : Fin 20), Writes s 0 0 m 0 who (A.GATE_PCTL p) (0) ∧ flag m (A.GATE_PCTL p) 0 = true) ∧
    (∃ (s : State) (m : Chip) (who : Fin 8) (f : Fin 1024) (w : Fin 4) (d : Word), Writes s 0 0 m 0 who (A.GATE_RCVY0 f + 4 * w.val)
      (d.toNat)) ∧
    (∃ (s : State) (m : Chip) (who : Fin 8) (f : Fin 1024) (w : Fin 4), Reaches s 0 0 m 0 who (A.GATE_RCVY0 f + 4 * w.val) .ok ∧ w ≠ 0) :=
  ⟨⟨at_ 0 r0, seen 0 _ _ _, 2, 0, 2, writes (by decide +kernel), by decide +kernel⟩,
   ⟨at_ 0 r0, seen 0 _ _ _, 2, 0, 4, writes (by decide +kernel), by decide +kernel⟩,
   ⟨at_ 0 (rg [(A.GATE_PCTL 0, 1)]), seen 0 _ _ _, 2, 0, writes (by decide +kernel), by decide +kernel⟩,
   ⟨at_ 0 r0, seen 0 _ _ _, 2, 1023, 0, 0x00010002, writes (by decide +kernel)⟩,
   ⟨at_ 0 r0, seen 0 _ _ _, 2, 1023, 3, reaches (by decide +kernel), by decide +kernel⟩⟩

theorem witness_CryptoRegister :
    (∃ (s : State) (m : Chip) (who : Fin 8) (c : Fin 10), Writes s 0 0 m 0 who (A.MINT_CORE_CTRL c) (1)) ∧
    (∃ (s : State) (m : Chip) (who : Fin 8) (c : Fin 10), Writes s 0 0 m 0 who (A.MINT_CORE_CTRL c) (2) ∧ (coreOf m c).quar = false ∧
      coreBusy m c = false ∧ (coreOf m c).resv = false) ∧
    (∃ (s : State) (m : Chip) (who : Fin 8) (c : Fin 10), Writes s 0 0 m 0 who (A.MINT_CORE_CTRL c) (2) ∧ (coreOf m c).quar = false ∧
      coreBusy m c = false ∧ (coreOf m c).resv = true) ∧
    (∃ (s : State) (m : Chip) (who : Fin 8) (c : Fin 10), Writes s 0 0 m 0 who (A.MINT_CORE_CTRL c) (2) ∧ (coreOf m c).quar = false ∧
      coreBusy m c = true) ∧
    (∃ (s : State) (m : Chip) (who : Fin 8) (c : Fin 10), Writes s 0 0 m 0 who (A.MINT_CORE_CTRL c) (2) ∧ (coreOf m c).quar = true) ∧
    (∃ (s : State) (m : Chip) (who : Fin 8), Writes s 0 0 m 0 who (A.VAULT_CTRL) (1)) :=
  ⟨⟨at_ 0 (updCore r0 0 fun x => { x with quar := true }), seen 0 _ _ _, 2, 0, writes (by decide +kernel)⟩,
   ⟨at_ 0 r0, seen 0 _ _ _, 2, 0, writes (by decide +kernel), by decide +kernel⟩,
   ⟨at_ 0 (updCore r0 0 fun x => { x with resv := true }), seen 0 _ _ _, 2, 0, writes (by decide +kernel), by decide +kernel⟩,
   ⟨at_ 0 (updMint r0 fun x => { x with jobs := [aJob] }), seen 0 _ _ _, 2, 0, writes (by decide +kernel), by decide +kernel⟩,
   ⟨at_ 0 (updCore r0 0 fun x => { x with quar := true }), seen 0 _ _ _, 2, 0, writes (by decide +kernel), by decide +kernel⟩,
   ⟨at_ 0 r0, seen 0 _ _ _, 2, writes (by decide +kernel)⟩⟩

theorem witness_FieldBusRegister :
    (∃ (s : State) (m : Chip) (who : Fin 8) (d : Word), Writes s 0 0 m 0 who (A.CAN_TX_CANCEL) (d.toNat)) ∧
    (∃ (s : State) (m : Chip) (who : Fin 8) (c : Fin 16), Writes s 0 0 m 0 who (A.CAN_CMD c) (1) ∧ (canOf m c).st = 2 ∧ flag m
      (A.CAN_CH_CFG c) 5 = true) ∧
    (∃ (s : State) (m : Chip) (who : Fin 8) (c : Fin 8) (k : Fin 4) (run : Bool), Writes s 0 0 m 0 who (A.LIN_SCHED_CMD c)
      (k.val + 4 * b2n run)) ∧
    (∃ (s : State) (m : Chip) (who : Fin 8) (c : Fin 8) (d : Word), Writes s 0 0 m 0 who (A.LIN_SCHED_CMD c) (d.toNat) ∧ d = BitVec.ofNat
      32 (fld m (A.LIN_SCHED_CMD c) 0 3 + 8) ∧ (linOf m c).running = true ∧ linEn m c = true ∧ chanGuarded m (16 + c) = false) ∧
    (∃ (s : State) (m : Chip) (who : Fin 8) (k : Fin 16) (staged : Bool), Writes s 0 0 m 0 who (A.SGE_TBL_CMD)
      ((tblWord k 0 staged).toNat)) ∧
    (∃ (s : State) (m : Chip) (who : Fin 8) (k : Fin 16) (staged : Bool), Writes s 0 0 m 0 who (A.SGE_TBL_CMD)
      ((tblWord k 1 staged).toNat)) ∧
    (∃ (s : State) (m : Chip) (who : Fin 8) (f : Fin 1024), Writes s 0 0 m 0 who (A.SGE_FRESH_CMD) ((freshWord f 0).toNat)) ∧
    (∃ (s : State) (m : Chip) (who : Fin 8) (f : Fin 1024), Writes s 0 0 m 0 who (A.SGE_FRESH_CMD) ((freshWord f 1).toNat)) ∧
    (∃ (s : State) (m : Chip) (who : Fin 8), Writes s 0 0 m 0 who (A.SGE_FRESH_CMD) ((freshWord 0 2).toNat)) ∧
    (∃ (s : State) (m : Chip) (who : Fin 8) (run : Bool), Writes s 0 0 m 0 who (A.SGE_CTRL) (b2n run)) :=
  ⟨⟨at_ 0 r0, seen 0 _ _ _, 2, 1, writes (by decide +kernel)⟩,
   ⟨at_ 0 (updCan (rg [(A.CAN_CH_CFG 0, 0x20)]) 0 fun x => { x with st := 2 }), seen 0 _ _ _, 2, 0, writes (by decide +kernel),
      by decide +kernel⟩,
   ⟨at_ 0 r0, seen 0 _ _ _, 2, 0, 0, true, writes (by decide +kernel)⟩,
   ⟨at_ 0 (updLin (rg [(A.LIN_CH_CFG 0, 1)]) 0 fun x => { x with running := true }), seen 0 _ _ _, 2, 0, 8, writes (by decide +kernel),
      by decide +kernel⟩,
   ⟨at_ 0 r0, seen 0 _ _ _, 2, 0, false, writes (by decide +kernel)⟩,
   ⟨at_ 0 r0, seen 0 _ _ _, 2, 0, false, writes (by decide +kernel)⟩,
   ⟨at_ 0 r0, seen 0 _ _ _, 2, 0, writes (by decide +kernel)⟩,
   ⟨at_ 0 r0, seen 0 _ _ _, 2, 0, writes (by decide +kernel)⟩,
   ⟨at_ 0 r0, seen 0 _ _ _, 2, writes (by decide +kernel)⟩,
   ⟨at_ 0 r0, seen 0 _ _ _, 2, true, writes (by decide +kernel)⟩⟩

theorem witness_RingRegister :
    (∃ (s : State) (m : Chip) (who : Fin 8) (r : Fin 64) (i : BitVec 17), Writes s 0 0 m 0 who (A.HIF_DB r) (i.toNat)) ∧
    (∃ (s : State) (m : Chip) (who : Fin 8) (r : Fin 64), Writes s 0 0 m 0 who (A.HIF_RING_CTRL r) (1) ∧ ringEn m r = true ∧
      (ringOf m r).stopped = false) ∧
    (∃ (s : State) (m : Chip) (who : Fin 8) (r : Fin 64), Writes s 0 0 m 0 who (A.HIF_RING_CTRL r) (2) ∧ (ringOf m r).err = 0) ∧
    (∃ (s : State) (m : Chip) (who : Fin 8) (r : Fin 64), Writes s 0 0 m 0 who (A.HIF_RING_CTRL r) (4)) ∧
    (∃ (s : State) (m : Chip) (who : Fin 8) (r : Fin 64), Writes s 0 0 m 0 who (A.HIF_RING_CTRL r) (8)) ∧
    (∃ (s : State) (m : Chip) (who : Fin 8) (r : Fin 64) (d : Word), Writes s 0 0 m 0 who (A.HIF_RING_CFG r) ((d ||| 1).toNat) ∧ flag m
      (A.HIF_RING_CFG r) 0 = false) ∧
    (∃ (s : State) (m : Chip) (who : Fin 8) (r : Fin 64) (d : Word), Writes s 0 0 m 0 who (A.HIF_RING_CFG r) ((d &&& 0xFFFFFFFE).toNat) ∧
      flag m (A.HIF_RING_CFG r) 0 = true) :=
  ⟨⟨at_ 0 r0, seen 0 _ _ _, 2, 0, 0, writes (by decide +kernel)⟩,
   ⟨at_ 0 (rg [(A.HIF_RING_CFG 0, 1)]), seen 0 _ _ _, 2, 0, writes (by decide +kernel), by decide +kernel⟩,
   ⟨at_ 0 (updRing r0 0 fun x => { x with stopped := true }), seen 0 _ _ _, 2, 0, writes (by decide +kernel), by decide +kernel⟩,
   ⟨at_ 0 (updRing r0 0 fun x => { x with stopped := true }), seen 0 _ _ _, 2, 0, writes (by decide +kernel)⟩,
   ⟨at_ 0 (updRing r0 0 fun x => { x with stopped := true }), seen 0 _ _ _, 2, 0, writes (by decide +kernel)⟩,
   ⟨at_ 0 r0, seen 0 _ _ _, 2, 0, 0, writes (by decide +kernel), by decide +kernel⟩,
   ⟨at_ 0 (updRing (rg [(A.HIF_RING_CFG 0, 1)]) 0 fun x => { x with stopped := true }), seen 0 _ _ _, 2, 0, 0, writes
      (by decide +kernel), by decide +kernel⟩⟩

theorem witness_SafetyRegister :
    (∃ (s : State) (m : Chip) (who : Fin 8) (d : Word), Writes s 0 0 m 0 who (A.LEDGER_CFG) (d.toNat)) ∧
    (∃ (s : State) (m : Chip) (who : Fin 8) (d : Word), Writes s 0 0 m 0 who (A.LEDGER_EXPORT_CFG) ((d ||| 0x40).toNat) ∧ flag m
      A.LEDGER_EXPORT_CFG 6 = false) ∧
    (∃ (m : Chip), flag m A.LEDGER_EXPORT_CFG 6 = false) ∧
    (∃ (s : State) (m : Chip) (who : Fin 8), Writes s 0 0 m 0 who (A.BRG_PWE_POP) (1)) ∧
    (∃ (s : State) (m : Chip) (who : Fin 8), Writes s 0 0 m cyc who (A.SAFE_EC_ACK) (1)) ∧
    (∃ (s : State) (m : Chip) (who : Fin 8), Writes s 0 0 m 0 who (A.SAFE_EC_OVF_CLR) (1) ∧ m.safe.q.length < 64) ∧
    (∃ (s : State) (m : Chip) (who : Fin 8), Writes s 0 0 m 0 who (A.SAFE_FAULT_CTRL) (1)) ∧
    (∃ (s : State) (m : Chip) (who : Fin 8), Writes s 0 0 m (1000 * ms) who (A.SAFE_FAULT_CTRL) (2)) ∧
    (∃ (s : State) (m : Chip) (who : Fin 8) (w : Fin 32768) (d : Word), Reaches s 0 0 m 0 who (A.TRIAD_LOAD_WINDOW w) .ok ∧ safeCheck m 0
      who (A.TRIAD_LOAD_WINDOW w) d.toNat = 0) ∧
    (∃ (s : State) (m : Chip) (who : Fin 8), Writes s 0 0 m 0 who (A.CFG_TRIAD_GO) (1)) ∧
    (∃ (s : State) (m : Chip) (who : Fin 8) (d : Word), Writes s 0 0 m 0 who (A.TRIAD_WDT_KICK) (d.toNat)) ∧
    (∃ (s : State) (m : Chip) (who : Fin 8), Writes s 0 0 m 0 who (A.TRIAD_CWDT_KICK) (1) ∧ m.triad.ckick.isSome = true) :=
  ⟨⟨at_ 0 r0, seen 0 _ _ _, 2, 0x10000, writes (by decide +kernel)⟩,
   ⟨at_ 0 r0, seen 0 _ _ _, 2, 0x10000, writes (by decide +kernel), by decide +kernel⟩,
   ⟨r0, by decide +kernel⟩,
   ⟨at_ 0 (updBrg r0 fun x => { x with pwe := [aPwe] }), seen 0 _ _ _, 2, writes (by decide +kernel)⟩,
   ⟨at_ cyc (updSafe r0 fun x => { x with q := [anErr] }), seen cyc _ _ _, 6, writes (by decide +kernel)⟩,
   ⟨at_ 0 r0, seen 0 _ _ _, 6, writes (by decide +kernel), by decide +kernel⟩,
   ⟨at_ 0 r0, seen 0 _ _ _, 6, writes (by decide +kernel)⟩,
   ⟨at_ (1000 * ms) r0, seen (1000 * ms) _ _ _, 6, writes (by decide +kernel)⟩,
   ⟨at_ 0 r0, seen 0 _ _ _, 2, 0, 0, reaches (by decide +kernel), by decide +kernel⟩,
   ⟨at_ 0 r0, seen 0 _ _ _, 2, writes (by decide +kernel)⟩,
   ⟨at_ 0 r0, seen 0 _ _ _, 6, 5, writes (by decide +kernel)⟩,
   ⟨at_ 0 (updTriad r0 fun x => { x with ckick := some 0 }), seen 0 _ _ _, 2, writes (by decide +kernel), by decide +kernel⟩⟩

theorem witness_LifecycleAndPairRegister :
    (∃ (s : State) (m : Chip) (who : Fin 8), Writes s 0 0 m 0 who (A.DBG_LC_CMD) (2)) ∧
    (∃ (s : State) (m : Chip) (who : Fin 8), Writes s 0 0 m 0 who (A.DBG_LC_CMD) (1)) ∧
    (∃ (s : State) (m : Chip) (who : Fin 8), Writes s 0 0 m 0 who (A.DBG_LC_CMD) (4)) ∧
    (∃ (s : State) (m : Chip) (who : Fin 8), Writes s 0 0 m 0 who (A.PAIR_CMD) (2)) ∧
    (∃ (s : State) (m : Chip) (who : Fin 8), Writes s 0 0 m 0 who (A.PAIR_CMD) (1)) ∧
    (∃ (s : State) (m : Chip) (who : Fin 8), Writes s 0 0 m 0 who (A.PAIR_CMD) (4)) :=
  ⟨⟨at_ 0 r0, seen 0 _ _ _, 2, writes (by decide +kernel)⟩,
   ⟨at_ 0 r0, seen 0 _ _ _, 2, writes (by decide +kernel)⟩,
   ⟨at_ 0 r0, seen 0 _ _ _, 2, writes (by decide +kernel)⟩,
   ⟨at_ 0 (rg [(A.PAIR_CFG, 1)]), seen 0 _ _ _, 2, writes (by decide +kernel)⟩,
   ⟨at_ 0 (updPair (rg [(A.PAIR_CFG, 1)]) fun x => { x with active := true, pFlags := 22 }), seen 0 _ _ _, 2, writes (by decide +kernel)⟩,
   ⟨at_ 0 r0, seen 0 _ _ _, 2, writes (by decide +kernel)⟩⟩

theorem witness_ConfigurationRegister :
    (∃ (s : State) (m : Chip) (who : Fin 8), Writes s 0 0 m 0 who (A.CFG_CMD) (1)) ∧
    (∃ (s : State) (m : Chip) (who : Fin 8), Writes s 0 0 m 0 who (A.CFG_CMD) (2)) ∧
    (∃ (s : State) (m : Chip) (who : Fin 8), Writes s 0 0 m 0 who (A.CFG_CMD) (4)) ∧
    (∃ (s : State) (m : Chip) (who : Fin 8), Writes s 0 0 m 0 who (A.CFG_CMD) (8) ∧ bankOf m (1 - m.cfg.active) = .previous) ∧
    (∃ (s : State) (m : Chip) (who : Fin 8), Writes s 0 0 m 0 who (A.CFG_CMD) (16)) ∧
    (∃ (s : State) (m : Chip) (who : Fin 8), Writes s 0 0 m 0 who (A.CFG_CMD) (32)) ∧
    (∃ (s : State) (m : Chip) (who : Fin 8), Writes s 0 0 m 0 who (A.CFG_FW_CMD) (1)) ∧
    (∃ (s : State) (m : Chip) (who : Fin 8), Writes s 0 0 m 0 who (A.CFG_FW_CMD) (2)) ∧
    (∃ (s : State) (m : Chip) (who : Fin 8), Writes s 0 0 m 0 who (A.CFG_BOOT_CMD) (1)) ∧
    (∃ (s : State) (m : Chip) (who : Fin 8) (b : Fin 20), Writes s 0 0 m 0 who (errClr (Blk.all.getD b .glb)) 1) :=
  ⟨⟨at_ 0 r0, seen 0 _ _ _, 2, writes (by decide +kernel)⟩,
   ⟨at_ 0 r0, seen 0 _ _ _, 2, writes (by decide +kernel)⟩,
   ⟨at_ 0 (updCfg r0 fun x => { x with bank := [.active, .loaded] }), seen 0 _ _ _, 2, writes (by decide +kernel)⟩,
   ⟨at_ 0 (updCfg r0 fun x => { x with bank := [.active, .previous] }), seen 0 _ _ _, 2, writes (by decide +kernel), by decide +kernel⟩,
   ⟨at_ 0 (updCfg r0 fun x => { x with pend := some aPend }), seen 0 _ _ _, 2, writes (by decide +kernel)⟩,
   ⟨at_ 0 r0, seen 0 _ _ _, 2, writes (by decide +kernel)⟩,
   ⟨at_ 0 r0, seen 0 _ _ _, 2, writes (by decide +kernel)⟩,
   ⟨at_ 0 r0, seen 0 _ _ _, 2, writes (by decide +kernel)⟩,
   ⟨at_ 0 (rg [(A.HIF_LINK_STATUS, 2), (A.CFG_BOOT_STATUS, 4)]), seen 0 _ _ _, 0, writes (by decide +kernel)⟩,
   ⟨at_ 0 r0, seen 0 _ _ _, 2, 5, writes (by decide +kernel)⟩⟩

theorem witness_RegisterReads :
    (∃ (s : State) (m : Chip) (who : Fin 8) (a : BitVec 32) (b : Blk) (r : RegRow) (ix : List Nat), Accepts s 0 who a.toNat false false 0
      m 0 ∧ sends m who = true ∧ serviceDenied m who a.toNat false = false ∧ reach m a.toNat = .ok ∧ brgRange a.toNat = true ∧ regRow
      a.toNat = some (b, r, ix) ∧ wordPart b r ix = some false ∧ b ≠ .pair ∧ b ≠ .can) ∧
    (∃ (s : State) (m : Chip) (who : Fin 8) (a : BitVec 32) (b : Blk) (r : RegRow) (ix : List Nat), Accepts s 0 who a.toNat false false 0
      m 0 ∧ sends m who = true ∧ serviceDenied m who a.toNat false = false ∧ reach m a.toNat = .ok ∧ brgRange a.toNat = true ∧ regRow
      a.toNat = some (b, r, ix) ∧ wordPart b r ix = some true ∧ b ≠ .pair ∧ b ≠ .can) ∧
    (∃ (s : State) (m : Chip) (who : Fin 8) (p : Fin 20), Accepts s 0 who (A.MAC_PPRBS_ERR p) false false 0 m 0 ∧ sends m who = true ∧
      serviceDenied m who (A.MAC_PPRBS_ERR p) false = false ∧ reach m (A.MAC_PPRBS_ERR p) = .ok) :=
  ⟨⟨at_ 0 r0, took 0 _ _ _ _, 2, BitVec.ofNat 32 (Blk.base .time + 0x30), (regAt (Blk.base .time + 0x30)).1, (regAt
      (Blk.base .time + 0x30)).2.1, (regAt (Blk.base .time + 0x30)).2.2, accepts (by decide +kernel), by decide +kernel⟩,
   ⟨at_ 0 r0, took 0 _ _ _ _, 2, BitVec.ofNat 32 (Blk.base .time + 0x34), (regAt (Blk.base .time + 0x34)).1, (regAt
      (Blk.base .time + 0x34)).2.1, (regAt (Blk.base .time + 0x34)).2.2, accepts (by decide +kernel), by decide +kernel⟩,
   ⟨at_ 0 r0, took 0 _ _ _ _, 2, 19, accepts (by decide +kernel), by decide +kernel⟩⟩

theorem witness_ExclusiveAccesses :
    (∃ (s : State) (m : Chip) (h : Fin 5) (a : BitVec 32), Accepts s 0 (2 + h) a.toNat false false 0 m 0 ∧ brgRange a.toNat = true ∧ sends
      m (2 + h) = true ∧ reach m a.toNat = .ok) ∧
    (∃ (s : State) (m : Chip) (h : Fin 5) (a : BitVec 32), Accepts s 0 (2 + h) a.toNat true false 0 m 0 ∧ brgRange a.toNat = true ∧ sends
      m (2 + h) = true ∧ monHas m 0 (2 + h) a.toNat = true ∧ writeFails m a.toNat = false) ∧
    (∃ (s : State) (m : Chip) (h : Fin 5) (a : BitVec 32), Accepts s 0 (2 + h) a.toNat true false 0 m 0 ∧ brgRange a.toNat = true ∧ sends
      m (2 + h) = true ∧ monHas m 0 (2 + h) a.toNat = false) ∧
    (∃ (s : State) (m : Chip) (h : Fin 5) (a : BitVec 32) (x : Chip) (v : Nat), Accepts s 0 (2 + h) a.toNat true false 0 m 0 ∧ brgRange
      a.toNat = true ∧ sends m (2 + h) = true ∧ reach m a.toNat = .ok ∧ readTarget (monClear m a.toNat) 0 (2 + h) a.toNat = (x, v) ∧
      writeFails x a.toNat = false) :=
  ⟨⟨at_ 0 r0, took 0 _ _ _ _, 1, BitVec.ofNat 32 A.TIME_CFG, accepts (by decide +kernel), by decide +kernel⟩,
   ⟨at_ 0 (monArm r0 0 3 A.TIME_CFG), took 0 _ _ _ _, 1, BitVec.ofNat 32 A.TIME_CFG, accepts (by decide +kernel), by decide +kernel⟩,
   ⟨at_ 0 r0, took 0 _ _ _ _, 1, BitVec.ofNat 32 A.TIME_CFG, accepts (by decide +kernel), by decide +kernel⟩,
   ⟨at_ 0 r0, took 0 _ _ _ _, 1, BitVec.ofNat 32 A.TIME_CFG, (readTarget (monClear (took 0 r0 3 A.TIME_CFG false) A.TIME_CFG) 0 3
      A.TIME_CFG).1, (readTarget (monClear (took 0 r0 3 A.TIME_CFG false) A.TIME_CFG) 0 3 A.TIME_CFG).2, accepts (by decide +kernel),
      by decide +kernel⟩⟩

end

end Sys2Proof.Machine
end

/-! ## Every command answers a next state, and Ledger time never moves back (R14, R33, R840) -/

namespace Sys2Proof.Machine

/-! ### The LT at which a command happens -/

/-- The time of a tick is less than one tick of the crystal, 1,953,125 sixteenths of a count, before the LT of the command (R33). -/
theorem lt_tick_add (m : Chip) (a t : Nat) : t < a + (m.pwr.frac + 1953125 * ticks m a t) / 16 + 122071 := by
  unfold ticks
  omega

/-- Every command happens less than one tick of the crystal before its own LT (R33, R840). -/
theorem lt_when_add_tick (s : State) (t : Nat) : t < s.when_ t + 122071 := by
  unfold State.when_
  split
  · omega
  · split
    · simp only [cyc]; omega
    · split
      · omega
      · exact lt_tick_add s.chip s.lt t

/-- With FCLK running the next cycle is one FCLK cycle of 10 counts later (R840). -/
theorem when_nextLt_of_fclk (s : State) (h : s.chip.pwr.fclk = true) : s.when_ s.nextLt = s.lt + 10 := by
  simp [State.when_, State.nextLt, h, cyc]

/-- From a tick of the crystal to the next one there is one tick (R33). -/
theorem ticks_nextTick (m : Chip) (a : Nat) : ticks m a (a + (m.pwr.frac + 1953125) / 16) = 1 := by
  unfold ticks
  omega

/-- With FCLK off and the supply there, the next LT is that of the next tick of the crystal (R33). -/
theorem when_nextLt_of_crystal (s : State) (hf : s.chip.pwr.fclk = false) (ho : s.chip.pwr.mode ≠ .off) :
    s.when_ s.nextLt = s.lt + (s.chip.pwr.frac + 1953125) / 16 := by
  have hn : s.nextLt = s.lt + (s.chip.pwr.frac + 1953125) / 16 := by simp [State.nextLt, hf, ho]
  have hlate : ¬ s.nextLt ≤ s.lt := by omega
  simp only [State.when_, hlate, hf, beq_eq_false_iff_ne.2 ho, if_false, Bool.false_eq_true]
  rw [hn, ticks_nextTick]

/-! ### What every command answers -/

/-- Every command answers what it leaves of the device, as a state at an LT that is not before its own: `exec` has no arm that faults or
refuses. Each arm runs `State.run` at the LT of the command, at the one at which BRG accepts an access, or, for a first power-on, at one
not below the floor. -/
theorem exec_done (c : Instr) (s : State) : ∃ (u : Nat) (m : Chip), exec c s = .next (s.done u m) ∧ c.at ≤ u := by
  cases c <;> refine ⟨_, _, rfl, ?_⟩
  case powerOn t straps mvA mvB dir0 dir1 obj0 obj1 =>
    show t ≤ if s.chip.pwr.mode == .off then max t s.chip.pwr.floor else t
    split <;> omega
  all_goals simp only [Instr.at, le_refl, le_accept]

/-- A step answers what it leaves of the device; the front command leaves the queue, and LT has come to within a tick of it. -/
theorem step_next (s : State) : ∃ u, step s = .next u ∧ u.pending = s.pending.tail ∧ s.lt ≤ u.lt ∧
    ∀ c ∈ s.pending.head?, c.at < u.lt + 122071 := by
  unfold step
  cases hp : s.pending with
  | nil => exact ⟨_, rfl, hp, le_when s _, by simp⟩
  | cons c rest =>
    obtain ⟨u, m, hexec, hat⟩ := exec_done c { s with pending := rest }
    refine ⟨_, hexec, rfl, le_when _ u, ?_⟩
    simpa using hat.trans_lt (lt_when_add_tick { s with pending := rest } u)

/-- Settles O4: every arm of `exec` answers `State.done`, whose LT is that of the cycle or tick of the command or of a later one. -/
theorem everyCommandCompletes : Obligations.EveryCommandCompletes := by
  intro c s
  obtain ⟨u, m, hexec, hat⟩ := exec_done c s
  exact ⟨_, hexec, rfl, le_when s u, hat.trans_lt (lt_when_add_tick s u), fun hf => hat.trans_lt (when_cycle s u hf)⟩

/-- Settles O5, by induction on the queue: a step takes its front command, and LT does not move back behind it. -/
theorem queueRunsToItsEnd : Obligations.QueueRunsToItsEnd := by
  intro s
  generalize hq : s.pending = q
  induction q generalizing s with
  | nil => exact ⟨s, rfl, hq, le_refl _, by simp⟩
  | cons c rest ih =>
    obtain ⟨v, hstep, hpend, hlt, hfront⟩ := step_next s
    obtain ⟨u, hafter, hempty, hle, hrest⟩ := ih v (by rw [hpend, hq, List.tail_cons])
    refine ⟨u, by simp only [List.length_cons, after, hstep, hafter], hempty, hlt.trans hle, ?_⟩
    have hc : c.at < v.lt + 122071 := hfront c (by simp [hq])
    simpa using ⟨by omega, hrest⟩

/-- Settles O6: whatever a step does, LT is no less after it (R14). -/
theorem ledgerTimeNeverMovesBack : Obligations.LedgerTimeNeverMovesBack := by
  intro x s u hx hstep
  obtain ⟨v, hv, -, hle, -⟩ := step_next s
  obtain rfl : v = u := by simpa [hv] using hstep
  exact hx.trans hle

/-- Settles O2: a step of an empty queue runs `idleCycle`, whose LT is that of the next cycle or tick. -/
theorem emptyQueuePassesOneCycle : Obligations.EmptyQueuePassesOneCycle := by
  intro s hp
  have hstep : step s = s.core s.nextLt fun now m => canSettle m now := by
    unfold step
    rw [hp]
    rfl
  rw [hstep]
  exact ⟨core_on s _ _, core_off s _ _, when_nextLt_of_fclk s, when_nextLt_of_crystal s⟩

end Sys2Proof.Machine

/-! ## Bits of written words (R11, R12, R13), and the register file -/

namespace Sys2Proof.Machine

/-- Numbers with no bit in common add without a carry. -/
theorem add_eq_lor_of_land_eq_zero (a b : Nat) (h : a &&& b = 0) : a + b = a ||| b := by
  induction a using Nat.binaryRec generalizing b with
  | zero => simp
  | bit x a ih =>
    cases b using Nat.bitCasesOn with
    | bit y b =>
      rw [Nat.land_bit, Nat.bit_eq_zero_iff] at h
      obtain ⟨hab, hxy⟩ := h
      have hlow : (x || y).toNat = x.toNat + y.toNat := by
        revert hxy
        cases x <;> cases y <;> decide
      rw [Nat.lor_bit, ← ih b hab]
      simp only [Nat.bit_val, hlow]
      omega

/-- Clearing a mask is the bitwise difference. -/
theorem clearMask_eq_ldiff (w mask : Nat) : clearMask w mask = Nat.ldiff w mask := by
  have hdisj : (w &&& mask) &&& Nat.ldiff w mask = 0 :=
    Nat.eq_of_testBit_eq fun i => by
      simp only [Nat.testBit_land, Nat.testBit_ldiff, Nat.zero_testBit]
      cases w.testBit i <;> cases mask.testBit i <;> rfl
  have hjoin : (w &&& mask) ||| Nat.ldiff w mask = w :=
    Nat.eq_of_testBit_eq fun i => by
      simp only [Nat.testBit_land, Nat.testBit_lor, Nat.testBit_ldiff]
      cases w.testBit i <;> cases mask.testBit i <;> rfl
  have hsum := (add_eq_lor_of_land_eq_zero _ _ hdisj).trans hjoin
  show w - (w &&& mask) = Nat.ldiff w mask
  omega

@[simp] theorem testBit_clearMask (w mask i : Nat) :
    (clearMask w mask).testBit i = (w.testBit i && !mask.testBit i) := by
  rw [clearMask_eq_ldiff, Nat.testBit_ldiff]

/-- A bit of a number, in the library's words. -/
theorem bit_eq_testBit (w i : Nat) : bit w i = w.testBit i := by
  rw [Nat.testBit_eq_decide_div_mod_eq]
  rfl

/-- Replacing the bits of a mask: bit `i` is that of `new` inside the mask and that of `old` outside it. -/
theorem testBit_masked_add (old new mask i : Nat) :
    (clearMask old mask + Nat.land new mask).testBit i = if mask.testBit i then new.testBit i else old.testBit i := by
  have hdisj : clearMask old mask &&& (new &&& mask) = 0 :=
    Nat.eq_of_testBit_eq fun j => by
      simp only [Nat.testBit_land, testBit_clearMask, Nat.zero_testBit]
      cases mask.testBit j <;> simp
  have hsum : clearMask old mask + Nat.land new mask = clearMask old mask ||| (new &&& mask) :=
    add_eq_lor_of_land_eq_zero _ _ hdisj
  rw [hsum]
  simp only [Nat.testBit_land, Nat.testBit_lor, testBit_clearMask]
  cases mask.testBit i <;> simp

/-- The word of a write, bit by bit: a W1S bit written as 1 is set, a W1C bit written as 1 is clear unless it was set in this cycle, a bit
that takes the data has the data's, and the rest stays (R11, R12, R13). -/
theorem testBit_fieldsWritten (locked : Bool) (r : RegRow) (old data fresh i : Nat) :
    (fieldsWritten locked r old data fresh).testBit i =
      ((if (r.rw.testBit i || !locked && r.rwl.testBit i) then data.testBit i else old.testBit i) &&
          !(data.testBit i && r.w1c.testBit i && !fresh.testBit i) || data.testBit i && r.w1s.testBit i) := by
  have hw : (if locked then r.rw else r.rw ||| r.rwl).testBit i = (r.rw.testBit i || !locked && r.rwl.testBit i) := by
    cases locked <;> simp
  show (clearMask (clearMask old (if locked then r.rw else r.rw ||| r.rwl) + Nat.land data (if locked then r.rw else r.rw ||| r.rwl))
    (clearMask (data &&& r.w1c) fresh) ||| (data &&& r.w1s)).testBit i = _
  simp only [Nat.testBit_lor, Nat.testBit_land, testBit_clearMask, testBit_masked_add, hw]

/-- Settles O14: bit by bit, by the word that a write leaves. -/
theorem rwlFieldsStayAfterCommit : Obligations.RwlFieldsStayAfterCommit := by
  intro r old data fresh i
  refine ⟨fun hc hs => ⟨fun hrw => ?_, fun hrw => ?_⟩, fun hc hs hrwl => ?_⟩
  · simp [testBit_fieldsWritten, hc, hs, hrw]
  · simp [testBit_fieldsWritten, hc, hs, hrw]
  · simp [testBit_fieldsWritten, hc, hs, hrwl]

/-! ### The register file -/

/-- Storing a word keeps the form of the register file: rising addresses, and no word that equals its reset value. -/
theorem wr_regs_canonical (m : Chip) (a : Nat) (v : Word) (hr : rising m.regs = true)
    (hd : (m.regs.all fun p => p.2 != resetWord p.1) = true) :
    rising (wr m a v).regs = true ∧ ((wr m a v).regs.all fun p => p.2 != resetWord p.1) = true := by
  rw [List.all_eq_true] at hd ⊢
  simp only [wr_regs, sputD]
  split
  · exact ⟨rising_sdel _ a hr, fun p hp => hd p (List.mem_of_mem_filter hp)⟩
  · rename_i hv
    refine ⟨rising_sput _ a v hr, fun p hp => ?_⟩
    rcases mem_sput m.regs a v p hp with rfl | hp
    · simpa using hv
    · exact hd p hp

/-- Settles O10: read after write, frame and form of the register file, and the counter that a `bump` adds to. -/
theorem registerFileHoldsWhatIsWritten : Obligations.RegisterFileHoldsWhatIsWritten := by
  intro m a b k v
  exact ⟨rd_wr_same m a v, rd_wr_other m a b v, rfl, wr_regs_canonical m a v, cnt_setCnt_same m a _, cnt_setCnt_other m a b _⟩

end Sys2Proof.Machine

/-! ## The register map (R614, R802) -/

namespace Sys2Proof.Machine

/-! ### Blocks and their ranges -/

/-- The row of an address is of the block whose range holds it (R802). -/
theorem base_le_of_regRow {a : Nat} {b : Blk} {r : RegRow} {ix : List Nat} (h : regRow a = some (b, r, ix)) :
    b.base ≤ a ∧ a < b.base + b.size := by
  unfold regRow at h
  cases hb : blkOf a with
  | none => simp [hb] at h
  | some b' =>
    have hin := List.find?_some hb
    simp only [hb, Option.map_eq_some_iff, Prod.mk.injEq] at h
    obtain ⟨-, -, rfl, -⟩ := h
    simpa using hin

/-- The ranges of two blocks do not meet (R802). -/
theorem blocks_disjoint (b c : Blk) : b = c ∨ b.base + b.size ≤ c.base ∨ c.base + c.size ≤ b.base := by
  cases b <;> cases c <;> decide

/-- An address in the range of a block has no row in another one. -/
theorem not_in_other_block {a : Nat} {b : Blk} {r : RegRow} {ix : List Nat} (h : regRow a = some (b, r, ix)) (c : Blk) (hbc : b ≠ c) :
    ¬ (c.base ≤ a ∧ a < c.base + c.size) := by
  have hin := base_le_of_regRow h
  rcases blocks_disjoint b c with heq | hdis
  · exact absurd heq hbc
  · omega

/-- The block of an address is the one whose range holds it (R614, R802). -/
theorem blkOf_of_range {a : Nat} (c : Blk) (hlo : c.base ≤ a) (hhi : a < c.base + c.size) : blkOf a = some c := by
  have hmem : c ∈ Blk.all := by cases c <;> decide
  have hsome : (blkOf a).isSome = true := List.find?_isSome.2 ⟨c, hmem, by simp [hlo, hhi]⟩
  obtain ⟨b, hb⟩ := Option.isSome_iff_exists.1 hsome
  have hin : b.base ≤ a ∧ a < b.base + b.size := by simpa using List.find?_some hb
  rcases blocks_disjoint b c with rfl | hdis
  · exact hb
  · omega

/-! ### The search for a row -/

/-- A row ends at an offset or before it, by its first repetition. -/
def RegRow.endsBy (r : RegRow) (e : Nat) : Bool :=
  match r.dims with
  | [] => decide (r.off + 8 ≤ e)
  | (n, k) :: _ => decide (0 < k) && decide (r.off + n * k ≤ e)

/-- A row holds no offset from its end on. -/
theorem index_eq_none_of_endsBy {r : RegRow} {e o : Nat} (h : r.endsBy e = true) (he : e ≤ o) : r.index o = none := by
  unfold RegRow.endsBy at h
  unfold RegRow.index
  split
  · rfl
  · cases hd : r.dims with
    | nil =>
      have hend : r.off + 8 ≤ e := by simpa [hd] using h
      have hpast : ¬ (o - r.off) / 4 < 2 ∧ o - r.off ≠ 0 := by omega
      split <;> simp [dimIndex, hpast]
    | cons x rest =>
      obtain ⟨n, k⟩ := x
      obtain ⟨hk, hend⟩ : 0 < k ∧ r.off + n * k ≤ e := by simpa [hd] using h
      have hpast : ¬ (o - r.off) / k < n := by
        rw [Nat.div_lt_iff_lt_mul hk]
        omega
      split <;> simp [dimIndex, hpast]

/-- Rows that end before an offset are passed over in the search for it. -/
theorem findRow_append_of_endsBy {l : List RegRow} {e o : Nat} (h : (l.all fun r => r.endsBy e) = true) (he : e ≤ o)
    (rest : List RegRow) : findRow (l ++ rest) o = findRow rest o := by
  induction l with
  | nil => rfl
  | cons r l ih =>
    obtain ⟨hr, hl⟩ : r.endsBy e = true ∧ (l.all fun r => r.endsBy e) = true := by simpa using h
    simp only [List.cons_append, findRow, index_eq_none_of_endsBy hr he, ih hl]

/-- A register that is repeated once holds the first word of each of its repetitions. -/
theorem index_of_dims {r : RegRow} {n k : Nat} (hkind : r.kind ≠ .counter) (hdims : r.dims = [(n, k)]) (o : Nat) :
    r.index o = if r.off ≤ o ∧ (o - r.off) / k < n ∧ (o - r.off) % k = 0 then some [(o - r.off) / k] else none := by
  unfold RegRow.index
  rw [if_neg hkind, hdims]
  by_cases hoff : o < r.off
  · rw [if_pos hoff, if_neg (by omega)]
  · have hle : r.off ≤ o := by omega
    rw [if_neg hoff]
    by_cases hlt : (o - r.off) / k < n <;> by_cases hmod : (o - r.off) % k = 0 <;> simp [dimIndex, hle, hlt, hmod]

end Sys2Proof.Machine

/-! ## The record of a rejected access (R836) -/

namespace Sys2Proof.Machine

/-- A stored word has 32 bits (R9). -/
theorem rdN_lt (m : Chip) (a : Nat) : rdN m a < 2 ^ 32 := (rd m a).isLt

/-- A register reads back a number that fits its word. -/
theorem rdN_wrN_same (m : Chip) (a v : Nat) (h : v < 2 ^ 32) : rdN (wrN m a v) a = v := by
  simpa [rdN, wrN] using h

/-- Setting bits of one register leaves every other one alone. -/
theorem rd_orR_other (m : Chip) (a b mask : Nat) (h : b ≠ a) : rd (orR m a mask) b = rd m b := rd_wr_other m a b _ h

/-- Setting bits of a word leaves its other bits. -/
theorem rdN_orR_same (m : Chip) (a i : Nat) (h : i < 32) : rdN (orR m a (2 ^ i)) a = Nat.lor (rdN m a) (2 ^ i) :=
  rdN_wrN_same m a _ (Nat.bitwise_lt_two_pow (rdN_lt m a) (Nat.pow_lt_pow_right Nat.one_lt_two h))

/-- An interrupt of a block changes no register but the block's status. -/
theorem rd_setIrq_other (m : Chip) (b : Blk) (i x : Nat) (h : x ≠ irqStatus b) : rd (setIrq m b i) x = rd m x :=
  rd_orR_other { m with fresh := (irqStatus b, 2 ^ i) :: m.fresh } (irqStatus b) x (2 ^ i) h

theorem errCapture_ne_irqStatus (b : Blk) : errCapture b ≠ irqStatus b := by
  simp [errCapture, irqStatus]

theorem errCapture_ne_errClr (b : Blk) : errCapture b ≠ errClr b := by
  simp [errCapture, errClr]

/-! ### `capture`, and the word that clears it -/

/-- With a record held a rejected access sets `overflow` alone. -/
theorem capture_of_held (m : Chip) (b : Blk) (off cause : Nat) (h : flag m (errCapture b) 31 = true) :
    capture m b off cause = orR m (errCapture b) (2 ^ 30) := by
  simp [capture, h]

/-- With no record held a rejected access leaves one, in the layout of its block. -/
theorem rdN_capture_of_free (m : Chip) (b : Blk) (off cause v : Nat) (h : flag m (errCapture b) 31 = false)
    (hv : (if b = .hif then off % 2 ^ 26 + cause * 2 ^ 26 else off % 2 ^ 21 + cause * 2 ^ 24) + 2 ^ 31 = v) (hlt : v < 2 ^ 32) :
    rdN (capture m b off cause) (errCapture b) = v := by
  have hcap : capture m b off cause = setIrq (wrN m (errCapture b) v) b b.errBit := by rw [capture, if_neg (by simp [h])]; simp only [hv]
  have hrd := rd_setIrq_other (wrN m (errCapture b) v) b b.errBit _ (errCapture_ne_irqStatus b)
  rw [hcap, rdN, hrd]
  exact rdN_wrN_same m _ v hlt

/-- A rejected access changes no register but the block's record and status. -/
theorem rd_capture_other (m : Chip) (b : Blk) (off cause x : Nat) (hrec : x ≠ errCapture b) (hirq : x ≠ irqStatus b) :
    rd (capture m b off cause) x = rd m x := by
  unfold capture
  split
  · exact rd_orR_other m _ x _ hrec
  · exact (rd_setIrq_other _ b _ x hirq).trans (rd_wr_other m _ x _ hrec)

/-- Every block has its `<BLK>_ERR_CLR` at the offset 0xC, a word that holds nothing (R836). -/
theorem errClr_row (b : Blk) : ∃ r ix, regRow (errClr b) = some (b, r, ix) ∧ r.off = 0xC ∧ r.kind = .writeOnly := by
  have hrow : (regRow (errClr b)).map (fun x => (x.1, x.2.1.off, x.2.1.kind)) = some (b, 0xC, .writeOnly) := by
    cases b <;> decide +kernel
  obtain ⟨⟨b', r, ix⟩, hreg, hx⟩ := Option.map_eq_some_iff.1 hrow
  obtain ⟨rfl, hoff, hkind⟩ : b' = b ∧ r.off = 0xC ∧ r.kind = .writeOnly := by simpa using hx
  exact ⟨r, ix, hreg, hoff, hkind⟩

/-- A write of `<BLK>_ERR_CLR` clears the record with its bit 0 and stores nothing else. -/
theorem stored_errClr (m : Chip) (b : Blk) (data : Nat) :
    stored m (errClr b) data = if bit data 0 then wrN m (errCapture b) 0 else m := by
  obtain ⟨r, ix, hreg, hoff, hkind⟩ := errClr_row b
  simp [stored, hreg, hoff, hkind]

/-- Settles O15: the record of the first rejected access, the ones after it, and `ERR_CLR`. -/
theorem firstRejectedAccessIsKept : Obligations.FirstRejectedAccessIsKept := by
  intro m b off cause
  refine ⟨fun hfree hb hoff hcause => ?_, fun hfree hb hoff hcause => ?_, fun hheld => ⟨?_, fun x hx => ?_⟩, fun data hbit => ?_,
    fun data hbit => ?_⟩
  · exact rdN_capture_of_free m b off cause _ hfree (by rw [if_neg hb, Nat.mod_eq_of_lt hoff]) (by omega)
  · exact rdN_capture_of_free m b off cause _ hfree (by rw [if_pos hb, Nat.mod_eq_of_lt hoff]) (by omega)
  · rw [capture_of_held m b off cause hheld, rdN_orR_same m _ 30 (by decide)]
  · rw [capture_of_held m b off cause hheld, rd_orR_other m _ x _ hx]
  · rw [stored_errClr, if_pos hbit]
    exact rd_wr_same m _ 0
  · rw [stored_errClr, if_neg (by simp [hbit])]

end Sys2Proof.Machine

/-! ## Register writes (R11, R12, R70, R612-R616, R839) -/

namespace Sys2Proof.Machine

/-! ### How a write reaches its block (R612-R616, R623) -/

/-- An access that BRG accepts runs on the device that `Accepts` names. -/
theorem access_accepted {s : State} {t who a u now : Nat} {wr posted : Bool} {m : Chip} (h : Accepts s t who a wr posted u m now)
    (f : Nat → Chip → Chip) : s.access t who a wr posted f = .next (s.done u (f now m)) := by
  obtain ⟨rfl, rfl, hon, rfl⟩ := h
  rw [access_next, core_on s _ _ hon]

/-- A write that an initiator can send to BRG's range goes to what BRG finds at the address. -/
theorem put_of_carries {m : Chip} {who a : Nat} {x : Reach} (h : carries (monClear m a) who a x = true) (now : Nat) (d : Word)
    (opn flt : Bool) : put m now who a d opn flt = busWrite m now who a d opn flt ∧ reach (monClear m a) a = x := by
  simp only [carries, Bool.and_eq_true, Bool.not_eq_true', beq_iff_eq] at h
  obtain ⟨⟨⟨hsend, hserv⟩, hrange⟩, hreach⟩ := h
  have hsend0 : sends m who = true := hsend
  have hserv0 : serviceDenied m who a true = false := hserv
  exact ⟨by simp [put, hsend0, hserv0, hrange], hreach⟩

section Write
variable {s : State} {t u now who a : Nat} {m0 m : Chip}

/-- A register write whose data is worked out from the device runs `busWrite` where BRG carries it. -/
theorem writeAt_of_carries (hacc : Accepts s t who a true (isPosted s.chip who) u m0 now) (hm : monClear m0 a = m) {x : Reach}
    (hc : carries m who a x = true) (f : Chip → Nat) (flt : Bool) :
    s.writeAt t who a f flt = .next (s.done u (busWrite m0 now who a (BitVec.ofNat 32 (f m0)) false flt)) ∧ reach m a = x := by
  subst hm
  obtain ⟨hput, hreach⟩ := put_of_carries hc now (BitVec.ofNat 32 (f m0)) false flt
  exact ⟨by rw [State.writeAt, access_accepted hacc, hput], hreach⟩

/-- A register write with given data is one that works out no data. -/
theorem write_eq_writeAt (d : Word) (flt : Bool) : s.write t who a d flt = s.writeAt t who a (fun _ => d.toNat) flt := by
  simp [State.write, State.writeAt]

/-- A register write runs `busWrite` where BRG carries it. -/
theorem write_of_carries (hacc : Accepts s t who a true (isPosted s.chip who) u m0 now) (hm : monClear m0 a = m) {x : Reach}
    (hc : carries m who a x = true) (d : Word) (flt : Bool) :
    s.write t who a d flt = .next (s.done u (busWrite m0 now who a d false flt)) ∧ reach m a = x := by
  simpa [write_eq_writeAt] using writeAt_of_carries hacc hm hc (fun _ => d.toNat) flt

/-- A write of a powered register is the block's, and the writes that ports held are applied behind it. -/
theorem busWrite_ok (hm : monClear m0 a = m) (hr : reach m a = .ok) (d : Word) (opn flt : Bool) :
    busWrite m0 now who a d opn flt = applyHeld (writeReg m now who a d.toNat flt) now := by
  subst hm
  simp only [busWrite, hr]

/-- A write to a port whose PHY domain is off is held (R70). -/
theorem busWrite_held (hm : monClear m0 a = m) {n : Nat} (hr : reach m a = .held n) (d : Word) (opn flt : Bool) :
    busWrite m0 now who a d opn flt = updPort m n fun p => { p with held := p.held ++ [(who, a, d)] } := by
  subst hm
  simp only [busWrite, hr]

/-- A write to where no register answers fails (R615, R616). -/
theorem busWrite_err (hm : monClear m0 a = m) {c : Nat} (hr : reach m a = .err c) (d : Word) (opn flt : Bool) :
    busWrite m0 now who a d opn flt = accFail m now who a d c opn true := by
  subst hm
  simp only [busWrite, hr]

end Write

/-! ### What a block does with a write (R11, R12, R836, R839) -/

/-- A write that changes no RWL field is judged by its data (R12). -/
theorem judged_eq_data {m : Chip} {r : RegRow} {a data : Nat} (h : rwlBroken m r a data = false) : judged m r a data = data := by
  unfold judged dataJudged
  split
  · rename_i hc
    have hsame : Nat.land (Nat.xor (oldWord m a) data) r.rwl = 0 := by simpa [rwlBroken, hc] using h
    refine Nat.eq_of_testBit_eq fun i => ?_
    have hbit : ((oldWord m a ^^^ data) &&& r.rwl).testBit i = false := by
      rw [show (oldWord m a ^^^ data) &&& r.rwl = 0 from hsame, Nat.zero_testBit]
    rw [testBit_masked_add]
    split
    · rename_i hr
      simpa [hr] using hbit
    · rfl
  · rfl

section Block
variable {m : Chip} {now who a data : Nat} {b : Blk} {r : RegRow} {ix : List Nat}

theorem oldWord_of_row (hrow : regRow a = some (b, r, ix)) : oldWord m a = if r.kind = .writeOnly then 0 else rdN m a := by
  simp only [oldWord, hrow]

theorem newWord_of_row (hrow : regRow a = some (b, r, ix)) :
    newWord m a data = fieldsWritten (committed m) r (oldWord m a) data (freshBits m a) := by
  simp only [newWord, hrow]

/-- A write to a row that holds fields is `writeFields`. -/
theorem writeReg_of_fieldRow (hrow : regRow a = some (b, r, ix)) (hf : fieldRow b r = true) (flt : Bool) :
    writeReg m now who a data flt = writeFields m now who a data flt b r := by
  simp only [fieldRow, Bool.and_eq_true, Bool.or_eq_true, Bool.not_eq_true', beq_iff_eq] at hf
  obtain ⟨⟨hmsix, hwin⟩, hkind⟩ := hf
  have hmsix' : ¬ (decide (b = .hif) && decide (r.off = 0x70000)) = true := by simpa using hmsix
  have hwin' : ¬ (decide (b = .safe) && decide (r.off = 0x40000)) = true := by simpa using hwin
  simp only [writeReg, hrow]
  rw [if_neg hmsix', if_neg hwin']
  rcases hkind with hk | hk <;> simp only [hk]

/-- A read-only word ignores a write (R11). -/
theorem writeReg_of_readOnly (hrow : regRow a = some (b, r, ix)) (hmsix : (b == .hif && r.off == 0x70000) = false)
    (hwin : (b == .safe && r.off == 0x40000) = false) (hs : r.kind ≠ .stored) (hw : r.kind ≠ .writeOnly) (flt : Bool) :
    writeReg m now who a data flt = m := by
  have hmsix' : ¬ (decide (b = .hif) && decide (r.off = 0x70000)) = true := by simpa using hmsix
  have hwin' : ¬ (decide (b = .safe) && decide (r.off = 0x40000)) = true := by simpa using hwin
  simp only [writeReg, hrow]
  rw [if_neg hmsix', if_neg hwin']

/-- A reserved offset ignores a write (R614). -/
theorem writeReg_of_noRow (hrow : regRow a = none) (flt : Bool) : writeReg m now who a data flt = m := by
  simp only [writeReg, hrow]

/-- A value that does not apply or is out of range is recorded with its cause, and nothing is stored (R69, R839). -/
theorem writeFields_of_badValue (hrow : regRow a = some (b, r, ix)) {c : Nat} (flt : Bool)
    (h : blockFirst b a (judged m r a data) = some c ∨
      blockFirst b a (judged m r a data) = none ∧ rangeCause (committed m) r (oldWord m a) data = some c) :
    writeFields m now who a data flt b r = refuse m b a c := by
  simp only [judged, oldWord_of_row hrow] at h
  unfold writeFields
  rcases h with h | ⟨h1, h2⟩
  · simp only [h]
  · simp only [h1, h2]

/-- A value that the block's chapter refuses is recorded with its cause, and nothing is stored (R839). -/
theorem writeFields_of_refused (hrow : regRow a = some (b, r, ix)) {c : Nat} (flt : Bool) (hc : c ≠ 0)
    (hfirst : blockFirst b a (judged m r a data) = none) (hrange : rangeCause (committed m) r (oldWord m a) data = none)
    (hcheck : blockCheck m now who b a (oldWord m a) (newWord m a data) (judged m r a data) = c) :
    writeFields m now who a data flt b r = refuseWrite m now b a c := by
  simp only [judged, newWord_of_row hrow, oldWord_of_row hrow] at hfirst hrange hcheck
  unfold writeFields
  simp only [hfirst, hrange, hcheck]

/-- The device as a write that no check refuses finds it: a change of an RWL field after commit has left its record (R12). -/
def rwlNoted (m : Chip) (b : Blk) (r : RegRow) (a data : Nat) : Chip := if rwlBroken m r a data then refuse m b a 1 else m

/-- A write that no check refuses takes effect, in the next cycle for the registers that R120 and its like name. -/
theorem writeFields_of_allowed (hrow : regRow a = some (b, r, ix)) (flt : Bool) (h : allowed m now who b r a data = true) :
    writeFields m now who a data flt b r =
      if who < 8 && inForceLater a then nextCycle (rwlNoted m b r a data) now (.write who a (judged m r a data))
      else applyWrite (rwlNoted m b r a data) now who a (judged m r a data) flt b r := by
  simp only [allowed, Bool.and_eq_true, beq_iff_eq] at h
  obtain ⟨⟨hfirst, hrange⟩, hcheck⟩ := h
  simp only [judged, newWord_of_row hrow, oldWord_of_row hrow] at hfirst hrange hcheck
  unfold writeFields
  simp only [hfirst, hrange, hcheck]
  simp only [rwlNoted, rwlBroken, judged, oldWord_of_row hrow]

/-- What a write that takes effect leaves of the device, in the words of `effected`. -/
theorem applyWrite_eq_effected (hrow : regRow a = some (b, r, ix)) (flt : Bool) :
    applyWrite m now who a data flt b r =
      if r.off ≤ 4 then msixAgain m b (effected m a data b fun x => blockEffect m x now who b a (oldWord m a) (newWord m a data) data flt)
      else effected m a data b fun x => blockEffect m x now who b a (oldWord m a) (newWord m a data) data flt := by
  simp only [applyWrite, effected, stored, hrow, newWord_of_row hrow, oldWord_of_row hrow]

/-- A write that its block takes whole leaves its fields stored and its effect done; one of the block's interrupt status or enable sends
again the messages of the interrupts that it leaves raised (R811). -/
theorem writeReg_of_taken (hrow : regRow a = some (b, r, ix)) (hf : fieldRow b r = true) (flt : Bool)
    (hrwl : rwlBroken m r a data = false) (h : allowed m now who b r a data = true) (hnow : inForceLater a = false) :
    writeReg m now who a data flt =
      if r.off ≤ 4 then msixAgain m b (effected m a data b fun x => blockEffect m x now who b a (oldWord m a) (newWord m a data) data flt)
      else effected m a data b fun x => blockEffect m x now who b a (oldWord m a) (newWord m a data) data flt := by
  rw [writeReg_of_fieldRow hrow hf, writeFields_of_allowed hrow flt h, judged_eq_data hrwl]
  simp only [rwlNoted, hrwl, hnow, Bool.and_false, Bool.false_eq_true, if_false]
  exact applyWrite_eq_effected hrow flt

/-- A write that its block takes whole and that is in force from the next cycle on waits for it. -/
theorem writeReg_of_takenLater (hrow : regRow a = some (b, r, ix)) (hf : fieldRow b r = true) (flt : Bool) (hwho : who < 8)
    (hrwl : rwlBroken m r a data = false) (h : allowed m now who b r a data = true) (hlater : inForceLater a = true) :
    writeReg m now who a data flt = nextCycle m now (.write who a data) := by
  rw [writeReg_of_fieldRow hrow hf, writeFields_of_allowed hrow flt h, judged_eq_data hrwl]
  simp only [rwlNoted, hrwl, hlater, hwho, decide_true, Bool.and_true, Bool.false_eq_true, if_true, if_false]

/-- A write that has waited for its cycle leaves what one with an effect at once leaves. -/
theorem land_write (hrow : regRow a = some (b, r, ix)) (hoff : 4 < r.off) :
    land now m (.write who a data) =
      effected m a data b fun x => blockEffect m x now who b a (oldWord m a) (newWord m a data) data false := by
  simp only [land, landWrite, hrow]
  rw [applyWrite_eq_effected hrow, if_neg (by omega)]

/-- After commit a write that would change an RWL field leaves its record and takes effect as judged (R12). -/
theorem writeReg_of_rwlBroken (hrow : regRow a = some (b, r, ix)) (hf : fieldRow b r = true) (flt : Bool) (hwho : who < 8)
    (hrwl : rwlBroken m r a data = true) (h : allowed m now who b r a data = true) :
    writeReg m now who a data flt =
      if inForceLater a then nextCycle (refuse m b a 1) now (.write who a (judged m r a data))
      else applyWrite (refuse m b a 1) now who a (judged m r a data) flt b r := by
  rw [writeReg_of_fieldRow hrow hf, writeFields_of_allowed hrow flt h]
  simp only [rwlNoted, hrwl, hwho, decide_true, Bool.true_and, if_true]

end Block

/-! ### A write that its block takes whole -/

section Taken
variable {s : State} {t u now who a : Nat} {m : Chip} {b : Blk} {r : RegRow} {ix : List Nat}

/-- A write that its block takes whole is one of a row that holds fields. -/
theorem taken_iff (hrow : regRow a = some (b, r, ix)) (data : Nat) : taken m now who a data = true ↔
    carries m who a .ok = true ∧ fieldRow b r = true ∧ rwlBroken m r a data = false ∧ allowed m now who b r a data = true := by
  simp [taken, hrow, and_assoc]

/-- What a write that its block takes whole leaves, where its effect is at once. -/
theorem busWrite_of_taken {m0 : Chip} (hm : monClear m0 a = m) (hrow : regRow a = some (b, r, ix)) (hoff : 4 < r.off)
    (hnow : inForceLater a = false) (d : Word) (hreach : reach m a = .ok) (htaken : taken m now who a d.toNat = true) (flt : Bool) :
    busWrite m0 now who a d false flt =
      wrote m now a d.toNat b fun x => blockEffect m x now who b a (oldWord m a) (newWord m a d.toNat) d.toNat flt := by
  obtain ⟨-, hf, hrwl, hall⟩ := (taken_iff hrow d.toNat).1 htaken
  rw [busWrite_ok hm hreach, writeReg_of_taken hrow hf flt hrwl hall hnow, if_neg (by omega)]
  rfl

/-- A register write that its block takes whole, as a command of the queue, where its data is worked out from registers, which the monitors
of BRG are no part of; `g` is what the block does beside storing its fields. -/
theorem writeAt_taken {d : Word} {f : Chip → Nat} {g : Chip → Chip} {flt : Bool} (h : Writes s t u m now who a d.toNat)
    (hd : d = BitVec.ofNat 32 (f m)) (hf : ∀ x, f (monClear x a) = f x) (hrow : regRow a = some (b, r, ix)) (hoff : 4 < r.off)
    (hnow : inForceLater a = false)
    (hg : ∀ x, blockEffect m x now who b a (oldWord m a) (newWord m a d.toNat) d.toNat flt = g x) :
    s.writeAt t who a f flt = .next (s.done u (wrote m now a d.toNat b g)) := by
  obtain ⟨m0, hacc, rfl, htaken⟩ := h
  obtain ⟨hwrite, hreach⟩ := writeAt_of_carries hacc rfl ((taken_iff hrow _).1 htaken).1 f flt
  rw [hwrite, ← hf m0, ← hd, busWrite_of_taken rfl hrow hoff hnow d hreach htaken flt, funext hg]

/-- The same for a register write with given data. -/
theorem write_taken {d : Word} {g : Chip → Chip} {flt : Bool} (h : Writes s t u m now who a d.toNat) (hrow : regRow a = some (b, r, ix))
    (hoff : 4 < r.off) (hnow : inForceLater a = false)
    (hg : ∀ x, blockEffect m x now who b a (oldWord m a) (newWord m a d.toNat) d.toNat flt = g x) :
    s.write t who a d flt = .next (s.done u (wrote m now a d.toNat b g)) := by
  rw [write_eq_writeAt]
  exact writeAt_taken h (by simp) (fun _ => rfl) hrow hoff hnow hg

end Taken

/-- Settles O13: BRG carries the write to `busWrite`, and what its block does with it is one of the ways above. -/
theorem registerWriteCompletes : Obligations.RegisterWriteCompletes := by
  intro s t u m0 m now who a d hacc hm
  have hgo : ∀ x, carries m who a.toNat x = true →
      exec (.registerWrite t who a d) s = .next (s.done u (busWrite m0 now who a.toNat d false false)) ∧ reach m a.toNat = x :=
    fun x hc => write_of_carries hacc hm hc d false
  have hok : ∀ {v : Chip}, carries m who a.toNat .ok = true → writeReg m now who a.toNat d.toNat false = v →
      exec (.registerWrite t who a d) s = .next (s.done u (applyHeld v now)) := by
    rintro _ hc rfl
    obtain ⟨hexec, hreach⟩ := hgo .ok hc
    rw [hexec, busWrite_ok hm hreach]
  refine ⟨fun b r ix hc hrow hf => ⟨fun hrwl hall hoff => ⟨fun hnow => ?_, fun hlater => ⟨?_, ?_⟩⟩, fun c hbad => ⟨?_, ?_⟩,
    fun c hne hfirst hrange hcheck => ?_, fun hrwl hall hnow => ?_, fun hrwl hall hlater => ?_, fun hrwl hall hoff hnow => ?_⟩,
    fun b r ix hc hrow hmsix hwin hs hw => ?_, fun hc hrow => ?_, fun n hc => ?_, fun c hc => ?_⟩
  · exact hok hc (by rw [writeReg_of_taken hrow hf false hrwl hall hnow, if_neg (by omega)])
  · exact hok hc (writeReg_of_takenLater hrow hf false who.isLt hrwl hall hlater)
  · exact land_write hrow hoff
  · exact hok hc (by rw [writeReg_of_fieldRow hrow hf, writeFields_of_badValue hrow false hbad])
  · exact fun x hrec hirq => rd_capture_other m b _ c x hrec hirq
  · exact hok hc (by rw [writeReg_of_fieldRow hrow hf, writeFields_of_refused hrow false hne hfirst hrange hcheck])
  · exact hok hc (by rw [writeReg_of_rwlBroken hrow hf false who.isLt hrwl hall, hnow]; rfl)
  · exact hok hc (by rw [writeReg_of_rwlBroken hrow hf false who.isLt hrwl hall, hlater, if_pos rfl])
  · exact hok hc (by rw [writeReg_of_taken hrow hf false hrwl hall hnow, if_pos hoff])
  · exact hok hc (writeReg_of_readOnly hrow hmsix hwin hs hw false)
  · exact hok hc (writeReg_of_noRow hrow false)
  · obtain ⟨hexec, hreach⟩ := hgo _ hc
    rw [hexec, busWrite_held hm hreach]
  · obtain ⟨hexec, hreach⟩ := hgo _ hc
    rw [hexec, busWrite_err hm hreach]

end Sys2Proof.Machine

/-! ## Reads of registers (R11, R837) -/

namespace Sys2Proof.Machine

/-! ### Which reads are the register's own -/

/-- `MAC_PPLCA_STATUS` is no word of a 64-bit register. -/
theorem wordPart_plcaStatus (n : Nat) (hn : n < 20) :
    ((regRow (A.MAC_PPLCA_STATUS n)).bind fun x => wordPart x.1 x.2.1 x.2.2) = none := by
  revert n
  decide +kernel

/-- A word of a 64-bit register is not the PLCA status of a port. -/
theorem not_plcaStatus {a : Nat} {b : Blk} {r : RegRow} {ix : List Nat} {x : Bool} (h : regRow a = some (b, r, ix))
    (hpart : wordPart b r ix = some x) : ¬ (a % 0x400 = 0x044 && (macPage a).isSome) = true := by
  intro hplca
  obtain ⟨hmod, hpage⟩ : a % 0x400 = 0x044 ∧ 0x40801000 ≤ a ∧ a < 0x40806000 := by
    simpa [macPage, Option.isSome_iff_exists] using hplca
  have ha : A.MAC_PPLCA_STATUS ((a - 0x40801000) / 0x400) = a := by
    unfold A.MAC_PPLCA_STATUS
    omega
  have hnone := wordPart_plcaStatus ((a - 0x40801000) / 0x400) (by omega)
  simp [ha, h, hpart] at hnone

/-- A read outside PAIR, CAN and the PLCA status reads the register and takes no free value. -/
theorem readTarget_eq_readReg (m : Chip) (now who a : Nat) (hplca : ¬ (a % 0x400 = 0x044 && (macPage a).isSome) = true)
    (hpair : ¬ (Blk.pair.base ≤ a ∧ a < Blk.pair.base + Blk.pair.size)) (hcan : ¬ (Blk.can.base ≤ a ∧ a < Blk.can.base + Blk.can.size)) :
    readTarget m now who a = readReg m now who a := by
  simp only [Blk.base, Blk.size] at hpair hcan
  have hstatus : a ≠ A.PAIR_STATUS := by unfold A.PAIR_STATUS; omega
  have hpage : canPage a = none := if_neg (by simp; omega)
  have hwindow : ¬ (decide (A.CAN_RAM_WINDOW 0 ≤ a) && decide (a < A.CAN_RAM_WINDOW 0 + 0x80000)) = true := by
    unfold A.CAN_RAM_WINDOW
    simp
    omega
  simp only [readTarget, hpage]
  rw [if_neg hstatus, if_neg hplca, if_neg Bool.false_ne_true, if_neg hwindow]

/-- The same for a word of a 64-bit register of any other block. -/
theorem readTarget_of_part {m : Chip} {now who a : Nat} {b : Blk} {r : RegRow} {ix : List Nat} {x : Bool}
    (h : regRow a = some (b, r, ix)) (hpart : wordPart b r ix = some x) (hpair : b ≠ .pair) (hcan : b ≠ .can) :
    readTarget m now who a = readReg m now who a :=
  readTarget_eq_readReg m now who a (not_plcaStatus h hpart) (not_in_other_block h .pair hpair) (not_in_other_block h .can hcan)

/-! ### What a read of a register answers -/

section Row
variable {m : Chip} {now who a : Nat} {b : Blk} {r : RegRow} {ix : List Nat}

/-- The low word of a 64-bit register is live, and the high word goes to the shadow of the initiator (R837). -/
theorem readReg_low (hrow : regRow a = some (b, r, ix)) (hpart : wordPart b r ix = some false) :
    readReg m now who a =
      ({ m with shad := sputD m.shad 0 (shadowGroup b a * 8 + who) (BitVec.ofNat 32 (liveAt m now who (a + 4))) },
        liveWord m now who a b r ix) := by
  simp only [readReg, hrow, hpart]

/-- The high word of a 64-bit register is that of the shadow (R837). -/
theorem readReg_high (hrow : regRow a = some (b, r, ix)) (hpart : wordPart b r ix = some true) :
    readReg m now who a = (m, ((sget m.shad (shadowGroup b (a - 4) * 8 + who)).getD 0).toNat) := by
  simp only [readReg, hrow, hpart]
  cases sget m.shad (shadowGroup b (a - 4) * 8 + who) <;> rfl

/-- A read of an RC register answers its word and returns it to its reset value (R11). -/
theorem readReg_readClear (hrow : regRow a = some (b, r, ix)) (hpart : wordPart b r ix = none) (hkind : r.kind = .readClear) :
    readReg m now who a = (rstR m a, storedWord m now a b r.off (ix.headD 0)) := by
  simp only [readReg, hrow, hpart, liveWord, hkind, if_true]

end Row

/-- `MAC_PPRBS_ERR` is an RC register of MAC, of one word. -/
theorem pprbsErr_row (p : Fin 20) : ∃ r ix, regRow (A.MAC_PPRBS_ERR p) = some (.mac, r, ix) ∧ wordPart .mac r ix = none ∧
    r.kind = .readClear := by
  have hrow : ∀ p : Fin 20, (regRow (A.MAC_PPRBS_ERR p)).map (fun x => (x.1, wordPart x.1 x.2.1 x.2.2, x.2.1.kind)) =
      some (.mac, none, .readClear) := by decide +kernel
  obtain ⟨⟨b, r, ix⟩, hreg, hx⟩ := Option.map_eq_some_iff.1 (hrow p)
  obtain ⟨rfl, hpart, hkind⟩ : b = .mac ∧ wordPart b r ix = none ∧ r.kind = .readClear := by simpa using hx
  exact ⟨r, ix, hreg, hpart, hkind⟩

/-- A read of `MAC_PPRBS_ERR` answers its word and clears it (R11, R66). -/
theorem readTarget_pprbsErr (m : Chip) (now who : Nat) (p : Fin 20) :
    readTarget m now who (A.MAC_PPRBS_ERR p) = (rstR m (A.MAC_PPRBS_ERR p), rdN m (A.MAC_PPRBS_ERR p)) := by
  obtain ⟨r, ix, hrow, hpart, hkind⟩ := pprbsErr_row p
  have hplca : ¬ (A.MAC_PPRBS_ERR p % 0x400 = 0x044 && (macPage (A.MAC_PPRBS_ERR p)).isSome) = true := by
    have : A.MAC_PPRBS_ERR p % 0x400 ≠ 0x044 := by unfold A.MAC_PPRBS_ERR; omega
    simp [this]
  rw [readTarget_eq_readReg m now who _ hplca (not_in_other_block hrow .pair (by decide)) (not_in_other_block hrow .can (by decide)),
    readReg_readClear hrow hpart hkind]
  rfl

/-- A register read that BRG accepts and carries to a powered register answers what the register reads. -/
theorem read_accepted {s : State} {t who a u now : Nat} {m : Chip} (hacc : Accepts s t who a false false u m now)
    (hsend : sends m who = true) (hserv : serviceDenied m who a false = false) (hrange : brgRange a = true) (hreach : reach m a = .ok) :
    s.read t who a = .next (s.done u (say (readTarget m now who a).1 (.read who a (BitVec.ofNat 32 (readTarget m now who a).2)))) := by
  rw [State.read, access_accepted hacc]
  simp [look, get, busRead, hsend, hserv, hrange, hreach]

/-- Settles O59: BRG carries the read to its register, and the register's row tells what it answers and leaves. -/
theorem registerReadsComplete : Obligations.RegisterReadsComplete := by
  intro s t u m now
  refine ⟨fun who a b r ix hacc hsend hserv hreach hrange hrow hpart hpair hcan => ?_,
    fun who a b r ix hacc hsend hserv hreach hrange hrow hpart hpair hcan => ?_, fun who p hacc hsend hserv hreach => ?_⟩
  · refine (read_accepted hacc hsend hserv hrange hreach).trans ?_
    rw [readTarget_of_part hrow hpart hpair hcan, readReg_low hrow hpart]
  · refine (read_accepted hacc hsend hserv hrange hreach).trans ?_
    rw [readTarget_of_part hrow hpart hpair hcan, readReg_high hrow hpart, BitVec.ofNat_toNat, BitVec.setWidth_eq]
  · have hrange : brgRange (A.MAC_PPRBS_ERR p) = true := by
      simp only [brgRange, Bool.and_eq_true, decide_eq_true_eq]
      unfold A.MAC_PPRBS_ERR
      omega
    refine (read_accepted hacc hsend hserv hrange hreach).trans ?_
    rw [readTarget_pprbsErr, rdN, BitVec.ofNat_toNat, BitVec.setWidth_eq]

end Sys2Proof.Machine

/-! ## The commands of PCIe (R551-R606) -/

namespace Sys2Proof.Machine

/-- A command of logic in CORE runs its effect on the device that it finds, at the LT at which it happens. -/
theorem core_finds {s : State} {t now : Nat} {m : Chip} (h : Finds s t m now) (f : Nat → Chip → Chip) :
    s.core t f = .next (s.done t (f now m)) := by
  obtain ⟨⟨rfl, rfl⟩, hon⟩ := h
  exact core_on s t f hon

/-- Settles O38: each command is its operation where its condition holds. -/
theorem pcieCommandsComplete : Obligations.PcieCommandsComplete := by
  intro s t m now h
  refine ⟨fun l sp w hsp hw hl hdom => ?_, fun f hup => ?_, fun f hbme => ?_, fun l hl => ?_, fun f hup => ?_,
    fun f off b hup hfit hwin => ?_, fun f off b hup hbad => ?_, fun f off hup => ?_⟩
  · have hsp' : sp.val ≠ 0 := Fin.val_ne_of_ne hsp
    have hw' : w.val ≠ 0 := Fin.val_ne_of_ne hw
    have hl' : l.val = 1 → flag m A.HIF_LINK_STATUS 0 = true := fun h1 => hl (Fin.ext h1)
    rw [exec, execPcieLinkUp, core_finds h, if_neg (by simpa [hsp', hw', hdom] using hl')]
  · rw [exec, execBusMasterEnable, core_finds h, if_pos hup]
  · rw [exec, execBusMasterDisable, core_finds h, if_neg Bool.false_ne_true, if_pos hbme]
  · rw [exec, execBusMasterDisable, core_finds h, if_pos rfl]
  · rw [exec, execFunctionLevelReset, core_finds h, if_pos hup]
  · rw [exec, execBar2Write, core_finds h, if_neg (by simp [hup]), if_pos (by simp [hfit, hwin])]
  · have hout : ¬ (decide (off + b.length ≤ sramSize) && flag m A.HIF_BAR2_CFG f) = true := by
      rcases hbad with hlong | hclosed
      · simp [Nat.not_le.2 hlong]
      · simp [hclosed]
    rw [exec, execBar2Write, core_finds h, if_neg (by simp [hup]), if_neg hout]
  · rw [exec, execBar0PartialWrite, core_finds h, if_pos hup]

end Sys2Proof.Machine

/-! ## Writes of GATE (R317, R318, R321, R342) -/

namespace Sys2Proof.Machine

/-! ### The registers of GATE in the map -/

/-- The row of word `w` of the recovery entries (R339). -/
def rcvyRow (w : Fin 4) : RegRow := regsGate[41 + w.val]'(by rw [show regsGate.length = 52 from rfl]; omega)

/-- The rows of GATE, with those of the recovery entries by name. -/
theorem regsGate_eq : regsGate = regsGate.take 41 ++ rcvyRow 0 :: rcvyRow 1 :: rcvyRow 2 :: rcvyRow 3 :: regsGate.drop 45 := rfl

/-- Word 0 of a recovery entry holds fields, the others are read only (R339, R342). -/
theorem rcvyRow_eq (w : Fin 4) : (rcvyRow w).off = 0xA0000 + 4 * w.val ∧ (rcvyRow w).dims = [(1024, 16)] ∧
    (rcvyRow w).kind = if w = 0 then .stored else .derived := by
  revert w
  decide

theorem index_rcvyRow (f : Fin 1024) (j w : Fin 4) :
    (rcvyRow j).index (0xA0000 + 16 * f.val + 4 * w.val) = if j = w then some [f.val] else none := by
  obtain ⟨hoff, hdims, hkind⟩ := rcvyRow_eq j
  have hcnt : (rcvyRow j).kind ≠ .counter := by rw [hkind]; split <;> decide
  rw [index_of_dims hcnt hdims, hoff]
  by_cases hjw : j = w
  · subst hjw
    rw [if_pos rfl, if_pos (by omega)]
    congr 2
    omega
  · have hne : j.val ≠ w.val := Fin.val_ne_of_ne hjw
    rw [if_neg hjw, if_neg (by omega)]

/-- The register of word `w` of the recovery entry of function `f`. -/
theorem regRow_rcvy (f : Fin 1024) (w : Fin 4) : regRow (A.GATE_RCVY0 f + 4 * w.val) = some (.gate, rcvyRow w, [f.val]) := by
  have haddr : A.GATE_RCVY0 f + 4 * w.val = Blk.gate.base + (0xA0000 + 16 * f.val + 4 * w.val) := by
    simp only [A.GATE_RCVY0, Blk.base]
    omega
  have hblk : blkOf (A.GATE_RCVY0 f + 4 * w.val) = some .gate :=
    blkOf_of_range .gate (by omega) (by simp only [haddr, Blk.size]; omega)
  have hfind : findRow Blk.gate.rows (0xA0000 + 16 * f.val + 4 * w.val) = some (rcvyRow w, [f.val]) := by
    rw [show Blk.gate.rows = _ from regsGate_eq, findRow_append_of_endsBy (e := 0xA0000) (by decide) (by omega)]
    simp only [findRow, index_rcvyRow]
    fin_cases w <;> rfl
  simp only [regRow, hblk]
  rw [haddr, Nat.add_sub_cancel_left, hfind]
  rfl

/-- The row of `GATE_PCTL`. -/
def pctlRow : RegRow := regsGate[4]'(by rw [show regsGate.length = 52 from rfl]; omega)

/-- The `GATE_PCTL` of port `p` (R313, R317, R318). -/
theorem regRow_pctl (p : Fin 20) : regRow (A.GATE_PCTL p) = some (.gate, pctlRow, [p.val]) := by
  have haddr : A.GATE_PCTL p = Blk.gate.base + (0x10000 + 0x100 * p.val) := by
    simp only [A.GATE_PCTL, Blk.base]
    omega
  have hblk : blkOf (A.GATE_PCTL p) = some .gate := blkOf_of_range .gate (by omega) (by simp only [haddr, Blk.size]; omega)
  have hindex : pctlRow.index (0x10000 + 0x100 * p.val) = some [p.val] := by
    have hin : 0x10000 ≤ 0x10000 + 0x100 * p.val ∧ (0x10000 + 0x100 * p.val - 0x10000) / 0x100 < 20 ∧
        (0x10000 + 0x100 * p.val - 0x10000) % 0x100 = 0 := by omega
    rw [index_of_dims (r := pctlRow) (n := 20) (k := 0x100) (by decide) rfl]
    refine (if_pos hin).trans ?_
    congr 2
    show (0x10000 + 0x100 * p.val - 0x10000) / 0x100 = p.val
    omega
  have hfind : findRow Blk.gate.rows (0x10000 + 0x100 * p.val) = some (pctlRow, [p.val]) := by
    rw [show Blk.gate.rows = regsGate.take 4 ++ pctlRow :: regsGate.drop 5 from rfl,
      findRow_append_of_endsBy (e := 0x10000) (by decide) (by omega)]
    simp only [findRow, hindex]
  simp only [regRow, hblk]
  rw [haddr, Nat.add_sub_cancel_left, hfind]
  rfl

/-- A write of GATE is in force at once. -/
theorem inForceLater_gate {a : Nat} (hlo : 0x40700000 ≤ a) (hhi : a < 0x40800000) : inForceLater a = false := by
  have hsch : schPage a = none := if_neg (by simp; omega)
  simp only [inForceLater, hsch, Bool.or_eq_false_iff, Bool.and_eq_false_iff, List.any_eq_false, beq_eq_false_iff_ne, beq_iff_eq,
    decide_eq_false_iff_not, List.mem_range, and_true]
  unfold A.PRS_CT_TMO_TCP0 A.PRS_CT_TMO_TCP1 A.PRS_CT_TMO_UDP A.PRS_CT_TMO_GEN A.PRS_FW_LOG A.TM_PORT_HOLD A.TIME_Dd_RATE
    A.TIME_Dd_ADJ_CMD A.MACSEC_TXSC_CFG A.MINT_TELLER_CFG A.MINT_STREAM_CFG A.DMA_CFG A.LEDGER_CFG A.LEDGER_EXPORT_CFG
    A.LEDGER_FRAME_RX_PORTS A.LEDGER_FRAME_TX_PORTS A.LEDGER_STREAM_EN irqRoute A.GLB_IRQ_ROUTE_H0
  and_intros
  · exact Or.inl (Or.inl (Or.inr (by omega)))
  all_goals (intros; omega)

/-! ### The effects of the writes of `GATE_PCTL` and of a recovery entry -/

theorem gatePage_pctl (p : Fin 20) : adminPort (A.GATE_PCTL p) = none ∧ gatePage (A.GATE_PCTL p) = some (p.val, 0) := by
  have hpos : 0x40710000 ≤ A.GATE_PCTL p ∧ A.GATE_PCTL p < 0x40711400 ∧ (A.GATE_PCTL p - 0x40710000) / 0x100 = p.val ∧
      (A.GATE_PCTL p - 0x40710000) % 0x100 = 0 := by
    unfold A.GATE_PCTL
    omega
  obtain ⟨hlo, hhi, hport, hoff⟩ := hpos
  have hbefore : ¬ 0x40720000 ≤ A.GATE_PCTL p := by omega
  simp [adminPort, gatePage, hlo, hhi, hport, hoff, hbefore]

theorem gatePage_rcvy (f : Fin 1024) (w : Fin 4) :
    adminPort (A.GATE_RCVY0 f + 4 * w.val) = none ∧ gatePage (A.GATE_RCVY0 f + 4 * w.val) = none := by
  have hpast : ¬ A.GATE_RCVY0 f + 4 * w.val < 0x40748000 ∧ ¬ A.GATE_RCVY0 f + 4 * w.val < 0x40711400 := by
    unfold A.GATE_RCVY0
    omega
  simp [adminPort, gatePage, hpast]

/-- A write of a recovery entry resets the function and counts it (R342). -/
theorem gateEffect_rcvy (m : Chip) (now old new data : Nat) (f : Fin 1024) (w : Fin 4) :
    gateEffect m now (A.GATE_RCVY0 f + 4 * w.val) old new data = bump (rcvyReset m f) (A.rc_resets f) 1 := by
  obtain ⟨hadmin, hpage⟩ := gatePage_rcvy f w
  have hin : 0x407A0000 ≤ A.GATE_RCVY0 f + 4 * w.val ∧ A.GATE_RCVY0 f + 4 * w.val < 0x407A4000 ∧
      (A.GATE_RCVY0 f + 4 * w.val - 0x407A0000) / 16 = f.val := by
    unfold A.GATE_RCVY0
    omega
  obtain ⟨hlo, hhi, hfn⟩ := hin
  simp only [gateEffect, hadmin, hpage, hfn]
  rw [if_pos (by simp [hlo, hhi])]

/-- What a write of `GATE_PCTL` does beside storing `en` (R317, R318, R321). -/
theorem gateEffect_pctl (m : Chip) (now old new data : Nat) (p : Fin 20) :
    gateEffect m now (A.GATE_PCTL p) old new data =
      if bit data 1 && !adminValid m p then
        setEvt (refuse (wrN m (A.GATE_PCTL p) old) .gate (A.GATE_PCTL p) 3) (A.GATE_EVENT p) (A.GATE_EVENT_EN p) 1 .gate p
      else
        let m := clrR (trimAbort m p now) (A.GATE_PCTL p) 6
        let m := if bit data 2 then swapCancel m p now else m
        let m := if bit data 1 then swapRequest m p now else m
        if bit old 0 && !bit new 0 then nextCycle (orR m (A.GATE_PCTL p) 1) now (.gateOff p) else m := by
  obtain ⟨hadmin, hpage⟩ := gatePage_pctl p
  simp only [gateEffect, hadmin, hpage, if_true]

/-- A write of `GATE_PCTL` leaves `en` as its data has it. -/
theorem bit_newWord_pctl (m : Chip) (p : Fin 20) (data : Nat) : bit (newWord m (A.GATE_PCTL p) data) 0 = bit data 0 := by
  rw [newWord_of_row (regRow_pctl p), bit_eq_testBit, bit_eq_testBit, testBit_fieldsWritten]
  simp [show pctlRow.rw = 1 from rfl, show pctlRow.w1c = 0 from rfl, show pctlRow.w1s = 6 from rfl,
    show Nat.testBit 6 0 = false from rfl]

/-- The word that a command of `GATE_PCTL` sends, which keeps `en`: the bits of the swap commands are those of `cmd`. -/
theorem bit_pctlWord (m : Chip) (p : Fin 20) {cmd : Nat} (hcmd : cmd = 2 ∨ cmd = 4) :
    let d := (BitVec.ofNat 32 (fld m (A.GATE_PCTL p) 0 1 + cmd)).toNat
    bit d 0 = bit (oldWord m (A.GATE_PCTL p)) 0 ∧ bit d 1 = (cmd == 2) ∧ bit d 2 = (cmd == 4) := by
  have hold : oldWord m (A.GATE_PCTL p) = rdN m (A.GATE_PCTL p) := oldWord_of_row (regRow_pctl p)
  have hen : bit (oldWord m (A.GATE_PCTL p)) 0 = (fld m (A.GATE_PCTL p) 0 1 == 1) := by rw [hold]; rfl
  rw [hen]
  obtain h | h : fld m (A.GATE_PCTL p) 0 1 = 0 ∨ fld m (A.GATE_PCTL p) 0 1 = 1 := by
    have : fld m (A.GATE_PCTL p) 0 1 < 2 ^ 1 := Nat.mod_lt _ (by decide)
    omega
  all_goals
    rw [h]
    rcases hcmd with rfl | rfl <;> decide

/-- A write of `GATE_PCTL` is in force at once. -/
theorem inForceLater_pctl (p : Fin 20) : inForceLater (A.GATE_PCTL p) = false :=
  inForceLater_gate (by unfold A.GATE_PCTL; omega) (by unfold A.GATE_PCTL; omega)

/-- A write of a recovery entry is in force at once. -/
theorem inForceLater_rcvy (f : Fin 1024) (w : Fin 4) : inForceLater (A.GATE_RCVY0 f + 4 * w.val) = false :=
  inForceLater_gate (by unfold A.GATE_RCVY0; omega) (by unfold A.GATE_RCVY0; omega)

/-- Settles O52: the effect of each write is `gateEffect` at its register and data. -/
theorem gateRegisterCommandsComplete : Obligations.GateRegisterCommandsComplete := by
  intro s t u m now
  refine ⟨fun who p d hd h => ?_, fun who p d hd h => ?_, fun who p h hen => ?_, fun p => rfl, fun who f w d h => ?_,
    fun who f w d hw h => ?_⟩
  · obtain ⟨h0, h1, h2⟩ := bit_pctlWord m p (.inl rfl)
    rw [← hd] at h0 h1 h2
    rw [exec, execGateSwapRequest]
    refine writeAt_taken h hd (fun _ => rfl) (regRow_pctl p) (by decide) (inForceLater_pctl p) fun x => ?_
    refine (gateEffect_pctl x now _ _ _ p).trans ?_
    simp [bit_newWord_pctl, h0, h1, h2]
  · obtain ⟨h0, h1, h2⟩ := bit_pctlWord m p (.inr rfl)
    rw [← hd] at h0 h1 h2
    rw [exec, execGateSwapCancel]
    refine writeAt_taken h hd (fun _ => rfl) (regRow_pctl p) (by decide) (inForceLater_pctl p) fun x => ?_
    refine (gateEffect_pctl x now _ _ _ p).trans ?_
    simp [bit_newWord_pctl, h0, h1, h2]
  · have hold : bit (oldWord m (A.GATE_PCTL p)) 0 = true := by
      rw [show oldWord m (A.GATE_PCTL p) = rdN m (A.GATE_PCTL p) from oldWord_of_row (regRow_pctl p)]
      exact hen
    rw [exec, execGateDisable]
    refine write_taken (d := 0) h (regRow_pctl p) (by decide) (inForceLater_pctl p) fun x => ?_
    refine (gateEffect_pctl x now _ _ _ p).trans ?_
    simp [bit_newWord_pctl, hold, show bit 0 0 = false from rfl, show bit 0 1 = false from rfl, show bit 0 2 = false from rfl]
  · rw [exec, execRecoveryEntryWrite]
    exact write_taken h (regRow_rcvy f w) (by rw [(rcvyRow_eq w).1]; omega) (inForceLater_rcvy f w) fun x =>
      gateEffect_rcvy x now _ _ _ f w
  · obtain ⟨m0, hacc, hm, hc⟩ := h
    have hkind : (rcvyRow w).kind = .derived := by rw [(rcvyRow_eq w).2.2, if_neg hw]
    obtain ⟨hwrite, hreach⟩ := write_of_carries hacc hm hc d false
    rw [exec, execRecoveryEntryWrite, hwrite, busWrite_ok hm hreach,
      writeReg_of_readOnly (regRow_rcvy f w) rfl rfl (by simp [hkind]) (by simp [hkind])]

end Sys2Proof.Machine

/-! ## Commands of logic outside CORE (R671): resets, supplies, clocks and the TAP -/

namespace Sys2Proof.Machine

/-- A command of logic outside CORE runs its effect on the device that it finds, at the LT at which it happens. -/
theorem run_finds {s : State} {t now : Nat} {m : Chip} (h : FindsAny s t m now) (f : Nat → Chip → Chip) :
    s.run t f = .next (s.done t (f now m)) := by
  obtain ⟨rfl, rfl⟩ := h
  exact run_next s t f

/-- A clock that is running is lost while CORE runs: its bit falls, and its loss is reported. -/
theorem clockLoss_of_running {m : Chip} {k : Nat} (hrun : flag m A.GLB_CLK_STATUS k = true) (hon : coreOn m = true) (now : Nat) :
    clockLoss m now k =
      if k < 3 then report (setIrq (clrR m A.GLB_CLK_STATUS (2 ^ k)) .glb 0) now 0x0D10 0x0DF2 3 k
      else if k < 5 then report (clrR m A.GLB_CLK_STATUS (2 ^ k)) now 0x0D10 0x0DF3 2 k
      else setIrq (clrR m A.GLB_CLK_STATUS (2 ^ k)) .glb 1 := by
  rw [clockLoss, if_neg (by simp [hrun, hon])]

/-- Settles O40: each command is its operation where its condition holds. -/
theorem resetAndSupplyCommandsComplete : Obligations.ResetAndSupplyCommandsComplete := by
  intro s t m now h
  refine ⟨fun ahead hoff => ?_, fun straps a b d0 d1 o0 o1 hoff => ?_, fun low hlow => ?_, fun low hlow hbank hmode => ?_,
    fun low hlow => ?_, fun straps d0 d1 o0 o1 l hheld hrst => ?_, fun straps d0 d1 o0 o1 l c hrst hc => ?_, fun b mv hoff => ?_,
    fun k hrun hon hk => ?_, fun k hrun hon hlo hhi => ?_, fun hrun hon => ?_, fun hoff => ?_, fun i hoff hlife => ?_⟩
  · rw [exec, execLtFloorAdvance, run_finds h, if_neg (by simpa using hoff)]
  · rw [exec, execPowerOn, if_pos (by simp [hoff]), run_next]
  · rw [exec, execBrownOut, run_finds h, if_pos hlow]
  · have hlong : ¬ low ≤ 400 := by unfold us at hlow; omega
    rw [exec, execResetNInput, run_finds h, if_neg (by simpa [hlong, hbank, Decidable.or_iff_not_imp_left] using hmode)]
    simp [hlow]
  · rw [exec, execResetNInput, run_finds h, if_pos (by simp [hlow])]
  · rw [exec, execResetNRelease, run_finds h, if_pos (by simp [hheld, hrst])]
  · rw [exec, execColdReset, run_finds h, if_neg (by simpa [hrst] using hc)]
  · rw [exec, execVddioSupplyChange, run_finds h, if_neg (by simpa using hoff)]
  · rw [exec, execClockLoss, run_finds h, clockLoss_of_running hrun hon, if_pos hk]
  · rw [exec, execClockLoss, run_finds h, clockLoss_of_running hrun hon, if_neg (Nat.not_lt.2 hlo), if_pos hhi]
  · rw [exec, execClockLoss, run_finds h, show ((5 : Fin 6) : Nat) = 5 from rfl, clockLoss_of_running hrun hon,
      if_neg (by decide), if_neg (by decide)]
    rfl
  · rw [exec, execClockReturn, run_finds h, if_neg (by simpa using hoff)]
  · rw [exec, execTapInstruction, run_finds h, if_pos (by simpa [hoff, or_assoc] using hlife)]

end Sys2Proof.Machine

/-! ## Park, wake and the PMIC (R678-R700) -/

namespace Sys2Proof.Machine

/-! ### What shared operations leave unchanged -/

@[simp] theorem orR_pwr (m : Chip) (a mask : Nat) : (orR m a mask).pwr = m.pwr := rfl
@[simp] theorem setIrq_safe (m : Chip) (b : Blk) (i : Nat) : (setIrq m b i).safe = m.safe := rfl
@[simp] theorem bump_safe (m : Chip) (a k : Nat) : (bump m a k).safe = m.safe := rfl
@[simp] theorem driveEn_safe (m : Chip) (now en : Nat) : (driveEn m now en).safe = m.safe := rfl
@[simp] theorem lateRec_safe (m : Chip) (typ src lt : Nat) (pay : List (Nat × Nat)) : (lateRec m typ src lt pay).safe = m.safe := rfl

/-- A record leaves the collector as it is, whether it is queued or counted as lost (R644). -/
@[simp] theorem emit_safe (m : Chip) (typ src lt : Nat) (pay : List (Nat × Nat)) : (emit m typ src lt pay).safe = m.safe := by
  unfold emit
  split <;> rfl

/-- A fault of the PMIC is counted and recorded; the FAULT pin is its caller's to assert (R695). -/
@[simp] theorem pmicFault_safe (m : Chip) (now cause : Nat) : (pmicFault m now cause).safe = m.safe := by
  simp only [pmicFault]
  split <;> simp

/-! ### The operations where their conditions hold -/

/-- In a park, bit 0 of the enables falls first, when its time has come (R681). -/
theorem enableStep_of_parked {m : Chip} {now : Nat} (hmode : m.pwr.mode = .listen ∨ m.pwr.mode = .deep)
    (hwait : m.pwr.enAt + 10 * us ≤ now) (hen : bit m.pwr.en 0 = true) : enableStep m now = driveEn m now (m.pwr.en - 1) := by
  simp only [enableStep]
  rw [if_pos (by simpa using hmode), if_pos (by simp [hwait, hen])]

/-- In a wake the next enable rises, when its time and that of power good have come (R694). -/
theorem enableStep_of_waking {m : Chip} {now : Nat} (hmode : m.pwr.mode = .waking) (hwait : m.pwr.enAt + 10 * us ≤ now)
    (hpg : m.pwr.pg = true) (hgood : m.pwr.pgAt + 10 * us ≤ now) : enableStep m now = raiseEn m now := by
  simp only [enableStep]
  rw [if_neg (by simp [hmode]), if_pos (by simp [hmode, hwait, hpg, hgood])]

/-- An alarm that has come wakes the device where its class may, and is written to 0 (R686). -/
theorem rtcAlarm_of_due {m : Chip} {now : Nat} (hen : flag m A.PWR_WAKE_EN 4 = true) (hset : rd64 m A.PWR_RTC_ALARM_LO ≠ 0)
    (hdue : rd64 m A.PWR_RTC_ALARM_LO ≤ now) (hcls : wakeTaken m 4 = true) :
    rtcAlarm m now = wakeDetect (wr64 m A.PWR_RTC_ALARM_LO 0) now 4 0 :=
  if_pos (by simp [hen, hset, hdue, hcls])

/-- A detected wake starts its sequence once PMIC_PG is low or its time has passed, with the rail at the stored target (R683, R700). -/
theorem wakeStart_of_detected {m : Chip} {now : Nat} {pgLow : Bool} (hmode : m.pwr.mode = .listen ∨ m.pwr.mode = .deep)
    (hwake : m.pwr.wake.isSome = true) (hready : pgLow = true ∨ m.pwr.enAt + fld m A.PWR_PMIC_CFG 16 16 * us ≤ now) :
    wakeStart m now pgLow = raiseEn (updPwr m fun p =>
      { p with
        mode := .waking
        pg := p.pg && !pgLow
        rail := if fld m A.PWR_AVS_STATUS 16 10 = 0 then p.rail else fld m A.PWR_AVS_STATUS 16 10 }) now :=
  if_pos (by simpa [hwake] using ⟨hmode, hready⟩)

/-- A PLL lock in RUN is shown and starts nothing. -/
theorem pllLock_of_run {m : Chip} (hmode : m.pwr.mode = .run) (now k : Nat) : pllLock m now k = orR m A.GLB_CLK_STATUS (2 ^ k) := by
  simp [pllLock, hmode]

/-- The last rise of power good in a wake notes its time (R693). -/
theorem pgRise_of_lastEnable {m : Chip} (hpg : m.pwr.pg = false) (hmode : m.pwr.mode = .waking) (hen : m.pwr.en = 0xF) (now : Nat) :
    pgRise m now = wrN (updPwr m fun p => { p with pg := true, pgAt := now }) (A.PWR_WAKE_T 0)
      (sinceWake (updPwr m fun p => { p with pg := true, pgAt := now }) now) := by
  simp [pgRise, hpg, hmode, hen]

/-- Power good that does not come in time turns the enables off and asserts FAULT, which the record of the fault left released (R695). That
the device goes on as from DEEP, its retention lost, is log entry 144. -/
theorem pgTimeout_of_late {m : Chip} {now : Nat} (hmode : m.pwr.mode = .waking) (hpg : m.pwr.pg = false)
    (hlate : m.pwr.enAt + fld m A.PWR_PMIC_CFG 16 16 * us ≤ now) (hfault : m.safe.fault = false) :
    pgTimeout m now = say (updSafe (updPwr (driveEn (pmicFault m now 1) now 0) fun p =>
      { p with mode := .deep, deep := true, wake := none }) fun x => { x with fault := true, cause := 0, since := now })
      (.pin "FAULT" 1) := by
  rw [pgTimeout, if_pos (by simp [hmode, hpg, hlate])]
  exact if_neg (by simp [hfault])

/-- A write of a 16-bit PMIC register that reads back what was written is done after one transfer (R697). -/
theorem spiWrite_of_readBack {m : Chip} {v : Nat} (hspi : m.pwr.spi = some v) (hwide : flag m A.PWR_PMIC_CFG 7 = true)
    (now back2 : Nat) : spiWrite m now (v % 65536) back2 =
      say (updPwr m fun p => { p with spi := none }) (.pmic (fld (updPwr m fun p => { p with spi := none }) A.PWR_PMIC_CFG 0 7)
        (v % 65536)) := by
  simp [spiWrite, hspi, hwide]

/-- Settles O41: each command is its operation where its condition holds. -/
theorem wakeCommandsComplete : Obligations.WakeCommandsComplete := by
  intro s t m now h
  refine ⟨fun hmode hphase => ?_, fun hmode hwait hen => ?_, fun hmode hwait hpg hgood => ?_, fun l hoff => ?_,
    fun hen hset hdue hcls => ?_, fun e hwake hoff => ?_, fun d kind ident ide dlc data errs eof hcls hbank hoff hmatch => ?_,
    fun pgLow hmode hwake hready => ?_, fun hpg hmode hen => ?_, fun k hmode => ?_, fun ecc bad hmode hdeep hfclk => ?_,
    fun hmode hpg hlate hfault => ?_, fun v back back2 hspi hwide hback => ?_⟩
  · rw [exec, execParkCommit, run_finds h, if_pos (by simp [hmode, hphase])]
  · rw [exec, execPmicEnableStep, run_finds h, enableStep_of_parked hmode hwait hen]
  · rw [exec, execPmicEnableStep, run_finds h, enableStep_of_waking hmode hwait hpg hgood]
  · rw [exec, execWakeInDetect, run_finds h, if_neg (by simpa using hoff)]
  · rw [exec, execRtcAlarm, run_finds h, rtcAlarm_of_due hen hset hdue hcls]
  · rw [exec, execTc10WakeDetect, run_finds h, if_pos (by simp [hwake, hoff])]
  · rw [exec, execCanPnWake, run_finds h, if_neg (by simp [hcls, hbank, hoff, hmatch])]
  · rw [exec, execWakeSequenceStart, run_finds h, wakeStart_of_detected hmode hwake hready]
  · rw [exec, execPmicPgRise, run_finds h, pgRise_of_lastEnable hpg hmode hen]
  · rw [exec, execPllLock, run_finds h, pllLock_of_run hmode]
  · rw [exec, execRestoreDone, run_finds h, if_pos (by simp [hmode, hdeep, hfclk])]
  · rw [exec, execPmicPgTimeout, run_finds h, pgTimeout_of_late hmode hpg hlate hfault]
  · subst hback
    rw [exec, execPmicSpiWrite, run_finds h, spiWrite_of_readBack hspi hwide]

end Sys2Proof.Machine

/-! ## Shadows of 64-bit registers (R67, R837) -/

namespace Sys2Proof.Machine

/-- What stands at a key after a store there: nothing for the default, which is not listed. -/
theorem sget_sputD_same {α : Type} [DecidableEq α] (l : List (Nat × α)) (d : α) (k : Nat) (v : α) :
    sget (sputD l d k v) k = if v = d then none else some v := by
  unfold sputD
  split
  · exact sget_sdel_same l k
  · exact sget_sput_same l k v

/-- Shadows of two initiators, or of two groups, lie at two keys (R67). -/
theorem shadowKey_ne {g g' w w' : Nat} (hw : w < 8) (hw' : w' < 8) (h : (g', w') ≠ (g, w)) : g' * 8 + w' ≠ g * 8 + w := by
  intro heq
  exact h (Prod.ext (by simp only; omega) (by simp only; omega))

/-- Settles O16: a read of a low word stores at the key of its initiator and group, and one of the high word reads that key. -/
theorem shadowIsOfTheInitiator : Obligations.ShadowIsOfTheInitiator := by
  intro m m1 now now1 who who1 a b r r1 ix ix1 hwho hwho1 hrow hlow hrow1 hhigh
  rw [readReg_low hrow hlow]
  refine ⟨rfl, sget_sputD_same _ _ _ _, fun grp hne => ?_, fun hshad => ?_⟩
  · exact sget_sputD_other _ _ _ _ _ (shadowKey_ne hwho hwho1 hne)
  · rw [readReg_high hrow1 hhigh, hshad, Nat.add_sub_cancel, getD_sputD_same]

end Sys2Proof.Machine

/-! ## Links of front ports (R38, R39, R63, R64) -/

namespace Sys2Proof.Machine

/-! ### USXGMII words (R38) -/

section Word
variable {m : Chip} {n code : Nat} (hB : isB n = true) (hmode : laneMode m n = 3) (hen : portEn m n = true)
include hB hmode hen

/-- A word of 100 or 10 Mb/s takes the link down and is kept as refused. -/
theorem usxgmiiWord_of_refused (now : Nat) (hcode : code = 1 ∨ code = 2) :
    usxgmiiWord m now n code =
      portEvt (updPort (linkLost m now n 1 now false false) n fun x => { x with refused := true, word := code }) n 3 := by
  rw [usxgmiiWord, if_neg (by simp [hB, hmode, hen]), if_pos (by simpa using hcode)]

/-- A word that names a speed is kept as not refused; on a link at another speed the speed changes, and the schedulers keep the old rate. -/
theorem usxgmiiWord_of_speed (now : Nat) (hlo : 3 ≤ code) (hhi : code ≤ 6) :
    usxgmiiWord m now n code =
      if linkOn m n && speedOf m n ≠ code then
        updCopies (setF (updSch (updPort m n fun x => { x with refused := false, word := code }) n fun y =>
          { y with rateWas := some (now, rateOf (speedOf m n)) }) (A.MAC_PSTATUS n) 1 3 code)
          (fun c => c.port == n && c.st == .sending) fun c => { c with cause := 3 }
      else updPort m n fun x => { x with refused := false, word := code } := by
  have hslow : ¬ (decide (code = 1) || decide (code = 2)) = true := by
    simp only [Bool.or_eq_true, decide_eq_true_eq]
    omega
  rw [usxgmiiWord, if_neg (by simp [hB, hmode, hen]), if_neg hslow, if_pos (by simp [hlo, hhi])]
  rfl

end Word

/-- Settles O23: each command is its operation where its condition holds. -/
theorem linkCommandsComplete : Obligations.LinkCommandsComplete := by
  intro s t m now h
  refine ⟨fun p code hB hmode hen hcode => ?_, fun p code hB hmode hen hlo hhi hlink => ?_,
    fun p code hB hmode hen hlo hhi hlink hspeed => ?_, fun p hen hmode hlink htrain hretrain => ?_, fun p t0 htrain hlate => ?_,
    fun p r hretrain hdue => ?_, fun p word sqi hp => ?_, fun word sqi => ?_, fun p loss lf rf hp hlate => ?_, fun loss lf rf => ?_⟩
  · rw [exec, execUsxgmiiSpeedWord, core_finds h, usxgmiiWord_of_refused hB hmode hen now hcode]
  · rw [exec, execUsxgmiiSpeedWord, core_finds h, usxgmiiWord_of_speed hB hmode hen now hlo hhi, if_neg (by simp [hlink])]
  · rw [exec, execUsxgmiiSpeedWord, core_finds h, usxgmiiWord_of_speed hB hmode hen now hlo hhi, if_pos (by simp [hlink, hspeed])]
  · rw [exec, execLinkTrainingStart, core_finds h, if_pos (by simp [hen, hmode, hlink, htrain, hretrain])]
  · simp only [exec, execTrainFail, core_finds h, htrain]
    rw [if_neg (Nat.not_lt.2 hlate)]
  · simp only [exec, execRetrainDelayExpiry, core_finds h, hretrain]
    rw [if_neg (Nat.not_lt.2 hdue)]
  · rw [exec, execLinkUp, core_finds h, if_pos hp]
  · rw [exec, execLinkUp, core_finds h, if_neg (by decide), if_pos (show ((23 : Fin 24) : Nat) = 23 from rfl)]
  · have hfront : ¬ p.val = 23 := by omega
    rw [exec, execLinkDown, core_finds h, if_neg hfront, if_pos (by simp [hp, hlate])]
  · rw [exec, execLinkDown, core_finds h, if_pos (show ((23 : Fin 24) : Nat) = 23 from rfl)]

end Sys2Proof.Machine

/-! ## Edge and drop ports (R43, R44, R48, R50, R66) -/

namespace Sys2Proof.Machine

/-- A TC10 wake of a port that is powered, or set to wake, is shown and abandons a sleep handshake (R43, R44). -/
theorem tc10Wake_of_seen {m : Chip} {n : Nat} (h : domOn m (phyDom n) = true ∨ flag m (A.MAC_PT1_CFG n) 2 = true) (now : Nat) :
    tc10Wake m now n = sleepAbandon (portEvt m n 5) now n 0 := by
  refine if_neg ?_
  rcases h with hdom | hwake
  · simp [hdom]
  · simp [hwake]

/-- Settles O24: each command is its operation where its condition holds. -/
theorem edgePortCommandsComplete : Obligations.EdgePortCommandsComplete := by
  intro s t m now h
  refine ⟨fun e => ?_, fun e hseen => ?_, fun e hdom => ?_, fun e w hwarm hlate hlink => ?_, fun d hfollow hlink hbeacon => ?_,
    fun d hfollow hlink => ?_, fun p k hen hcheck hk => ?_⟩
  · rw [exec, execTc10SleepComplete, core_finds h]
  · rw [exec, execTc10WakeReceived, core_finds h, tc10Wake_of_seen hseen]
  · rw [exec, execTc10SleepRequestRx, core_finds h, if_pos hdom]
  · simp only [exec, execWarmFallback, core_finds h, hwarm]
    rw [if_neg (by simp [hlate, hlink])]
  · simp only [exec, execPlcaLost, core_finds h]
    rw [if_pos (by simp [hfollow, hlink, hbeacon])]
  · simp only [exec, execPlcaBeaconReturn, core_finds h]
    rw [if_pos (by simp [hfollow, hlink])]
  · simp only [exec, execPrbsCheckerError, core_finds h]
    rw [if_pos (by simp [hen, hcheck, hk])]

end Sys2Proof.Machine

/-! ## Ingress: from the first byte of a frame to its tail (R60, R77-R94) -/

namespace Sys2Proof.Machine

/-! ### Lane decisions (R77) -/

/-- The decision of a lane with heads in its pipeline is that of the oldest of them. -/
theorem laneDecision_of_pipe {m : Chip} {l fid k a : Nat} {r : List (Nat × Nat × Nat)} (hpipe : (laneOf m l).pipe = (fid, k, a) :: r)
    (now s0 : Nat) (soft : List (Nat × Nat)) (ecc : Option (Nat × Nat)) (ctEcc : Option Nat) (fault : Bool) :
    laneDecision m now l s0 soft ecc ctEcc fault =
      updPrs (laneRetry (updLane m l fun x => { x with pipe := r }) now l soft.length) fun p => { p with
        soft := soft.foldl (fun y x => if y.contains (x.1 * 2 ^ 16 + x.2) then y else y ++ [x.1 * 2 ^ 16 + x.2]) p.soft
        dec := p.dec ++ [{ lane := l, fid := fid, bucket := k, s0 := max a (min s0 now), ecc := ecc, ctEcc := ctEcc, fault := fault }] } := by
  have hheld : ¬ (laneOf m l).pipe.isEmpty = true := by simp [hpipe]
  rw [laneDecision]
  simp only [if_neg hheld]
  simp only [hpipe]

/-- A decision that stands alone in its cycle is decided at the cycle's end. -/
theorem decisions_of_single {m : Chip} {d : LaneDec} (hdec : m.prs.dec = [d]) (now : Nat) :
    decisions m now = decideHead now (updPrs m fun p => { p with dec := [] }) d := by
  rw [decisions, if_neg (by simp [hdec]), hdec, List.mergeSort_singleton]
  rfl

/-! ### The end of a frame (R79, R84, R86) -/

/-- A tail that has arrived is verified once. -/
theorem execTailVerified_of_tailIn {s : State} {t now fid : Nat} {m : Chip} {f : Frame} (h : Finds s t m now)
    (hf : frameOf m fid = some f) (hended : f.ended = false) (htail : f.tailIn now = true) :
    execTailVerified t fid s = .next (s.done t (tailVerified m now f)) := by
  simp only [execTailVerified, core_finds h, hf]
  rw [if_neg (by simp [hended, htail])]

/-- A frame that is too long is counted and truncated with cause 3. -/
theorem tailVerified_of_tooLong {m : Chip} {f : Frame} (hlong : f.tooLong = true) (now : Nat) :
    tailVerified m now f =
      truncate (bump (updFrame m f.id fun x => { x with ended := true }) (A.rx_oversize f.port) 1) now f 3
        (arrived (bump (updFrame m f.id fun x => { x with ended := true }) (A.rx_oversize f.port) 1) f now) := if_pos hlong

/-- A frame with a wrong FCS is counted and discarded, and its cut-through copies are corrected. -/
theorem tailVerified_of_badFcs {m : Chip} {f : Frame} (hlong : f.tooLong = false) (hfcs : f.fcsOk = false) (now : Nat) :
    tailVerified m now f =
      killFrame (correctLater (bump (updFrame m f.id fun x => { x with ended := true }) (A.rx_fcs_err f.port) 1) now f) now f.id := by
  simp [tailVerified, hlong, hfcs]

/-- A good frame is counted, its cut-through copies are corrected, and its waiting copies come to admission. -/
theorem tailVerified_of_good {m : Chip} {f : Frame} (hlong : f.tooLong = false) (hfcs : f.fcsOk = true) (hdead : f.dead = false)
    (now : Nat) :
    tailVerified m now f =
      gcFrame (bring (correctLater (updFrame (bump (bump (updFrame m f.id fun x => { x with ended := true }) (A.rx_frames f.port) 1)
        (A.rx_octets f.port) f.len) f.id fun x => { x with verified := true }) now f) f.id f.waiting false) now f.id := by
  simp [tailVerified, hlong, hfcs, hdead]

/-- Settles O25: each command is its operation where its condition holds. -/
theorem ingressCommandsComplete : Obligations.IngressCommandsComplete := by
  intro s t m now h
  refine ⟨fun p bytes fcsOk frags crcOk full errs hloop => ?_, fun fid f hf hphase hdead hsec => ?_, fun fid f hf hphase => ?_,
    fun l s0 soft ecc ctEcc fault fid k a r hpipe => ?_, fun d hdec => decisions_of_single hdec now,
    fun fid f hf hended htail hlong hfcs => ?_, fun fid f hf hended htail hlong => ?_,
    fun fid f hf hended htail hlong hfcs hdead => ?_, fun fid p f c hcut hsent htail => ?_, fun fid p got f c hcut hread hver => ?_⟩
  · simp only [exec, execFrameReceive, core_finds h, hloop]
  · simp only [exec, execHeadReady, core_finds h, hf]
    rw [if_pos (by simp [hphase, hdead, hsec])]
  · simp only [exec, execLaneSelection, core_finds h, hf]
    rw [if_pos (by simp [hphase])]
  · rw [exec, execLaneDecision, core_finds h, laneDecision_of_pipe hpipe]
  · rw [exec, execTailVerified_of_tailIn h hf hended htail, tailVerified_of_badFcs hlong hfcs]
  · rw [exec, execTailVerified_of_tailIn h hf hended htail, tailVerified_of_tooLong hlong]
  · rw [exec, execTailVerified_of_tailIn h hf hended htail, tailVerified_of_good hlong hfcs hdead]
  · simp only [exec, execCtOverlen, core_finds h, hcut]
    rw [if_neg (by simp [hsent, htail])]
  · simp only [exec, execCtUnderrun, core_finds h, hcut]
    rw [if_neg (by simp [hread, hver])]

end Sys2Proof.Machine

/-! ## Writes of MAC (R43, R45, R59, R68, R398) -/

namespace Sys2Proof.Machine

/-! ### Writes that are in force from the next cycle on -/

/-- A register write that its block takes whole and that is in force from the next cycle on waits for it, and does nothing else (R398). -/
theorem write_noted {s : State} {t u now who a : Nat} {m : Chip} {b : Blk} {r : RegRow} {ix : List Nat} {d : Word}
    (h : Writes s t u m now who a d.toNat) (hrow : regRow a = some (b, r, ix)) (hwho : who < 8) (hlater : inForceLater a = true)
    (flt : Bool) : s.write t who a d flt = .next (s.done u (noted m now who a d.toNat)) := by
  obtain ⟨m0, hacc, hm, htaken⟩ := h
  obtain ⟨hcarry, hf, hrwl, hall⟩ := (taken_iff hrow _).1 htaken
  obtain ⟨hwrite, hreach⟩ := write_of_carries hacc hm hcarry d flt
  rw [hwrite, busWrite_ok hm hreach, writeReg_of_takenLater hrow hf flt hwho hrwl hall hlater]
  rfl

/-! ### The registers of MAC in the map -/

/-- The rows of `MAC_PCFG`, `MAC_PT1_CTRL`, `MAC_PCNT_CLR` and `MACSEC_TXSC_CFG`. -/
def pcfgRow : RegRow := regsMac1[4]'(by decide)
def pt1CtrlRow : RegRow := regsMac1[16]'(by decide)
def pcntClrRow : RegRow := regsMac1[19]'(by decide)
def txscCfgRow : RegRow := regsMac2[18]'(by decide)

theorem regRow_pcfg (n : Nat) (hn : n < 20) : regRow (A.MAC_PCFG n) = some (.mac, pcfgRow, [n]) := by
  revert n
  decide +kernel

theorem regRow_pt1Ctrl (n : Nat) (hn : n < 20) : regRow (A.MAC_PT1_CTRL n) = some (.mac, pt1CtrlRow, [n]) := by
  revert n
  decide +kernel

theorem regRow_pcntClr (n : Nat) (hn : n < 20) : regRow (A.MAC_PCNT_CLR n) = some (.mac, pcntClrRow, [n]) := by
  revert n
  decide +kernel

theorem regRow_txscCfg (n : Nat) (hn : n < 16) : regRow (A.MACSEC_TXSC_CFG n) = some (.mac, txscCfgRow, [n]) := by
  revert n
  decide +kernel

/-- Writes of `MAC_PCFG`, `MAC_PT1_CTRL` and `MAC_PCNT_CLR`, by their offsets in a front port's page, are in force at once. -/
theorem inForceLater_portPage (n : Nat) (hn : n < 20) (off : Nat) (hoff : off ∈ [0, 0x38, 0xFC]) :
    inForceLater (0x40801000 + off + n * 0x400) = false := by
  revert off
  revert n
  decide +kernel

/-- The association that MACsec encodes with changes in the next cycle (R398). -/
theorem inForceLater_txscCfg (n : Nat) (hn : n < 16) : inForceLater (A.MACSEC_TXSC_CFG n) = true := by
  revert n
  decide +kernel

/-! ### What the writes do beside storing their fields -/

/-- An address in the page of a front port is that port's, and no association's. -/
theorem macPage_saPage_of_port {a n off : Nat} (ha : a = 0x40801000 + off + n * 0x400) (hn : n < 20) (hoff : off < 0x400) :
    macPage a = some (n, off) ∧ saPage a = none := by
  have hpos : 0x40801000 ≤ a ∧ a < 0x40806000 ∧ (a - 0x40801000) / 0x400 = n ∧ (a - 0x40801000) % 0x400 = off := by omega
  obtain ⟨hlo, hhi, hport, hpage⟩ := hpos
  have hbelow : ¬ 0x40900000 ≤ a ∧ ¬ 0x40902000 ≤ a := by omega
  simp [macPage, saPage, hlo, hhi, hport, hpage, hbelow]

/-- A write of `MAC_PCFG` that clears `enable` disables the port (R59). -/
theorem macEffects_pcfg {old new : Nat} (hold : bit old 0 = true) (hnew : bit new 0 = false) (m : Chip) (now data n : Nat) (hn : n < 20) :
    macsecEffect (macEffect m now (A.MAC_PCFG n) old new data) (A.MAC_PCFG n) old new = portDisable m now n := by
  obtain ⟨hpage, hsa⟩ := macPage_saPage_of_port (a := A.MAC_PCFG n) (off := 0) rfl hn (by decide)
  simp [macsecEffect, macEffect, hpage, hsa, hold, hnew]

/-- A write of `MAC_PT1_CTRL` starts a sleep handshake, sends a wake, or both (R43, R45). -/
theorem macEffects_pt1Ctrl (m : Chip) (now old new data n : Nat) (hn : n < 20) :
    macsecEffect (macEffect m now (A.MAC_PT1_CTRL n) old new data) (A.MAC_PT1_CTRL n) old new =
      if bit data 1 then tc10Send (if bit data 0 then sleepStart m now n else m) n else if bit data 0 then sleepStart m now n else m := by
  obtain ⟨hpage, hsa⟩ := macPage_saPage_of_port (a := A.MAC_PT1_CTRL n) (off := 0x38) rfl hn (by decide)
  simp [macsecEffect, macEffect, hpage, hsa]

/-- A write of 1 to `MAC_PCNT_CLR` clears the counters of the port (R68), and those of its MACsec where it has one (log entry 55). -/
theorem macEffects_pcntClr {data : Nat} (hdata : bit data 0 = true) (m : Chip) (now old new n : Nat) (hn : n < 20) :
    macsecEffect (macEffect m now (A.MAC_PCNT_CLR n) old new data) (A.MAC_PCNT_CLR n) old new =
      if n < 16 then clearCnts (clearCnts m (A.rx_frames n) (A.rx_frames n + 0x80)) (A.out_protected n) (A.out_protected n + 0x80)
      else clearCnts m (A.rx_frames n) (A.rx_frames n + 0x80) := by
  obtain ⟨hpage, hsa⟩ := macPage_saPage_of_port (a := A.MAC_PCNT_CLR n) (off := 0xFC) rfl hn (by decide)
  simp [macsecEffect, macEffect, hpage, hsa, hdata]

/-- A write of `MACSEC_TXSC_CFG` does nothing beside storing its fields. -/
theorem macEffects_txscCfg (m : Chip) (now old new data n : Nat) (hn : n < 16) :
    macsecEffect (macEffect m now (A.MACSEC_TXSC_CFG n) old new data) (A.MACSEC_TXSC_CFG n) old new = m := by
  have hpos : 0x40900000 ≤ A.MACSEC_TXSC_CFG n ∧ A.MACSEC_TXSC_CFG n < 0x40901000 ∧ A.MACSEC_TXSC_CFG n % 0x100 = 8 := by
    unfold A.MACSEC_TXSC_CFG
    omega
  obtain ⟨hlo, hhi, hoff⟩ := hpos
  have hpage : macPage (A.MACSEC_TXSC_CFG n) = none := if_neg (by simp; omega)
  have hsa : saPage (A.MACSEC_TXSC_CFG n) = none := by simp [saPage, hlo, hhi, hoff]
  simp [macsecEffect, macEffect, hpage, hsa]

/-- The word that a disabling write sends has `enable` 0 and the other fields as they were (R59). -/
theorem bit_clearedEnable (w : Nat) (hw : w < 2 ^ 32) : bit (BitVec.ofNat 32 (setBits w 0 1 0)).toNat 0 = false := by
  have hval : setBits w 0 1 0 = w - w % 2 := by simp [setBits, bits]
  have hlt : w - w % 2 < 2 ^ 32 := by omega
  have heven : (w - w % 2) % 2 = 0 := by omega
  rw [BitVec.toNat_ofNat, hval, Nat.mod_eq_of_lt hlt]
  simp [bit, bits, heven]

/-- A write of `MAC_PCFG` leaves `enable` as its data has it. -/
theorem bit_newWord_pcfg (m : Chip) (data n : Nat) (hn : n < 20) : bit (newWord m (A.MAC_PCFG n) data) 0 = bit data 0 := by
  rw [newWord_of_row (regRow_pcfg n hn), bit_eq_testBit, bit_eq_testBit, testBit_fieldsWritten]
  simp [show pcfgRow.rw.testBit 0 = true from rfl, show pcfgRow.w1c = 0 from rfl, show pcfgRow.w1s = 0 from rfl]

/-- Settles O48: the effect of each write is that of MAC at its register and data. -/
theorem portRegisterCommandsComplete : Obligations.PortRegisterCommandsComplete := by
  intro s t u m now
  refine ⟨fun who p h hp => ?_, fun who p h hp => ?_, fun who p d hd h hen => ?_, fun who e h => ?_, fun who e h => ?_,
    fun who p d h => ?_, fun who p d => ?_⟩
  · rw [exec, execCounterClear]
    refine write_taken (d := 1) h (regRow_pcntClr p p.isLt) (by decide) (inForceLater_portPage p p.isLt 0xFC (by decide)) fun x => ?_
    exact (macEffects_pcntClr rfl x now _ _ p p.isLt).trans (if_pos hp)
  · rw [exec, execCounterClear]
    refine write_taken (d := 1) h (regRow_pcntClr p p.isLt) (by decide) (inForceLater_portPage p p.isLt 0xFC (by decide)) fun x => ?_
    exact (macEffects_pcntClr rfl x now _ _ p p.isLt).trans (if_neg (Nat.not_lt.2 hp))
  · have hold : bit (oldWord m (A.MAC_PCFG p)) 0 = true := by
      rw [show oldWord m (A.MAC_PCFG p) = rdN m (A.MAC_PCFG p) from oldWord_of_row (regRow_pcfg p p.isLt)]
      exact hen
    have hnew : bit (newWord m (A.MAC_PCFG p) d.toNat) 0 = false := by
      rw [bit_newWord_pcfg m _ p p.isLt, hd, bit_clearedEnable _ (rdN_lt m _)]
    rw [exec, execPortDisable]
    exact writeAt_taken h hd (fun _ => rfl) (regRow_pcfg p p.isLt) (by decide) (inForceLater_portPage p p.isLt 0 (by decide)) fun x =>
      macEffects_pcfg hold hnew x now _ p p.isLt
  · have he : 8 + e.val < 20 := by omega
    rw [exec, execTc10SleepReq]
    exact write_taken (d := 1) h (regRow_pt1Ctrl _ he) (by decide) (inForceLater_portPage _ he 0x38 (by decide)) fun x =>
      macEffects_pt1Ctrl x now _ _ 1 _ he
  · have he : 8 + e.val < 20 := by omega
    rw [exec, execTc10WakeReq]
    exact write_taken (d := 2) h (regRow_pt1Ctrl _ he) (by decide) (inForceLater_portPage _ he 0x38 (by decide)) fun x =>
      macEffects_pt1Ctrl x now _ _ 2 _ he
  · rw [exec, execEncodingAnWrite]
    exact write_noted h (regRow_txscCfg p p.isLt) who.isLt (inForceLater_txscCfg p p.isLt) false
  · rw [land_write (regRow_txscCfg p p.isLt) (by decide)]
    exact congrArg (effected m _ _ .mac) (funext fun x => macEffects_txscCfg x now _ _ _ p p.isLt)

end Sys2Proof.Machine

/-! ## Lanes, link aggregation, and the visits of the scrubber and the ager (R99, R100, R111, R181, R209) -/

namespace Sys2Proof.Machine

/-- Settles O26: each command is its operation where its condition holds, and the change of a lane's state lands by definition. -/
theorem laneAndTableCommandsComplete : Obligations.LaneAndTableCommandsComplete := by
  intro s t m now h
  refine ⟨fun l thr n a habove hslow hlate hdue => ?_, fun l b hbelow hslow hlate hdue => ?_, fun l b => rfl, fun g hchange => ?_,
    fun k i => ?_, fun i e hentry hlapsed => ?_, fun i e hentry hlive => ?_⟩
  · simp only [exec, execLaneSlow, core_finds h, habove]
    rw [if_neg (by simp [hslow, hlate, hdue])]
  · simp only [exec, execLaneClear, core_finds h, hbelow]
    rw [if_neg (by simp [hslow, hlate, hdue])]
  · simp only [exec, execLagTableRebuild, core_finds h]
    rw [if_neg hchange]
  · rw [exec, execTableScrub, core_finds h]
  · simp only [exec, execCtAgerVisit, core_finds h, hentry]
    rw [if_neg (by simp [hlapsed])]
  · simp only [exec, execCtAgerVisit, core_finds h, hentry]
    rw [if_pos hlive]

end Sys2Proof.Machine

/-! ## Writes of PRS (R106, R120, R172, R173, R212, R841) -/

namespace Sys2Proof.Machine

/-! ### The registers of PRS in the map -/

/-- The rows of `PRS_TBL_CMD`, `PRS_LANE_CFG`, `PRS_LANE_CTRL` and `PRS_CT_CMD`. -/
def tblCmdRow : RegRow := regsPrs1[7]'(by decide)
def laneCfgRow : RegRow := regsPrs2[4]'(by decide)
def laneCtrlRow : RegRow := regsPrs2[7]'(by decide)
def ctCmdRow : RegRow := regsPrs3[13]'(by decide)

theorem regRow_tblCmd : regRow A.PRS_TBL_CMD = some (.prs, tblCmdRow, []) := by decide +kernel
theorem regRow_laneCfg : regRow A.PRS_LANE_CFG = some (.prs, laneCfgRow, []) := by decide +kernel
theorem regRow_laneCtrl : regRow A.PRS_LANE_CTRL = some (.prs, laneCtrlRow, []) := by decide +kernel
theorem regRow_ctCmd : regRow A.PRS_CT_CMD = some (.prs, ctCmdRow, []) := by decide +kernel

/-- A write of a register of the lanes is in force from the next cycle on (R120). -/
theorem inForceLater_laneCfg : inForceLater A.PRS_LANE_CFG = true := by decide +kernel
theorem inForceLater_laneCtrl : inForceLater A.PRS_LANE_CTRL = true := by decide +kernel

/-- A command of the tables or of tracked flows is started at once. -/
theorem inForceLater_tblCmd : inForceLater A.PRS_TBL_CMD = false := by decide +kernel
theorem inForceLater_ctCmd : inForceLater A.PRS_CT_CMD = false := by decide +kernel

/-! ### What the writes do beside storing their fields -/

section Effect
variable (m : Chip) (now old new data : Nat) (flt : Bool)

/-- A write of `PRS_LANE_CFG` that changes a threshold starts the measurements of all lanes anew (R841). -/
theorem prsEffect_laneCfg : prsEffect m now A.PRS_LANE_CFG old new data flt =
    if bits old 0 15 ≠ bits new 0 15 then laneCfgChanged m now else m := by
  rw [prsEffect, if_neg (by decide), if_neg (by decide), if_pos rfl]

/-- `PRS_LANE_CTRL` reads 0 again, and `return_all` marks the buckets that are away from their lane (R106). -/
theorem prsEffect_laneCtrl : prsEffect m now A.PRS_LANE_CTRL old new data flt =
    if bit data 0 then returnAll (rstR m A.PRS_LANE_CTRL) else rstR m A.PRS_LANE_CTRL := by
  rw [prsEffect, if_neg (by decide), if_neg (by decide), if_neg (by decide), if_pos rfl]

/-- `PRS_TBL_CMD` with `go` starts or refuses a command of the tables (R172). -/
theorem prsEffect_tblCmd : prsEffect m now A.PRS_TBL_CMD old new data flt = if bit data 31 then tblCommand m now flt else m := if_pos rfl

/-- `PRS_CT_CMD` with `go` starts or refuses a command of connection tracking (R212). -/
theorem prsEffect_ctCmd : prsEffect m now A.PRS_CT_CMD old new data flt = if bit data 31 then ctCommand m now flt else m := by
  rw [prsEffect, if_neg (by decide), if_pos rfl]

end Effect

/-! ### The words of the commands -/

/-- The word of every operation on a table has `go`. -/
theorem bit_tblWord (k : Fin 16) (op : Nat) (hop : op < 8) (staged : Bool) : bit (tblWord k op staged).toNat 31 = true := by
  have hstaged : b2n staged ≤ 1 := by cases staged <;> decide
  have hgo : (k.val + op * 16 + b2n staged * 128 + 2 ^ 31) % 2 ^ 32 / 2 ^ 31 = 1 := by omega
  simp only [tblWord, bit, bits, BitVec.toNat_ofNat, hgo]
  rfl

/-- The word of every operation on tracked flows has `go`. -/
theorem bit_ctWord (op : Nat) (hop : op < 4) : bit (ctWord op).toNat 31 = true := by
  have hgo : (op + 2 ^ 31) % 2 ^ 32 / 2 ^ 31 = 1 := by omega
  simp only [ctWord, bit, bits, BitVec.toNat_ofNat, hgo]
  rfl

section Command
variable {s : State} {t u now who : Nat} {m : Chip}

/-- A taken write of an operation on a table is stored and starts or refuses it (R172, R173). -/
theorem write_tblWord {k : Fin 16} {op : Nat} {staged : Bool} (hop : op < 8)
    (h : Writes s t u m now who A.PRS_TBL_CMD (tblWord k op staged).toNat) (ecc : Bool) :
    s.write t who A.PRS_TBL_CMD (tblWord k op staged) ecc =
      .next (s.done u (wrote m now A.PRS_TBL_CMD (tblWord k op staged).toNat .prs fun x => tblCommand x now ecc)) :=
  write_taken h regRow_tblCmd (by decide) inForceLater_tblCmd fun x =>
    (prsEffect_tblCmd x now _ _ _ ecc).trans (if_pos (bit_tblWord k op hop staged))

/-- A taken write of an operation on tracked flows is stored and starts or refuses it (R212). -/
theorem write_ctWord {op : Nat} (hop : op < 4) (h : Writes s t u m now who A.PRS_CT_CMD (ctWord op).toNat) (ecc : Bool) :
    s.write t who A.PRS_CT_CMD (ctWord op) ecc =
      .next (s.done u (wrote m now A.PRS_CT_CMD (ctWord op).toNat .prs fun x => ctCommand x now ecc)) :=
  write_taken h regRow_ctCmd (by decide) inForceLater_ctCmd fun x =>
    (prsEffect_ctCmd x now _ _ _ ecc).trans (if_pos (bit_ctWord op hop))

end Command

/-- Settles O49: the effect of each write is that of PRS at its register and data, and an operation that was started lands by definition. -/
theorem parserRegisterCommandsComplete : Obligations.ParserRegisterCommandsComplete := by
  intro s t u m now
  refine ⟨fun who d h => ?_, fun who d => ?_, fun who h => ?_, fun who => ?_, fun who k staged ecc h => ?_, fun who k staged ecc h => ?_,
    fun who k staged ecc h => ?_, fun who k staged ecc h => ?_, fun who k staged ecc h => ?_, fun who k staged ecc h => ?_,
    fun who ecc h => ?_, fun who ecc h => ?_, fun who ecc h => ?_, fun who ecc h => ?_, fun acc flt => rfl, fun flt => rfl⟩
  · rw [exec, execLaneCfgWrite]
    exact write_noted h regRow_laneCfg who.isLt inForceLater_laneCfg false
  · rw [land_write regRow_laneCfg (by decide)]
    exact congrArg (effected m _ _ .prs) (funext fun x => prsEffect_laneCfg x now _ _ _ false)
  · rw [exec, execReturnAll]
    exact write_noted (d := 1) h regRow_laneCtrl who.isLt inForceLater_laneCtrl false
  · rw [land_write regRow_laneCtrl (by decide)]
    exact congrArg (effected m _ _ .prs) (funext fun x => prsEffect_laneCtrl x now _ _ 1 false)
  · rw [exec, execTblRead, write_tblWord (by decide) h]
  · rw [exec, execTblWrite, write_tblWord (by decide) h]
  · rw [exec, execTblInsert, write_tblWord (by decide) h]
  · rw [exec, execTblDelete, write_tblWord (by decide) h]
  · rw [exec, execTblSearch, write_tblWord (by decide) h]
  · rw [exec, execTblClearState, write_tblWord (by decide) h]
  · rw [exec, execCtRead, write_ctWord (by decide) h]
  · rw [exec, execCtInsert, write_ctWord (by decide) h]
  · rw [exec, execCtDelete, write_ctWord (by decide) h]
  · rw [exec, execCtFlush, write_ctWord (by decide) h]

end Sys2Proof.Machine

/-! ## Writes of TM (R258, R278, R279, R290, R291) -/

namespace Sys2Proof.Machine

/-! ### Rows that are repeated alike -/

/-- A row is repeated `n` times, each `k` bytes after the one before, and its first repetition spans the offset `o`. -/
def RegRow.spans (n k o : Nat) (r : RegRow) : Bool :=
  decide (r.kind ≠ .counter) && decide (r.dims.head? = some (n, k)) && decide (r.off ≤ o) && decide (o < r.off + k)

/-- A row holds in its repetition `p` what it holds in its first one, under the index `p`. -/
theorem index_repetition {r : RegRow} {n k o p : Nat} (h : r.spans n k o = true) (hp : p < n) :
    r.index (o + k * p) = (r.index o).map fun ix => p :: ix.tail := by
  simp only [RegRow.spans, Bool.and_eq_true, decide_eq_true_eq, List.head?_eq_some_iff] at h
  obtain ⟨⟨⟨hkind, rest, hdims⟩, hlo⟩, hhi⟩ := h
  have hlt : o - r.off < k := by omega
  have hshift : o + k * p - r.off = o - r.off + k * p := by omega
  have hdiv : (o - r.off + k * p) / k = p := by
    rw [Nat.add_mul_div_left _ _ (by omega), Nat.div_eq_of_lt hlt, Nat.zero_add]
  have hmod : (o - r.off + k * p) % k = o - r.off := by rw [Nat.add_mul_mod_self_left, Nat.mod_eq_of_lt hlt]
  have hfirst : (o - r.off) / k = 0 := Nat.div_eq_of_lt hlt
  have hpast : ¬ o + k * p < r.off := by omega
  have hpast0 : ¬ o < r.off := by omega
  have hn : 0 < n := by omega
  simp [RegRow.index, hpast, hpast0, hkind, hdims, dimIndex, hshift, hdiv, hmod, hfirst, Nat.mod_eq_of_lt hlt, hp, hn,
    Function.comp_def]

/-- The search in rows that are repeated alike finds in the repetition `p` what it finds in the first one. -/
theorem findRow_repetition {l : List RegRow} {n k o p : Nat} (h : (l.all (RegRow.spans n k o)) = true) (hp : p < n) :
    findRow l (o + k * p) = (findRow l o).map fun x => (x.1, p :: x.2.tail) := by
  induction l with
  | nil => rfl
  | cons r l ih =>
    obtain ⟨hr, hl⟩ : r.spans n k o = true ∧ (l.all (RegRow.spans n k o)) = true := by simpa using h
    simp only [findRow, index_repetition hr hp, ih hl]
    cases r.index o <;> rfl

/-- A row that is found is found whatever rows follow. -/
theorem findRow_append_of_some {l : List RegRow} {o : Nat} {x : RegRow × List Nat} (h : findRow l o = some x) (rest : List RegRow) :
    findRow (l ++ rest) o = some x := by
  induction l with
  | nil => cases h
  | cons r l ih =>
    simp only [List.cons_append, findRow] at h ⊢
    cases hix : r.index o with
    | none => exact ih (by simpa [hix] using h)
    | some ix => simpa [hix] using h

/-! ### The registers of TM in the map -/

/-- The rows of `TM_PORT_CMD`, `TM_SCH_PORT_CFG`, `TM_PURSE_CFG`, `TM_SCH_Q_CFG` and `TM_CBS_CFG`. -/
def portCmdRow : RegRow := regsTm1[18]'(by decide)
def schPortCfgRow : RegRow := regsTm2[14]'(by decide)
def purseCfgRow : RegRow := regsTm2[15]'(by decide)
def schQCfgRow : RegRow := regsTm2[19]'(by decide)
def cbsCfgRow : RegRow := regsTm3[0]'(by decide)

/-- A register of a port in TM: `i` rows end before the first port's registers, and the `j` rows after them, the last of which is the
register's, are repeated for each port. -/
theorem regRow_tm_of_port {a o k e : Nat} {r : RegRow} {ix : List Nat} {p : Fin 24} (i j : Nat) (ha : a = 0x40600000 + (o + k * p.val))
    (hrange : o + k * p.val < 0x100000) (hbefore : ((regsTm.take i).all fun r => r.endsBy e) = true) (he : e ≤ o)
    (hport : (((regsTm.drop i).take j).all (RegRow.spans 24 k o)) = true) (hfirst : findRow ((regsTm.drop i).take j) o = some (r, 0 :: ix)) :
    regRow a = some (.tm, r, p.val :: ix) := by
  have hblk : blkOf a = some .tm := blkOf_of_range .tm (by simp only [Blk.base]; omega) (by simp only [Blk.base, Blk.size]; omega)
  have hfound : findRow ((regsTm.drop i).take j) (o + k * p.val) = some (r, p.val :: ix) := by
    rw [findRow_repetition hport p.isLt, hfirst]
    rfl
  have hfind : findRow regsTm (o + k * p.val) = some (r, p.val :: ix) := by
    rw [← List.take_append_drop i regsTm, findRow_append_of_endsBy hbefore (by omega), ← List.take_append_drop j (regsTm.drop i)]
    exact findRow_append_of_some hfound _
  simp only [regRow, hblk, show a - Blk.tm.base = o + k * p.val by simp only [Blk.base]; omega, Blk.rows, hfind, Option.map_some]

theorem regRow_portCmd (p : Fin 24) : regRow (A.TM_PORT_CMD p) = some (.tm, portCmdRow, [p.val]) :=
  regRow_tm_of_port (o := 0x1008) (k := 0x10) (e := 0x58) 16 3 (by unfold A.TM_PORT_CMD; omega) (by omega) (by decide) (by decide)
    (by decide) rfl

/-- The rows before those of the schedulers end before them. -/
theorem endsBy_sch : ((regsTm.take 34).all fun r => r.endsBy 0x20000) = true := by decide

theorem regRow_schPortCfg (p : Fin 24) : regRow (A.TM_SCH_PORT_CFG p) = some (.tm, schPortCfgRow, [p.val]) :=
  regRow_tm_of_port (o := 0x20000) (k := 0x100) 34 1 (by unfold A.TM_SCH_PORT_CFG; omega) (by omega) endsBy_sch (by decide) (by decide) rfl

theorem regRow_purseCfg (p : Fin 24) : regRow (A.TM_PURSE_CFG p) = some (.tm, purseCfgRow, [p.val]) :=
  regRow_tm_of_port (o := 0x20004) (k := 0x100) 34 2 (by unfold A.TM_PURSE_CFG; omega) (by omega) endsBy_sch (by decide) (by decide) rfl

theorem regRow_schQCfg (p : Fin 24) (c : Fin 8) : regRow (A.TM_SCH_Q_CFG p c) = some (.tm, schQCfgRow, [p.val, c.val]) := by
  refine regRow_tm_of_port (o := 0x20020 + c.val * 0x10) (k := 0x100) 34 6 (by unfold A.TM_SCH_Q_CFG; omega) (by omega) endsBy_sch
    (by omega) ?_ ?_
  · revert c
    decide
  · fin_cases c <;> rfl

theorem regRow_cbsCfg (p : Fin 24) (c : Fin 8) : regRow (A.TM_CBS_CFG p c) = some (.tm, cbsCfgRow, [p.val, c.val]) := by
  refine regRow_tm_of_port (o := 0x20024 + c.val * 0x10) (k := 0x100) 34 7 (by unfold A.TM_CBS_CFG; omega) (by omega) endsBy_sch
    (by omega) ?_ ?_
  · revert c
    decide
  · fin_cases c <;> rfl

/-! ### The page of a port's scheduler -/

/-- An address in the page of a port's scheduler. -/
theorem schPage_of_port {a off : Nat} {p : Fin 24} (ha : a = 0x40620000 + off + p.val * 0x100) (hoff : off < 0x100) :
    schPage a = some (p.val, off) := by
  have hpos : 0x40620000 ≤ a ∧ a < 0x40621800 ∧ (a - 0x40620000) / 0x100 = p.val ∧ (a - 0x40620000) % 0x100 = off := by omega
  obtain ⟨hlo, hhi, hport, hpage⟩ := hpos
  simp [schPage, hlo, hhi, hport, hpage]

theorem schPage_schPortCfg (p : Fin 24) : schPage (A.TM_SCH_PORT_CFG p) = some (p.val, 0) := schPage_of_port rfl (by decide)

theorem schPage_purseCfg (p : Fin 24) : schPage (A.TM_PURSE_CFG p) = some (p.val, 4) := schPage_of_port rfl (by decide)

theorem schPage_schQCfg (p : Fin 24) (c : Fin 8) : schPage (A.TM_SCH_Q_CFG p c) = some (p.val, 0x20 + c.val * 0x10) :=
  schPage_of_port (by unfold A.TM_SCH_Q_CFG; omega) (by omega)

theorem schPage_cbsCfg (p : Fin 24) (c : Fin 8) : schPage (A.TM_CBS_CFG p c) = some (p.val, 0x24 + c.val * 0x10) :=
  schPage_of_port (by unfold A.TM_CBS_CFG; omega) (by omega)

/-- The commands of the ports are in no scheduler's page. -/
theorem schPage_portCmd (p : Fin 24) : schPage (A.TM_PORT_CMD p) = none := if_neg (by unfold A.TM_PORT_CMD; simp; omega)

/-- The offsets in a scheduler's page of the registers that are in force from the next cycle on: the port's configuration, its Purse, and
the shapers of its classes (R274, R278, R291). -/
theorem inForceLater_of_schPage {a n off : Nat} (h : schPage a = some (n, off))
    (hoff : off = 0 ∨ off = 4 ∨ 0x20 ≤ off ∧ off < 0xA0 ∧ off % 16 = 4) : inForceLater a = true := by
  simp only [inForceLater, h]
  rcases hoff with rfl | rfl | ⟨hlo, hhi, hmod⟩
  · simp
  · simp
  · simp [hlo, hhi, hmod]

/-- The other registers of TM are in force at once, but for the configuration of queues and the hold times of ports (R262), of which the
latter are at multiples of 16 below `0x40601180`. -/
theorem inForceLater_of_tm {a : Nat} (hlo : 0x40600000 ≤ a) (hhi : a < 0x40700000) (hqueue : a < 0x40604000 ∨ 0x40604C00 ≤ a)
    (hhold : a % 16 ≠ 0 ∨ 0x40601180 ≤ a)
    (hpage : ∀ x ∈ schPage a, ¬ (x.2 = 0 ∨ x.2 = 4 ∨ 0x20 ≤ x.2 ∧ x.2 < 0xA0 ∧ x.2 % 16 = 4)) : inForceLater a = false := by
  rcases hsch : schPage a with _ | ⟨n, off⟩
  all_goals
    simp only [hsch, Option.mem_def, Option.some.injEq, forall_eq', reduceCtorEq] at hpage
    simp only [inForceLater, hsch, Bool.or_eq_false_iff, Bool.and_eq_false_iff, List.any_eq_false, beq_eq_false_iff_ne, beq_iff_eq,
      decide_eq_false_iff_not, List.mem_range, and_true]
    unfold A.PRS_CT_TMO_TCP0 A.PRS_CT_TMO_TCP1 A.PRS_CT_TMO_UDP A.PRS_CT_TMO_GEN A.PRS_FW_LOG A.TM_PORT_HOLD A.TIME_Dd_RATE
      A.TIME_Dd_ADJ_CMD A.MACSEC_TXSC_CFG A.MINT_TELLER_CFG A.MINT_STREAM_CFG A.DMA_CFG A.LEDGER_CFG A.LEDGER_EXPORT_CFG
      A.LEDGER_FRAME_RX_PORTS A.LEDGER_FRAME_TX_PORTS A.LEDGER_STREAM_EN irqRoute A.GLB_IRQ_ROUTE_H0
    and_intros
    · exact Or.inl (Or.inl (Or.inr (by omega)))
    all_goals (intros; omega)

/-- A flush is done at once. -/
theorem inForceLater_portCmd (p : Fin 24) : inForceLater (A.TM_PORT_CMD p) = false := by
  have hpos : A.TM_PORT_CMD p = 0x40601008 + p.val * 0x10 := rfl
  refine inForceLater_of_tm (by omega) (by omega) (by omega) (by omega) ?_
  rw [schPage_portCmd]
  rintro _ ⟨⟩

/-- A quantum waits in its register for the class's next addition (R279), so the write itself is not put off. -/
theorem inForceLater_schQCfg (p : Fin 24) (c : Fin 8) : inForceLater (A.TM_SCH_Q_CFG p c) = false := by
  have hpos : A.TM_SCH_Q_CFG p c = 0x40620020 + p.val * 0x100 + c.val * 0x10 := rfl
  refine inForceLater_of_tm (by omega) (by omega) (by omega) (by omega) ?_
  rw [schPage_schQCfg]
  rintro _ ⟨⟩
  dsimp only
  omega

/-! ### What the writes do beside storing their fields -/

section Effect
variable (m : Chip) (now old new data : Nat) (p : Fin 24)

/-- A write of `TM_SCH_PORT_CFG` changes the strict count (R278). -/
theorem tmEffect_schPortCfg : tmEffect m now (A.TM_SCH_PORT_CFG p) old new data = strictChange m p old new := by
  simp only [tmEffect, schPage_schPortCfg, if_pos]

/-- A write of `TM_PURSE_CFG` replaces the Purse (R290). -/
theorem tmEffect_purseCfg : tmEffect m now (A.TM_PURSE_CFG p) old new data = purseWrite m p new := by
  simp only [tmEffect, schPage_purseCfg, if_pos]
  rw [if_neg (by decide)]

/-- A write of a quantum does nothing beside storing it (R279). -/
theorem tmEffect_schQCfg (c : Fin 8) : tmEffect m now (A.TM_SCH_Q_CFG p c) old new data = m := by
  simp only [tmEffect, schPage_schQCfg]
  rw [if_neg (by omega), if_neg (by omega), if_neg (by simp)]

/-- A write of `TM_CBS_CFG` replaces the shaper of the class (R290). -/
theorem tmEffect_cbsCfg (c : Fin 8) : tmEffect m now (A.TM_CBS_CFG p c) old new data = cbsWrite m p c new := by
  have hcls : (0x24 + c.val * 0x10 - 0x20) / 16 = c.val := by omega
  simp only [tmEffect, schPage_cbsCfg, hcls]
  rw [if_neg (by omega), if_neg (by omega), if_pos (by simp; omega)]

variable {m p}

/-- A write of `TM_PORT_CMD` with `flush` flushes a port in HOLD, and the bit reads 0 again (R258). -/
theorem tmEffect_portCmd_of_hold {e : Nat} (hhold : tmPort m p = .hold e) (hflush : bit data 0 = true) :
    tmEffect m now (A.TM_PORT_CMD p) old new data = flushPort (clrR m (A.TM_PORT_CMD p) 1) now p := by
  have hpos : 0x40601008 ≤ A.TM_PORT_CMD p ∧ A.TM_PORT_CMD p < 0x40601180 ∧ (A.TM_PORT_CMD p - 0x40601008) % 16 = 0 ∧
      (A.TM_PORT_CMD p - 0x40601008) / 16 = p.val := by
    unfold A.TM_PORT_CMD
    omega
  obtain ⟨hlo, hhi, hmod, hport⟩ := hpos
  have hcmd : portCmd (A.TM_PORT_CMD p) = some p.val := by simp [portCmd, hlo, hhi, hmod, hport]
  have hkept : tmPort (clrR m (A.TM_PORT_CMD p) 1) p = .hold e := hhold
  simp only [tmEffect, schPage_portCmd, hcmd, hkept, hflush, if_true]

end Effect

/-- Storing the fields of a write leaves the state of TM. -/
@[simp] theorem stored_tm (m : Chip) (a data : Nat) : (stored m a data).tm = m.tm := by
  unfold stored
  split
  · dsimp only
    split <;> split <;> rfl
  · rfl

/-- Storing the fields of a write leaves the state of every port of TM. -/
theorem tmPort_stored (m : Chip) (a data n : Nat) : tmPort (stored m a data) n = tmPort m n := by
  simp only [tmPort, stored_tm]

/-- A register write that its block takes whole, where the effect is known on the device with the fields stored only. -/
theorem write_taken_of_stored {s : State} {t u now who a : Nat} {m : Chip} {b : Blk} {r : RegRow} {ix : List Nat} {d : Word}
    {g : Chip → Chip} {flt : Bool} (h : Writes s t u m now who a d.toNat) (hrow : regRow a = some (b, r, ix)) (hoff : 4 < r.off)
    (hnow : inForceLater a = false)
    (hg : blockEffect m (stored m a d.toNat) now who b a (oldWord m a) (newWord m a d.toNat) d.toNat flt = g (stored m a d.toNat)) :
    s.write t who a d flt = .next (s.done u (wrote m now a d.toNat b g)) := by
  rw [write_taken h hrow hoff hnow fun _ => rfl]
  simp only [wrote, effected, hg]

/-- Settles O50: the effect of each write is that of TM at its register and data, and storing the fields leaves the port in HOLD. -/
theorem schedulerRegisterCommandsComplete : Obligations.SchedulerRegisterCommandsComplete := by
  intro s t u m now
  refine ⟨fun who p e h hhold => ?_, fun who p d h => ?_, fun who p d => ?_, fun who p c d h => ?_, fun who p c d h => ?_,
    fun who p c d => ?_, fun who p d h => ?_, fun who p d => ?_⟩
  · have hstored : tmPort (stored m (A.TM_PORT_CMD p) 1) p = .hold e := (tmPort_stored m _ 1 p).trans hhold
    rw [exec, execTmPortFlush]
    exact write_taken_of_stored (d := 1) h (regRow_portCmd p) (by decide) (inForceLater_portCmd p)
      (tmEffect_portCmd_of_hold now _ _ 1 hstored rfl)
  · rw [exec, execSchPortCfgWrite]
    exact write_noted h (regRow_schPortCfg p) who.isLt (inForceLater_of_schPage (schPage_schPortCfg p) (.inl rfl)) false
  · rw [land_write (regRow_schPortCfg p) (by decide)]
    exact congrArg (effected m _ _ .tm) (funext fun x => tmEffect_schPortCfg x now _ _ _ p)
  · rw [exec, execQuantumWrite]
    exact write_taken h (regRow_schQCfg p c) (by decide) (inForceLater_schQCfg p c) fun x => tmEffect_schQCfg x now _ _ _ p c
  · rw [exec, execCbsCfgWrite]
    exact write_noted h (regRow_cbsCfg p c) who.isLt (inForceLater_of_schPage (schPage_cbsCfg p c) (by omega)) false
  · rw [land_write (regRow_cbsCfg p c) (by decide)]
    exact congrArg (effected m _ _ .tm) (funext fun x => tmEffect_cbsCfg x now _ _ _ p c)
  · rw [exec, execPurseCfgWrite]
    exact write_noted h (regRow_purseCfg p) who.isLt (inForceLater_of_schPage (schPage_purseCfg p) (.inr (.inl rfl))) false
  · rw [land_write (regRow_purseCfg p) (by decide)]
    exact congrArg (effected m _ _ .tm) (funext fun x => tmEffect_purseCfg x now _ _ _ p)

end Sys2Proof.Machine

/-! ## Time alone (R232, R246, R281, R286, R328) -/

namespace Sys2Proof.Machine

/-! ### The end of a cycle in which nothing waits -/

section Cycle
variable {m : Chip}

/-- Without a pending activation none takes effect (R789). -/
theorem settleAct_of_pend_none (h : m.cfg.pend = none) (now : Nat) : settleAct m now = m := by
  simp only [settleAct, h]

/-- Without a lane decision in the cycle none is made (R77). -/
theorem decisions_of_dec_nil (h : m.prs.dec = []) (now : Nat) : decisions m now = m := by
  simp only [decisions, h, List.isEmpty_nil, if_true]

/-- Without a copy that comes to admission none is judged (R239). -/
theorem admissions_of_adm_nil (h : m.tm.adm = []) (now : Nat) : admissions m now = m := by
  simp only [admissions, h, List.isEmpty_nil, if_true]

/-- Without an emission that was triggered in the cycle none is made (R524). -/
theorem emissions_of_dueNow_nil (h : m.sge.dueNow = []) (now : Nat) : emissions m now = m := by
  simp only [emissions, h, List.isEmpty_nil, if_true]

/-- The end of a cycle in which nothing waits changes nothing. -/
theorem endCycle_of_none_waits (hpend : m.cfg.pend = none) (hdec : m.prs.dec = []) (hadm : m.tm.adm = []) (hdue : m.sge.dueNow = [])
    (hfresh : m.fresh = []) (now : Nat) : endCycle m now = m := by
  rw [endCycle, settleAct_of_pend_none hpend, decisions_of_dec_nil hdec, admissions_of_adm_nil hadm, emissions_of_dueNow_nil hdue,
    ← hfresh]

end Cycle

/-! ### Lanes without heads -/

section Lanes
variable {m : Chip}

/-- Where every lane's FIFO is empty, so is that of each lane by number. -/
theorem laneOf_fifo_nil (h : ∀ x ∈ m.prs.lanes, x.fifo = []) (l : Nat) : (laneOf m l).fifo = [] := by
  rw [laneOf, List.getD_eq_getElem?_getD]
  cases hl : m.prs.lanes[l]? with
  | none => rfl
  | some x => exact h x (List.mem_of_getElem? hl)

/-- A lane with an empty FIFO accepts no head (R75). -/
theorem laneRun_of_fifo_nil {l : Nat} (h : (laneOf m l).fifo = []) (a b k : Nat) : laneRun a b l k m = m := by
  cases k with
  | zero => rfl
  | succ k => simp only [laneRun, h, List.head?_nil]

/-- Lanes with empty FIFOs accept no heads (R75). -/
theorem lanesRun_of_fifos_nil (h : ∀ x ∈ m.prs.lanes, x.fifo = []) (a b : Nat) : lanesRun m a b = m :=
  List.foldlRecOn _ _ (motive := (· = m)) rfl fun x hx l _ => by
    rw [hx, laneRun_of_fifo_nil (laneOf_fifo_nil h l)]

end Lanes

/-! ### Buffer and queues without frames and copies, schedulers without shapers and Purse -/

section Advance
variable {m : Chip}

/-- Without copies no void entry leaves a queue (R246). -/
theorem stripHeads_of_copies_nil (h : m.tm.copies = []) (a b : Nat) : stripHeads m a b = m := by
  simp only [stripHeads, h, List.filter_nil, List.map_nil, List.dedup_nil, List.foldl_nil]

/-- Without frames no cell fills (R232). -/
theorem fillCells_of_frames_nil (h : m.tm.frames = []) (a b : Nat) : fillCells m a b = m := by
  simp only [fillCells, h, List.foldl_nil, Nat.zero_le, if_true]

/-- Without an enabled shaper and an enabled Purse neither credit nor tokens accrue (R281, R286). -/
theorem accrue_of_unshaped (h : ∀ x ∈ m.tm.sch, x.shapers = [] ∧ x.purse = none) (a b : Nat) : accrue m a b = m := by
  have hall : (m.tm.sch.all fun x => x.shapers.isEmpty && x.purse.isNone) = true := by
    refine List.all_eq_true.2 fun x hx => ?_
    obtain ⟨hshapers, hpurse⟩ := h x hx
    simp only [hshapers, hpurse, List.isEmpty_nil, Option.isNone_none, Bool.and_self]
  rw [accrue, if_pos hall]

/-- Without copies no planned cut is made (R328). -/
theorem cutAll_of_copies_nil (h : m.tm.copies = []) (a b : Nat) : cutAll m a b = m := by
  simp only [cutAll, h, List.filter_nil, List.foldl_nil]

/-- Without an enabled shaper no slope reaches its port's rate (R284). -/
theorem slopeOver_of_unshaped (h : ∀ x ∈ m.tm.sch, x.shapers = []) : slopeOver m = false := by
  refine List.any_eq_false.2 fun p hp => ?_
  simp only [h p.1 (List.fst_mem_of_mem_zipIdx hp), List.any_nil, Bool.and_false, Bool.false_eq_true, not_false_eq_true]

/-- A span of time changes nothing where there is no frame, no copy, no enabled shaper and no enabled Purse. -/
theorem advance_of_empty (hframes : m.tm.frames = []) (hcopies : m.tm.copies = [])
    (hsch : ∀ x ∈ m.tm.sch, x.shapers = [] ∧ x.purse = none) (a b : Nat) : advance m a b = m := by
  have hslope : slopeOver m = false := slopeOver_of_unshaped fun x hx => (hsch x hx).1
  simp only [advance, stripHeads_of_copies_nil hcopies, fillCells_of_frames_nil hframes, accrue_of_unshaped hsch,
    cutAll_of_copies_nil hcopies, hslope, Bool.false_eq_true, if_false, ite_self]

end Advance

/-! ### The device as a command finds it -/

/-- What happens by itself is nothing where the end of the cycle, the lanes and the span change nothing and no effect is due later. -/
theorem pass_of_fixed {m : Chip} {a b : Nat} (hend : endCycle m a = m) (hlate : m.late = []) (hlanes : lanesRun m a b = m)
    (hadv : advance m a b = m) (k : Nat) : pass k m a b = m := by
  cases k with
  | zero => rw [pass, hlanes, hadv]
  | succ k => simp only [pass, hend, hlate, List.head?_nil, hlanes, hadv, ite_self]

/-- A command finds the device as it is where CORE is off, FCLK runs, a span changes nothing, and no event bit and no late effect is there
to be lost. -/
theorem found_of_core_off {s : State} {t : Nat} (hcore : coreOn s.chip = false) (hfclk : s.chip.pwr.fclk = true)
    (hadv : advance s.chip s.lt (s.when_ t) = s.chip) (hlate : s.chip.late = []) (hfresh : s.chip.fresh = []) : s.found t = s.chip := by
  have hfrac : (s.chip.pwr.fclk || s.chip.pwr.mode == .off) = true := by rw [hfclk, Bool.true_or]
  simp only [State.found, hcore, hfrac, hadv, Bool.false_eq_true, if_true, if_false]
  rw [← hlate, ← hfresh]

/-- Settles O9: where CORE runs, the end of the cycle, the lanes and the span of time each change nothing; where it is off, the span alone
counts. -/
theorem timeAloneChangesNothing : Obligations.TimeAloneChangesNothing := by
  intro s t hframes hcopies hsch hlanes hdec hadm hdue hlate hpend hfresh hfclk
  have hadv : advance s.chip s.lt (s.when_ t) = s.chip := advance_of_empty hframes hcopies hsch _ _
  cases hcore : coreOn s.chip with
  | false => exact found_of_core_off hcore hfclk hadv hlate hfresh
  | true =>
    have hend : endCycle s.chip s.lt = s.chip := endCycle_of_none_waits hpend hdec hadm hdue hfresh _
    have hrun : lanesRun s.chip s.lt (s.when_ t) = s.chip := lanesRun_of_fifos_nil (fun l hl => (hlanes l hl).1) _ _
    rw [State.found, hcore, if_pos rfl]
    exact pass_of_fixed hend hlate hrun hadv _

end Sys2Proof.Machine

/-! ## Slews, holdover, the base cycle and gate lists (R305, R307, R310, R316, R320) -/

namespace Sys2Proof.Machine

/-- A command of logic in CORE answers what its effect is on the device that it finds. -/
theorem core_answers {s : State} {t now : Nat} {m x : Chip} {f : Nat → Chip → Chip} (h : Finds s t m now) (hf : f now m = x) :
    s.core t f = .next (s.done t x) := by
  rw [core_finds h, hf]

/-- A running slew that has brought the working offset to 0 ends with its interrupt (R305). -/
theorem slewDone_of_wOff_zero {m : Chip} {now : Nat} (hslew : m.time.slewing = true) (hdone : wOff m now = 0) :
    slewDone m now = setIrq (updTime m fun x => { x with w := 0, wAt := now, slewing := false }) .time 4 :=
  if_pos (by simp [hslew, hdone])

/-- Settles O28: each command is its operation where its condition holds. -/
theorem timeAndGateCommandsComplete : Obligations.TimeAndGateCommandsComplete := by
  intro s t m now h
  refine ⟨fun hslew hdone => ?_, fun hsteered hlapsed => ?_, fun hen hdue => ?_, fun p => ?_, fun p ct hct hdue => ?_⟩
  · change execSlewDone t s = _
    exact core_answers h (slewDone_of_wOff_zero hslew hdone)
  · change execHoldoverEntry t s = _
    exact core_answers h (if_pos (by simp [hsteered, hlapsed]))
  · change execBaseCycleBoundary t s = _
    exact core_answers h (if_pos (by simp only [hen, hdue, decide_true, Bool.and_true]))
  · change execGateEntryChange t p s = _
    exact core_answers h rfl
  · change execGateChangeTime t p s = _
    refine core_answers h ?_
    simp only [hct]
    exact if_neg (Int.not_lt.2 hdue)

end Sys2Proof.Machine

/-! ## Preemption, trim windows and recovery timers (R326, R330, R332, R339) -/

namespace Sys2Proof.Machine

/-- Settles O29: each command is its operation where its condition holds. -/
theorem preemptionAndTrimCommandsComplete : Obligations.PreemptionAndTrimCommandsComplete := by
  intro s t m now h
  refine ⟨fun p hactive hdue => ?_, fun p hhold hdue => ?_, fun p hen hdis hlink hopen htries hlate => ?_, fun p hsent => ?_,
    fun p hsent htries hlate => ?_, fun p a b hwin htrim hidle hearly => ?_, fun p a b htrim hwin hdue => ?_,
    fun p htrim hwin => ?_, fun fn r hfn hlapsed => ?_⟩
  · change execMacHoldStart t p s = _
    exact core_answers h (if_pos (by simp [hactive, hdue]))
  · change execMacHoldEnd t p s = _
    exact core_answers h (if_pos (by simp [hhold, hdue]))
  · change execPreemptionVerify t p s = _
    exact core_answers h (if_pos (by simpa [hen, hdis, hlink, hopen, htries] using hlate))
  · change execVerifyResponse t p s = _
    exact core_answers h (if_pos hsent)
  · change execVerifyFail t p s = _
    exact core_answers h (if_pos (by simp [hsent, htries, hlate]))
  · change execTrimGateStart t p s = _
    refine core_answers h ?_
    simp only [hwin]
    exact if_pos (by simp [htrim, hidle, hearly])
  · change execTrimRestore t p s = _
    refine core_answers h (if_pos ?_)
    simp [htrim, hwin, hdue]
  · change execTrimRestore t p s = _
    refine core_answers h (if_pos ?_)
    simp [htrim, hwin]
  · change execRecoveryResetTimer t fn s = _
    refine core_answers h ?_
    simp only [hfn]
    exact if_pos hlapsed

end Sys2Proof.Machine

/-! ## Writes of TIME (R300, R302, R303, R304, R309) -/

namespace Sys2Proof.Machine

/-! ### The registers of TIME in the map -/

/-- The rows of `TIME_CFG`, `TIME_CMD`, `TIME_Dd_RATE`, `TIME_Dd_ADJ_CMD` and `TIME_TXTS_POP`. -/
def timeCfgRow : RegRow := regsTime1[4]'(by decide)
def timeCmdRow : RegRow := regsTime1[8]'(by decide)
def rateRow : RegRow := regsTime2[2]'(by decide)
def adjCmdRow : RegRow := regsTime2[5]'(by decide)
def txtsPopRow : RegRow := regsTime2[14]'(by decide)

/-- A register of TIME, by its offset. -/
theorem regRow_time_of_findRow {a o : Nat} {r : RegRow} {ix : List Nat} (ha : a = 0x40A00000 + o) (ho : o < 0x100000)
    (hfind : findRow regsTime o = some (r, ix)) : regRow a = some (.time, r, ix) := by
  have hblk : blkOf a = some .time := blkOf_of_range .time (by simp only [Blk.base]; omega) (by simp only [Blk.base, Blk.size]; omega)
  simp only [regRow, hblk, show a - Blk.time.base = o by simp only [Blk.base]; omega, Blk.rows, hfind, Option.map_some]

theorem regRow_timeCfg : regRow A.TIME_CFG = some (.time, timeCfgRow, []) := regRow_time_of_findRow (o := 0x10) rfl (by decide) rfl

theorem regRow_timeCmd : regRow A.TIME_CMD = some (.time, timeCmdRow, []) := regRow_time_of_findRow (o := 0x20) rfl (by decide) rfl

theorem regRow_txtsPop : regRow A.TIME_TXTS_POP = some (.time, txtsPopRow, []) :=
  regRow_time_of_findRow (o := 0x318) rfl (by decide) rfl

theorem regRow_rate (k : Fin 2) : regRow (A.TIME_Dd_RATE k) = some (.time, rateRow, [k.val]) := by
  refine regRow_time_of_findRow (o := 0x100 + k.val * 0x40) (by unfold A.TIME_Dd_RATE; omega) (by omega) ?_
  fin_cases k <;> rfl

theorem regRow_adjCmd (k : Fin 2) : regRow (A.TIME_Dd_ADJ_CMD k) = some (.time, adjCmdRow, [k.val]) := by
  refine regRow_time_of_findRow (o := 0x110 + k.val * 0x40) (by unfold A.TIME_Dd_ADJ_CMD; omega) (by omega) ?_
  fin_cases k <;> rfl

/-- A rate is in force from the next cycle on (R302). -/
theorem inForceLater_rate (k : Fin 2) : inForceLater (A.TIME_Dd_RATE k) = true := by
  fin_cases k <;> rfl

/-- An offset command takes effect in the next cycle (R303). -/
theorem inForceLater_adjCmd (k : Fin 2) : inForceLater (A.TIME_Dd_ADJ_CMD k) = true := by
  fin_cases k <;> rfl

/-- A change of the working domain, a snapshot and a pop of the stamp queue are done at once. -/
theorem inForceLater_timeCfg : inForceLater A.TIME_CFG = false := rfl
theorem inForceLater_timeCmd : inForceLater A.TIME_CMD = false := rfl
theorem inForceLater_txtsPop : inForceLater A.TIME_TXTS_POP = false := rfl

/-! ### What the writes do beside storing their fields -/

section Effect
variable (m : Chip) (now old new data : Nat)

/-- A write of `TIME_CFG` resolves a change of the working domain, with the working offset brought up to date under the word that was in
force until now (R304). -/
theorem timeEffect_cfg : timeEffect m now A.TIME_CFG old new data =
    workingChange (wrN (syncW (wrN m A.TIME_CFG old) now) A.TIME_CFG new) now (bits old 0 1) := if_pos rfl

/-- `TIME_CMD` reads 0 again, and `snap` captures the times (R300). -/
theorem timeEffect_cmd : timeEffect m now A.TIME_CMD old new data =
    if bit data 0 then timeSnap (rstR m A.TIME_CMD) now else rstR m A.TIME_CMD := by
  rw [timeEffect, if_neg (by decide), if_neg (by decide), if_neg (by decide), if_pos rfl]

/-- A write of a rate steers its domain (R302). -/
theorem timeEffect_rate (k : Fin 2) : timeEffect m now (A.TIME_Dd_RATE k) old new data = rateWrite m now k := by
  fin_cases k <;> rfl

/-- `TIME_Dd_ADJ_CMD` reads 0 again, and `apply` moves its domain (R303). -/
theorem timeEffect_adjCmd (k : Fin 2) : timeEffect m now (A.TIME_Dd_ADJ_CMD k) old new data =
    if bit data 0 then offsetCommand (rstR m (A.TIME_Dd_ADJ_CMD k)) now k else rstR m (A.TIME_Dd_ADJ_CMD k) := by
  fin_cases k <;> rfl

/-- `TIME_TXTS_POP` removes the oldest transmit stamp (R309). -/
theorem timeEffect_txtsPop : timeEffect m now A.TIME_TXTS_POP old new data =
    if bit data 0 then updTime m fun x => { x with txts := x.txts.drop 1 } else m := rfl

end Effect

/-- Settles O51: the effect of each write is that of TIME at its register and data. -/
theorem timeRegisterCommandsComplete : Obligations.TimeRegisterCommandsComplete := by
  intro s t u m now
  refine ⟨fun who k d h => ?_, fun who k d => ?_, fun who k h => ?_, fun who k => ?_, fun who d h => ?_, fun who h => ?_,
    fun who h => ?_⟩
  · change execRateWrite t who k d s = _
    exact write_noted h (regRow_rate k) who.isLt (inForceLater_rate k) false
  · rw [land_write (regRow_rate k) (by decide)]
    exact congrArg (effected m _ _ .time) (funext fun x => timeEffect_rate x now _ _ _ k)
  · change execOffsetCommand t who k s = _
    exact write_noted (d := 1) h (regRow_adjCmd k) who.isLt (inForceLater_adjCmd k) false
  · rw [land_write (regRow_adjCmd k) (by decide)]
    exact congrArg (effected m _ _ .time) (funext fun x => timeEffect_adjCmd x now _ _ 1 k)
  · change execWorkingDomainChange t who d s = _
    exact write_taken h regRow_timeCfg (by decide) inForceLater_timeCfg fun x => timeEffect_cfg x now _ _ _
  · change execTimeSnap t who s = _
    exact write_taken (d := 1) h regRow_timeCmd (by decide) inForceLater_timeCmd fun x => timeEffect_cmd x now _ _ 1
  · change execTxtsPop t who s = _
    exact write_taken (d := 1) h regRow_txtsPop (by decide) inForceLater_txtsPop fun x => timeEffect_txtsPop x now _ _ 1

end Sys2Proof.Machine

/-! ## The Mint's cores, from estimates to self tests (R356-R364) -/

namespace Sys2Proof.Machine

section Core
variable {m : Chip} {now c : Nat}

/-- The device as it declares a core slow at an estimate: the core is outside the reserve, with its interrupt and record (R359). -/
def slowDeclared (m : Chip) (now c est : Nat) : Chip :=
  emit (setIrq (updCore m c fun x => { x with slow := true, rate := est, resv := false }) .mint 2) 0x0503 (srcId 5 c) now
    [(1, 1), (1, est)]

/-- An AES core outside the reserve that falls below the threshold becomes slow, and where no job runs on it nothing is preempted (R359). -/
theorem declareSlow_of_below {est : Nat} (hc : c < 8) (hslow : (coreOf m c).slow = false) (hquar : (coreOf m c).quar = false)
    (hresv : (coreOf m c).resv = false) (hest : est < fld m A.MINT_TELLER_CFG 8 7) (blocks : Nat) (src : List Byte)
    (hidle : jobOn (slowDeclared m now c est) c = none) : declareSlow m now c est blocks src = slowDeclared m now c est := by
  have hopen : ¬ (decide (8 ≤ c) || (coreOf m c).slow || (coreOf m c).quar) = true := by simp [hc, hslow, hquar]
  rw [declareSlow, if_neg hopen, if_neg (Nat.not_le.2 hest)]
  simp only [slowDeclared] at hidle
  simp only [hidle, hresv, slowDeclared, Bool.false_eq_true, if_false]

/-- A slow core whose known-answer job is at least 10 above the threshold is released (R360). -/
theorem slowKat_of_recovered {rate : Nat} (hslow : (coreOf m c).slow = true) (hrate : fld m A.MINT_TELLER_CFG 8 7 + 10 ≤ rate) :
    slowKat m now c rate = emit (setIrq (updCore (updCore m c fun x => { x with rate := min 100 rate }) c fun x =>
      { x with slow := false }) .mint 2) 0x0503 (srcId 5 c) now [(1, 0), (1, min 100 rate)] := by
  have hkeep : ¬ rate < fld (updCore m c fun x => { x with rate := min 100 rate }) A.MINT_TELLER_CFG 8 7 + 10 := Nat.not_lt.2 hrate
  rw [slowKat, if_neg (by simp [hslow])]
  exact if_neg hkeep

/-- A first mismatch on a core without a ring's job is noted, and the frame or operation is retried (R362). -/
theorem firstMismatch_of_noJob {client : Nat} (hjob : jobOn m c = none) (hclient : client ≠ 1) (who block : Nat) :
    firstMismatch m now c client who block = bump (mismatch m now c client 1 who block) A.retries 1 := by
  simp only [firstMismatch, hjob, hclient, if_false]

/-- A mismatch of the SGE's retry puts an unreserved core into quarantine, and no frame is discarded for it (R363). -/
theorem retryMismatch_of_sge (hjob : jobOn m c = none) (hresv : (coreOf m c).resv = false) (who block : Nat) (out : Bool) (fid : Nat) :
    retryMismatch m now c 2 who block out fid = quarantine (mismatch m now c 2 2 who block) now c 1 := by
  simp [retryMismatch, hjob, hresv]

/-- A mismatch of a ring's retry ends its job with status 0x09 and puts an unreserved core into quarantine (R363). -/
theorem retryMismatch_of_job {j : CJob} (hjob : jobOn m c = some j) (hretry : j.retried = true) (hresv : (coreOf m c).resv = false)
    (client who block : Nat) (out : Bool) (fid : Nat) :
    retryMismatch m now c client who block out fid =
      quarantine (endJob (mismatch m now c 1 2 j.ring block) now { j with core := none } 0x09 0 false true) now c 1 := by
  simp [retryMismatch, hjob, hretry, hresv]

end Core

/-- Settles O30: each command is its operation where its condition holds. -/
theorem cipherJobCommandsComplete : Obligations.CipherJobCommandsComplete := by
  intro s t m now h
  refine ⟨fun desc blk blob ctx blkOk keyOk => ?_, fun c src j hjob => ?_, fun c src j hjob => ?_, fun kecc blocks p src hwait => ?_,
    fun client kecc blocks src hclient => ?_, fun c est blocks src hslow hquar hresv hest hidle => ?_, fun c est blocks src => ?_,
    fun c rate hslow hrate => ?_, fun c client who block hjob hclient => ?_, fun c client who block j _ _ => ?_,
    fun c who block out fid hjob hresv => ?_, fun c client who block out fid j hjob hretry hresv => ?_, fun c htest => ?_,
    fun c htest => ?_⟩
  · change execCipherJobStart t desc blk blob ctx blkOk keyOk s = _
    exact core_answers h rfl
  · change execProvisionalCompletion t c src s = _
    refine core_answers h ?_
    simp only [hjob]
  · change execCipherJobComplete t c src s = _
    refine core_answers h ?_
    simp only [hjob]
  · change execTellerPreempt t 0 kecc blocks src s = _
    refine core_answers h ?_
    simp only [Fin.val_zero, if_true, hwait]
  · change execTellerPreempt t client kecc blocks src s = _
    exact core_answers h (if_neg (Fin.val_ne_of_ne hclient))
  · change execCoreSlowDeclare t c est blocks src s = _
    exact core_answers h (declareSlow_of_below c.isLt hslow hquar hresv hest blocks src hidle)
  · change execCoreSlowDeclare t c est blocks src s = _
    exact core_answers h rfl
  · change execSlowCoreKat t c rate s = _
    exact core_answers h (slowKat_of_recovered hslow hrate)
  · change execMintMismatch t c client who block s = _
    exact core_answers h (firstMismatch_of_noJob hjob (Fin.val_ne_of_ne hclient) who block)
  · change execMintMismatch t c client who block s = _
    exact core_answers h rfl
  · change execMintQuarantine t c 2 who block out fid s = _
    exact core_answers h (retryMismatch_of_sge hjob hresv who block out fid)
  · change execMintQuarantine t c client who block out fid s = _
    exact core_answers h (retryMismatch_of_job hjob hretry hresv client who block out fid)
  · change execSelfTestDone t c true s = _
    exact core_answers h ((if_neg (by simp [htest])).trans (if_pos rfl))
  · change execSelfTestDone t c false s = _
    exact core_answers h ((if_neg (by simp [htest])).trans (if_neg Bool.false_ne_true))

end Sys2Proof.Machine

/-! ## Writes of MINT and VAULT (R364, R421) -/

namespace Sys2Proof.Machine

/-! ### The registers of MINT and VAULT in the map -/

/-- The rows of `MINT_CORE_CTRL` and `VAULT_CTRL`. -/
def coreCtrlRow : RegRow := regsMint1[13]'(by decide)
def vaultCtrlRow : RegRow := regsVault1[5]'(by decide)

theorem regRow_coreCtrl (c : Fin 10) : regRow (A.MINT_CORE_CTRL c) = some (.mint, coreCtrlRow, [c.val]) := by
  fin_cases c <;> rfl

theorem regRow_vaultCtrl : regRow A.VAULT_CTRL = some (.vault, vaultCtrlRow, []) := rfl

/-- A release, a quarantine and the seal are done at once. -/
theorem inForceLater_coreCtrl (c : Fin 10) : inForceLater (A.MINT_CORE_CTRL c) = false := by
  fin_cases c <;> rfl

theorem inForceLater_vaultCtrl : inForceLater A.VAULT_CTRL = false := rfl

/-! ### The cores under a write -/

/-- Storing the fields of a write leaves the Mint's own state, as storing one word does. -/
@[simp] theorem stored_mint (m : Chip) (a data : Nat) : (stored m a data).mint = m.mint := by
  unfold stored
  split
  · dsimp only
    split <;> split <;> rfl
  · rfl

theorem coreOf_wrN (m : Chip) (a v c : Nat) : coreOf (wrN m a v) c = coreOf m c := rfl

theorem coreBusy_wrN (m : Chip) (a v c : Nat) : coreBusy (wrN m a v) c = coreBusy m c := rfl

theorem coreOf_stored (m : Chip) (a data c : Nat) : coreOf (stored m a data) c = coreOf m c := by
  simp only [coreOf, stored_mint]

theorem coreBusy_stored (m : Chip) (a data c : Nat) : coreBusy (stored m a data) c = coreBusy m c := by
  simp only [coreBusy, stored_mint]

/-! ### What the writes do beside storing their fields -/

theorem corePage_coreCtrl (c : Fin 10) : corePage (A.MINT_CORE_CTRL c) = some (c.val, 4) := by
  have hpos : 0x40B00200 ≤ A.MINT_CORE_CTRL c ∧ A.MINT_CORE_CTRL c < 0x40B00340 ∧ (A.MINT_CORE_CTRL c - 0x40B00200) / 0x20 = c.val ∧
      (A.MINT_CORE_CTRL c - 0x40B00200) % 0x20 = 4 := by
    unfold A.MINT_CORE_CTRL
    omega
  obtain ⟨hlo, hhi, hcore, hoff⟩ := hpos
  simp [corePage, hlo, hhi, hcore, hoff]

/-- The device with `MINT_CORE_CTRL` of a core reading what the core has pending: bit 0 its self test, bit 1 its quarantine (R364). -/
def ctrlPending (m : Chip) (c : Nat) : Chip :=
  wrN m (A.MINT_CORE_CTRL c) (b2n (coreOf m c).test + 2 * b2n (coreOf m c).forced)

/-- `release` marks the core as in its self test, and `MINT_CORE_CTRL` reads so (R364). -/
theorem mintEffect_release (m : Chip) (now : Nat) (c : Fin 10) : mintEffect m now (A.MINT_CORE_CTRL c) 1 =
    updCore (wrN m (A.MINT_CORE_CTRL c) (1 + 2 * b2n (coreOf m c).forced)) c fun y => { y with test := true } := by
  have hrelease : bit 1 0 = true := rfl
  have hquarantine : bit 1 1 = false := rfl
  simp [mintEffect, corePage_coreCtrl, hrelease, hquarantine, b2n]

/-- `quarantine` leaves a core in quarantine as it is, marks a busy one, and puts an idle one into quarantine, for which the pool takes
another core where it was reserved (R351, R364). -/
theorem mintEffect_quarantine (m : Chip) (now : Nat) (c : Fin 10) : mintEffect m now (A.MINT_CORE_CTRL c) 2 =
    if (coreOf m c).quar then ctrlPending m c
    else if coreBusy m c then orR (updCore (ctrlPending m c) c fun y => { y with forced := true }) (A.MINT_CORE_CTRL c) 2
    else if (coreOf m c).resv then refillPool (quarantine (ctrlPending m c) now c 2) now
    else quarantine (ctrlPending m c) now c 2 := by
  have hrelease : bit 2 0 = false := rfl
  have hquarantine : bit 2 1 = true := rfl
  cases hquar : (coreOf m c).quar with
  | false => simp [mintEffect, corePage_coreCtrl, ctrlPending, hrelease, hquarantine, coreOf_wrN, coreBusy_wrN, hquar]
  | true => simp [mintEffect, corePage_coreCtrl, ctrlPending, hrelease, hquarantine, coreOf_wrN, hquar]

/-- `VAULT_CTRL` reads 0 again, and a 1 seals the Vault (R421). -/
theorem vaultEffect_seal (m : Chip) : vaultEffect m A.VAULT_CTRL 1 = sealLock (rstR m A.VAULT_CTRL) := rfl

/-- A command that writes `quarantine` of a core leaves what the effect of the write is on the core as the command finds it. -/
theorem exec_coreQuarantineCmd {s : State} {t u now : Nat} {m : Chip} {who : Fin 8} {c : Fin 10} {g : Chip → Chip}
    (h : Writes s t u m now who (A.MINT_CORE_CTRL c) 2)
    (hg : ∀ x, coreOf x c = coreOf m c → coreBusy x c = coreBusy m c → mintEffect x now (A.MINT_CORE_CTRL c) 2 = g x) :
    exec (.coreQuarantineCmd t who c) s = .next (s.done u (wrote m now (A.MINT_CORE_CTRL c) 2 .mint g)) := by
  change execCoreQuarantineCmd t who c s = _
  exact write_taken_of_stored (d := 2) h (regRow_coreCtrl c) (by decide) (inForceLater_coreCtrl c)
    (hg _ (coreOf_stored m _ _ c) (coreBusy_stored m _ _ c))

/-- Settles O53: the effect of each write is that of its block at its register and data, and storing the fields leaves the cores. -/
theorem cryptoRegisterCommandsComplete : Obligations.CryptoRegisterCommandsComplete := by
  intro s t u m now
  refine ⟨fun who c h => ?_, fun who c h hquar hbusy hresv => ?_, fun who c h hquar hbusy hresv => ?_, fun who c h hquar hbusy => ?_,
    fun who c h hquar => ?_, fun who h => ?_⟩
  · change execCoreRelease t who c s = _
    exact write_taken (d := 1) h (regRow_coreCtrl c) (by decide) (inForceLater_coreCtrl c) fun x => mintEffect_release x now c
  · refine exec_coreQuarantineCmd h fun x hcore hjobs => ?_
    simp [mintEffect_quarantine, hcore, hjobs, hquar, hbusy, hresv, ctrlPending]
  · refine exec_coreQuarantineCmd h fun x hcore hjobs => ?_
    simp [mintEffect_quarantine, hcore, hjobs, hquar, hbusy, hresv, ctrlPending]
  · refine exec_coreQuarantineCmd h fun x hcore hjobs => ?_
    simp [mintEffect_quarantine, hcore, hjobs, hquar, hbusy, ctrlPending]
  · refine exec_coreQuarantineCmd h fun x hcore _ => ?_
    simp [mintEffect_quarantine, hcore, hquar, ctrlPending]
  · change execSealLock t who s = _
    exact write_taken (d := 1) h regRow_vaultCtrl (by decide) inForceLater_vaultCtrl vaultEffect_seal

end Sys2Proof.Machine

/-! ## Commands of the Vault's mailboxes (R413-R445) -/

namespace Sys2Proof.Machine

/-! ### A mailbox that the Vault serves -/

/-- A mailbox is served with an op when it stands first in the queue with a command of that op, the Vault's domain runs, no check refuses the
command, and it has the core that it needs. -/
theorem serves_iff {m : Chip} {a op : Nat} {readOk : Bool} : serves m a op readOk = true ↔
    m.vault.queue.head? = some a ∧ (vreq m a).op = op ∧ m.pwr.mode = .run ∧ domOn m 15 = true ∧ vJudge m (vreq m a) readOk = none ∧
      (onCore op && poolEmpty m) = false := by
  simp only [serves, Bool.and_eq_true, beq_iff_eq, Bool.not_eq_true', and_assoc]

/-- A request is that of its mailbox. -/
theorem vreq_mb (m : Chip) (a : Nat) : (vreq m a).mb = a := rfl

theorem vreq_mb_eq_two (m : Chip) (mb : Fin 4) : (vreq m mb).mb = 2 ↔ mb = 2 := (Fin.ext_iff (b := 2)).symm

/-- The command of a mailbox that the Vault serves is carried out (R427-R431). -/
theorem vaultRun_of_serves {m : Chip} {a op : Nat} {readOk : Bool} (h : serves m a op readOk = true) (f : VReq → Chip) :
    vaultRun m a op readOk f = f (vreq m a) := by
  obtain ⟨hturn, hop, hmode, hdom, hjudge, hcore⟩ := serves_iff.1 h
  have hready : ¬ (m.vault.queue.head? ≠ some a || (vreq m a).op ≠ op || m.pwr.mode ≠ .run || !domOn m 15) = true := by
    simp [hturn, hop, hmode, hdom]
  rw [vaultRun, if_neg hready]
  simp only [hjudge, hop]
  exact if_neg (Bool.eq_false_iff.1 hcore)

/-- A mailbox command answers what its operation gives for the request of the mailbox that the Vault serves. -/
theorem vault_answers {s : State} {t now : Nat} {m x : Chip} {a op : Nat} {readOk : Bool} {f : Nat → Chip → VReq → Chip}
    (h : Finds s t m now) (hs : serves m a op readOk = true) (hf : f now m (vreq m a) = x) :
    (s.core t fun now m => vaultRun m a op readOk (f now m)) = .next (s.done t x) :=
  core_answers h ((vaultRun_of_serves hs _).trans hf)

/-! ### Ends of NVM writes -/

/-- An NVM write that succeeded gives its counter the new limit and counts the wear (R432). -/
theorem nvmDone_of_success {m : Chip} {c l : Nat} (hnvm : m.vault.nvm = some (c, l)) (now : Nat) : nvmDone m now true =
    updCtr (emit (updVault m fun v => { v with nvm := none }) 0x0602 (srcId 6 (0x80 + c)) now [(1, 1), (3, 0), (8, l)]) c fun x =>
      { x with limit := l, wear := sat 32 (x.wear + 1) } := by
  simp only [nvmDone, hnvm]
  rfl

/-- An NVM write that failed keeps its counter as failed and sets interrupt 4 (R434). -/
theorem nvmDone_of_failure {m : Chip} {c l : Nat} (hnvm : m.vault.nvm = some (c, l)) (now : Nat) : nvmDone m now false =
    setIrq (updVault (emit (updVault m fun v => { v with nvm := none }) 0x0602 (srcId 6 (0x80 + c)) now [(1, 0), (3, 0), (8, l)])
      fun v => { v with failed := some c }) .vault 4 := by
  simp only [nvmDone, hnvm]
  rfl

/-! ### Measurement, attestation, counter, OTP and share commands -/

/-- Settles O32: each command is its operation on the request that its mailbox holds, in the case that its registers and the Vault's state
choose. -/
theorem vaultAttestationCommandsComplete : Obligations.VaultAttestationCommandsComplete := by
  intro s t m now h
  refine ⟨fun mb mem ok hs hlocked => ?_, fun mb mem ok hs h0 h2 h3 h1 => ?_, fun mb mem ok wok hs => ?_,
    fun mb mem ok wok m1 v hs hctr => ?_, fun mb mem pk msg sig ok hs => ?_, fun mb wok hs => ?_, fun mb nvmOk hs => ?_,
    fun mb mem ok i hs hi hrow => ?_, fun mb mem ok i hs hi hrow => ?_, fun mb hs hkey => ?_, fun mb hs hkey => ?_,
    fun c l hnvm => ?_, fun c l hnvm => ?_, fun i k hslot => ?_, ?_⟩
  · change execExtend t mb mem ok s = _
    refine vault_answers h hs (if_pos ?_)
    simpa [vreq_mb_eq_two, or_assoc] using hlocked
  · change execExtend t mb mem ok s = _
    refine vault_answers h hs (if_neg ?_)
    simpa [vreq_mb_eq_two, h0, h2, h3] using h1
  · change execChallenge t mb mem ok wok s = _
    exact vault_answers h hs rfl
  · change execAttest t mb mem ok wok s = _
    refine vault_answers h hs ?_
    simp only [hctr]
  · change execVerify t mb mem pk msg sig ok s = _
    exact vault_answers h hs rfl
  · change execXmssPub t mb wok s = _
    exact vault_answers h hs rfl
  · change execCtrAdvance t mb nvmOk s = _
    refine vault_answers h hs ?_
    cases ctrAdvance m now (vreq m mb).aux (vreq m mb).addr nvmOk with
    | mk advanced status => rfl
  · change execOtpProg t mb mem ok s = _
    refine vault_answers h hs ?_
    subst hi
    split at hrow
    next haux => simp [haux, hrow, vreq_mb]
    next haux => simp [haux, hrow, vreq_mb]
  · change execOtpProg t mb mem ok s = _
    refine vault_answers h hs ?_
    subst hi
    split at hrow
    next haux => simp [haux, hrow, vreq_mb]
    next haux => simp [haux, hrow, vreq_mb]
  · change execXmssKeygen t mb s = _
    exact vault_answers h hs (if_neg (by simp [hkey]))
  · change execXmssKeygen t mb s = _
    exact vault_answers h hs (if_pos hkey)
  · change execNvmWriteDone t true s = _
    rw [execNvmWriteDone, run_finds h.1, nvmDone_of_success hnvm]
  · change execNvmWriteDone t false s = _
    rw [execNvmWriteDone, run_finds h.1, nvmDone_of_failure hnvm]
  · change execShareRerandomise t (some i) s = _
    refine core_answers h ?_
    simp only [hslot, Option.isSome_some, if_true]
  · change execShareRerandomise t none s = _
    exact core_answers h rfl

end Sys2Proof.Machine

/-! ## Commands of the CAN channels (R457-R483, R691) -/

namespace Sys2Proof.Machine

/-- A command of a CAN channel answers what its effect is on the device that it finds. -/
theorem can_answers {s : State} {t now : Nat} {m x : Chip} {f : Nat → Chip → Chip} (h : FindsCan s t m now) (hf : f now m = x) :
    s.can t f = .next (s.done t x) := by
  obtain ⟨rfl, hon, rfl⟩ := h
  rw [can_next, if_pos hon, hf]

/-- A channel that is free to send starts its candidate, whose attempt is counted and whose SOF is kept (R460). -/
theorem canBegin_of_free {m : Chip} {now c f : Nat} (hen : canEn m c = true) (hready : (canOf m c).ready = true)
    (hst : (canOf m c).st < 2) (hmode : m.pwr.mode = .run) (hbegun : (canOf m c).begun = none) (hhold : (canOf m c).holdOff ≤ now)
    (hsends : canSends m c = true) (hcand : candidate (canOf m c) = some f) (sof : Nat) :
    canBegin m now c sof false = updCan m c fun y => { y with
      begun := some f, fifos := lset y.fifos f fun l => lset l 0 fun z => { z with attempts := z.attempts + 1, sof := onCycle now sof } } := by
  have hfree : ¬ (!canEn m c || !(canOf m c).ready || decide (2 ≤ (canOf m c).st) || decide (m.pwr.mode ≠ .run) ||
      (canOf m c).begun.isSome || decide (now < (canOf m c).holdOff) || !canSends m c) = true := by
    simp [hen, hready, hst, hmode, hbegun, hhold, hsends]
  rw [canBegin, if_neg hfree]
  simp only [hcand]
  rfl

/-- Settles O33: each command is its operation where its condition holds. -/
theorem canTransmitCommandsComplete : Obligations.CanTransmitCommandsComplete := by
  intro s t m now h
  refine ⟨fun r d data ok => ?_, fun c sof f hen hready hst hmode hbegun hhold hsends hcand => ?_, fun c f hbegun => ?_,
    fun c dTec dRec hen hready hst => ?_, fun c eof => ?_, fun c hen hst => ?_, fun c hen => ?_, fun c hen => ?_⟩
  · change execCanTxEnqueue t r d data ok s = _
    exact can_answers h rfl
  · change execCanFrameStart t c sof false s = _
    exact can_answers h (canBegin_of_free hen hready hst hmode hbegun hhold hsends hcand sof)
  · change execCanArbitrationLost t c s = _
    exact can_answers h (if_pos (by rw [hbegun, Option.isSome_some]))
  · change execCanFrameError t c dTec dRec s = _
    exact can_answers h (if_pos (by simp only [hen, hready, hst, decide_true, Bool.and_true]))
  · change execCanTxComplete t c eof s = _
    exact can_answers h rfl
  · change execRecoveryComplete t c s = _
    exact can_answers h (if_pos (by simp only [hen, hst, decide_true, Bool.and_true]))
  · change execStuckDominant t c s = _
    exact can_answers h (if_pos hen)
  · change execCanChannelReady t c s = _
    exact can_answers h (if_pos hen)

end Sys2Proof.Machine

/-! ## Reads of receive buffers past the message RAM window (R452, R475) -/

namespace Sys2Proof.Machine

/-- The device with the partition of channel 15 at the last 4 KiB of the message RAM and 255 × 4 KiB long, which only a commit refuses
(R452), and a frame for the host in its buffer 86, whose slot lies past the window. -/
def pastWindow : Chip :=
  updCan (rg [(A.CAN_RAM_PART 15, 127 + 255 * 256), (A.CAN_LAYOUT 15, 100 * 4)]) 15 fun x => { x with bufs := [(86, { host := true })] }

/-- The address of word 0 of that buffer. -/
def pastAddr : Nat := elemAddr pastWindow 15 86 0

/-- The device as BRG has taken a read of that word by hart 0. -/
def pastTaken : Chip := took 0 pastWindow 2 pastAddr false

/-- Whether a command leaves a receive buffer locked. -/
def leavesLock (c b : Nat) : Host.Outcome State Fault Refusal → Bool
  | .next u => (bufOf u.chip c b).lock.isSome
  | _ => false

theorem accepts_pastAddr : Accepts (at_ 0 pastWindow) 0 2 pastAddr false false 0 pastTaken 0 := accepts (by decide +kernel)

/-- The word lies in the range of LIN, behind the message RAM window (R802). -/
theorem pastAddr_in_lin : Blk.lin.base ≤ pastAddr ∧ pastAddr < Blk.lin.base + Blk.lin.size := by decide +kernel

/-- A read there reads a register of LIN and touches no receive buffer. -/
theorem readTarget_pastAddr (m : Chip) (now who : Nat) : readTarget m now who pastAddr = readReg m now who pastAddr := by
  obtain ⟨hlo, hhi⟩ := pastAddr_in_lin
  simp only [Blk.base, Blk.size] at hlo hhi
  refine readTarget_eq_readReg m now who pastAddr ?_ ?_ ?_
  · simp [macPage]
    omega
  all_goals
    simp only [Blk.base, Blk.size]
    omega

/-- BRG finds the word of the buffer there, and reads it as a window read does. -/
theorem windowRead_pastAddr : windowRead pastTaken 0 2 15 86 0 false = look pastTaken 0 2 pastAddr := by
  have haddr : elemAddr pastTaken 15 86 0 = pastAddr := by decide +kernel
  have hbuf : ¬ rxBufs pastTaken 15 ≤ 86 := by decide +kernel
  simp only [windowRead, haddr]
  exact (if_neg hbuf).trans (if_pos rfl)

/-- The command answers the word of that register and leaves the buffer without a lock. -/
theorem windowLockRead_pastAddr : exec (.canWindowLockRead 0 2 15 86 false) (at_ 0 pastWindow) = .next ((at_ 0 pastWindow).done 0
    (say (readReg pastTaken 0 2 pastAddr).1 (.read 2 pastAddr (BitVec.ofNat 32 (readReg pastTaken 0 2 pastAddr).2)))) := by
  change execCanWindowLockRead 0 2 15 86 false (at_ 0 pastWindow) = _
  have hread := read_accepted accepts_pastAddr (by decide +kernel) (by decide +kernel) (by decide +kernel) (by decide +kernel)
  rw [State.read, access_accepted accepts_pastAddr, readTarget_pastAddr] at hread
  refine (access_accepted accepts_pastAddr _).trans (Eq.trans ?_ hread)
  exact congrArg (fun m => Host.Outcome.next ((at_ 0 pastWindow).done 0 m)) windowRead_pastAddr

/-- Refutes O34: where a partition runs past the message RAM, which R452 refuses at a commit only, the words of its last buffers lie at
addresses of LIN; a read of word 0 of such a buffer reads a LIN register and sets no lock, while the statement says that it does. -/
theorem not_canReceiveCommandsComplete : ¬ Obligations.CanReceiveCommandsComplete := by
  intro h
  obtain ⟨-, hlock, -⟩ := h (at_ 0 pastWindow) 0 0 pastTaken 0
  have hstated := hlock 2 15 86 accepts_pastAddr (by decide +kernel) (by decide +kernel) (by decide +kernel) (by decide +kernel)
    (by decide +kernel) (by decide +kernel)
  rw [windowLockRead_pastAddr] at hstated
  exact absurd (congrArg (leavesLock 15 86) hstated) (by decide +kernel)

end Sys2Proof.Machine

/-! ## Commands of the LIN channels (R489-R495) -/

namespace Sys2Proof.Machine

/-- A header counts on an enabled channel that is awake in RUN, and a responder's or guarded: one with an error shows it and drops the frame in
progress, any other begins a frame (R490, R493). -/
theorem linHeaderReceived_answers {s : State} {t now : Nat} {m : Chip} (h : Finds s t m now) {c : Fin 8} (hen : linEn m c = true)
    (hresp : (flag m (A.LIN_CH_CFG c) 1 && !chanGuarded m (16 + c.val)) = false) (hawake : flag m (A.LIN_STATUS c) 0 = false)
    (hmode : m.pwr.mode = .run) (i : Fin 64) (err : Nat × Nat) : execLinHeaderReceived t c i err s = .next (s.done t
      (if err.1 = 5 || err.1 = 6 then linErr (updLin m c fun x => { x with lastAct := now, cur := none }) now c err.1 i
      else linHeader m now (onCycle now err.2) c i)) := by
  have hhears : ¬ (!linEn m c || (flag m (A.LIN_CH_CFG c) 1 && !chanGuarded m (16 + c.val)) || flag m (A.LIN_STATUS c) 0 ||
      decide (m.pwr.mode ≠ .run)) = true := by
    simp [hen, hresp, hawake, hmode]
  exact core_answers h (if_neg hhears)

/-- Settles O35: each command is its operation where its condition holds. -/
theorem linCommandsComplete : Obligations.LinCommandsComplete := by
  intro s t m now h
  refine ⟨fun c => ?_, fun c i err sof hen hresp hawake hmode herr => ?_, fun c i err sof hen hresp hawake hmode h5 h6 => ?_,
    fun c data sum err eof hen herr => ?_, fun c i sof hcur hen hdir hlapsed => ?_, fun c hen hslave hawake hidle => ?_,
    fun c pulse hen hasleep hpulse => ?_, fun c e hresume hen hdue => ?_⟩
  · change execLinSlotStart t c s = _
    exact core_answers h rfl
  · change execLinHeaderReceived t c i (err, sof) s = _
    rw [linHeaderReceived_answers h hen hresp hawake hmode, if_pos (by simpa using herr)]
  · change execLinHeaderReceived t c i (err, sof) s = _
    rw [linHeaderReceived_answers h hen hresp hawake hmode, if_neg (by simp [h5, h6])]
  · change execLinFrameReceived t c (data, sum) err eof s = _
    exact core_answers h (if_pos (by simpa [hen] using herr))
  · change execLinNoResponse t c s = _
    refine core_answers h ?_
    simp only [hcur]
    exact if_pos (by simp [hen, hdir, hlapsed])
  · change execLinIdleSleep t c s = _
    exact core_answers h (if_pos (by simp [hen, hslave, hawake, hidle]))
  · change execLinWakeReceived t c pulse s = _
    exact core_answers h (if_pos (by simp [hen, hasleep, hpulse]))
  · change execLinScheduleResume t c s = _
    refine core_answers h ?_
    simp only [hresume]
    exact if_pos (by simp [hen, hdue])

end Sys2Proof.Machine

/-! ## Writes of CAN, LIN and SGE (R464, R478, R489, R495, R540, R546, R547) -/

namespace Sys2Proof.Machine

/-! ### The registers of CAN, LIN and SGE in the map -/

/-- The rows of `CAN_TX_CANCEL`, `CAN_CMD`, `LIN_SCHED_CMD`, `SGE_CTRL`, `SGE_TBL_CMD` and `SGE_FRESH_CMD`. -/
def txCancelRow : RegRow := regsCan1[4]'(by decide)
def canCmdRow : RegRow := regsCan2[4]'(by decide)
def schedCmdRow : RegRow := regsLin1[5]'(by decide)
def sgeCtrlRow : RegRow := regsSge1[4]'(by decide)
def sgeTblCmdRow : RegRow := regsSge1[8]'(by decide)
def freshCmdRow : RegRow := regsSge1[12]'(by decide)

theorem regRow_txCancel : regRow A.CAN_TX_CANCEL = some (.can, txCancelRow, []) := rfl

theorem regRow_canCmd (c : Fin 16) : regRow (A.CAN_CMD c) = some (.can, canCmdRow, [c.val]) := by
  fin_cases c <;> rfl

theorem regRow_schedCmd (c : Fin 8) : regRow (A.LIN_SCHED_CMD c) = some (.lin, schedCmdRow, [c.val]) := by
  fin_cases c <;> rfl

theorem regRow_sgeCtrl : regRow A.SGE_CTRL = some (.sge, sgeCtrlRow, []) := rfl
theorem regRow_sgeTblCmd : regRow A.SGE_TBL_CMD = some (.sge, sgeTblCmdRow, []) := rfl
theorem regRow_freshCmd : regRow A.SGE_FRESH_CMD = some (.sge, freshCmdRow, []) := rfl

/-- A write of CAN, LIN or SGE is in force at once. -/
theorem inForceLater_fieldBus {a : Nat} (hlo : 0x40D00000 ≤ a) (hhi : a < 0x41000000) : inForceLater a = false := by
  have hsch : schPage a = none := if_neg (by simp; omega)
  simp only [inForceLater, hsch, Bool.or_eq_false_iff, Bool.and_eq_false_iff, List.any_eq_false, beq_eq_false_iff_ne, beq_iff_eq,
    decide_eq_false_iff_not, List.mem_range, and_true]
  unfold A.PRS_CT_TMO_TCP0 A.PRS_CT_TMO_TCP1 A.PRS_CT_TMO_UDP A.PRS_CT_TMO_GEN A.PRS_FW_LOG A.TM_PORT_HOLD A.TIME_Dd_RATE
    A.TIME_Dd_ADJ_CMD A.MACSEC_TXSC_CFG A.MINT_TELLER_CFG A.MINT_STREAM_CFG A.DMA_CFG A.LEDGER_CFG A.LEDGER_EXPORT_CFG
    A.LEDGER_FRAME_RX_PORTS A.LEDGER_FRAME_TX_PORTS A.LEDGER_STREAM_EN irqRoute A.GLB_IRQ_ROUTE_H0
  and_intros
  · exact Or.inl (Or.inl (Or.inr (by omega)))
  all_goals (intros; omega)

theorem inForceLater_canCmd (c : Fin 16) : inForceLater (A.CAN_CMD c) = false :=
  inForceLater_fieldBus (by unfold A.CAN_CMD; omega) (by unfold A.CAN_CMD; omega)

theorem inForceLater_schedCmd (c : Fin 8) : inForceLater (A.LIN_SCHED_CMD c) = false :=
  inForceLater_fieldBus (by unfold A.LIN_SCHED_CMD; omega) (by unfold A.LIN_SCHED_CMD; omega)

/-! ### The device under the storing of a write -/

/-- Storing the fields of a write leaves the state of the CAN and LIN channels and of the pair. -/
@[simp] theorem stored_cl_pair (m : Chip) (a data : Nat) : (stored m a data).cl = m.cl ∧ (stored m a data).pair = m.pair := by
  unfold stored
  split
  · dsimp only
    split <;> split <;> exact ⟨rfl, rfl⟩
  · exact ⟨rfl, rfl⟩

theorem canOf_stored (m : Chip) (a data c : Nat) : canOf (stored m a data) c = canOf m c := by
  simp only [canOf, stored_cl_pair]

theorem linOf_stored (m : Chip) (a data c : Nat) : linOf (stored m a data) c = linOf m c := by
  simp only [linOf, stored_cl_pair]

/-- Storing the fields of a write to one register, not of an `ERR_CLR`, leaves every other one alone. -/
theorem flag_stored_other {a x : Nat} {b : Blk} {r : RegRow} {ix : List Nat} (hrow : regRow a = some (b, r, ix)) (hoff : r.off ≠ 0xC)
    (hx : x ≠ a) (m : Chip) (data i : Nat) : flag (stored m a data) x i = flag m x i := by
  have hrd : rd (stored m a data) x = rd m x := by
    simp only [stored, hrow, hoff, decide_false, Bool.false_and, Bool.false_eq_true, if_false]
    split
    · rfl
    · exact rd_wr_other m a x _ hx
  simp only [flag, rdN, hrd]

/-- Clearing bits of one register leaves every other one alone. -/
theorem flag_clrR_other {a x : Nat} (hx : x ≠ a) (m : Chip) (mask i : Nat) : flag (clrR m a mask) x i = flag m x i := by
  have hrd : rd (clrR m a mask) x = rd m x := rd_wr_other m a x _ hx
  simp only [flag, rdN, hrd]

/-- A channel's configuration and what the pair says of it lie outside `LIN_SCHED_CMD`. -/
theorem schedCmd_other (c : Fin 8) :
    A.LIN_CH_CFG c ≠ A.LIN_SCHED_CMD c ∧ A.PAIR_CFG ≠ A.LIN_SCHED_CMD c ∧ A.PAIR_CHANNELS ≠ A.LIN_SCHED_CMD c := by
  unfold A.LIN_CH_CFG A.LIN_SCHED_CMD A.PAIR_CFG A.PAIR_CHANNELS
  omega

/-- A channel may send a wake-up signal: it is enabled and not guarded (R495). -/
def linWakes (m : Chip) (c : Nat) : Bool := linEn m c && !chanGuarded m (16 + c)

theorem linWakes_stored (m : Chip) (c : Fin 8) (data : Nat) : linWakes (stored m (A.LIN_SCHED_CMD c) data) c = linWakes m c := by
  obtain ⟨hcfg, hpair, hchan⟩ := schedCmd_other c
  have hkept {x : Nat} (hx : x ≠ A.LIN_SCHED_CMD c) := flag_stored_other (regRow_schedCmd c) (by decide) hx m data
  simp only [linWakes, linEn, chanGuarded, hkept hcfg, hkept hpair, hkept hchan, stored_cl_pair]

theorem linWakes_clrR (m : Chip) (c : Fin 8) (mask : Nat) : linWakes (clrR m (A.LIN_SCHED_CMD c) mask) c = linWakes m c := by
  obtain ⟨hcfg, hpair, hchan⟩ := schedCmd_other c
  simp only [linWakes, linEn, chanGuarded, flag_clrR_other hcfg, flag_clrR_other hpair, flag_clrR_other hchan]
  rfl

/-! ### What the writes do beside storing their fields -/

section Effect
variable (m : Chip) (now old new data : Nat) (flt : Bool)

/-- A cancellation is noted with its LT, and shows as running (R464). -/
theorem canEffect_txCancel : canEffect m now A.CAN_TX_CANCEL old new data =
    wrN { m with cl := { m.cl with cancel := some (now, data) } } A.CAN_CANCEL_STATUS (Nat.lor 1 (rdN m A.CAN_CANCEL_STATUS)) := if_pos rfl

/-- `CAN_CMD` lies at 0x24 in the page of its channel. -/
theorem canPage_canCmd (c : Fin 16) : canPage (A.CAN_CMD c) = some (c.val, 0x24) := by
  have hpos : 0x40D01000 ≤ A.CAN_CMD c ∧ A.CAN_CMD c < 0x40D03000 ∧ (A.CAN_CMD c - 0x40D01000) / 0x200 = c.val ∧
      (A.CAN_CMD c - 0x40D01000) % 0x200 = 0x24 := by
    unfold A.CAN_CMD
    omega
  obtain ⟨hlo, hhi, hchan, hoff⟩ := hpos
  simp [canPage, hlo, hhi, hchan, hoff]

/-- `recover` starts the recovery of a channel that is bus-off with recovery by the host (R478). -/
theorem canEffect_recover {m : Chip} {c : Fin 16} (hst : (canOf m c).st = 2) (hmanual : flag m (A.CAN_CH_CFG c) 5 = true) :
    canEffect m now (A.CAN_CMD c) old new 1 = canRecovering m c := by
  have hcancel : A.CAN_CMD c ≠ A.CAN_TX_CANCEL := by
    unfold A.CAN_CMD A.CAN_TX_CANCEL
    omega
  have hbit : bit 1 0 = true := rfl
  simp [canEffect, hcancel, canPage_canCmd, hbit, hst, hmanual]

/-- `LIN_SCHED_CMD` lies at 4 in the page of its channel. -/
theorem linPage_schedCmd (c : Fin 8) : linPage (A.LIN_SCHED_CMD c) = some (c.val, 4) := by
  have hpos : 0x40E01000 ≤ A.LIN_SCHED_CMD c ∧ A.LIN_SCHED_CMD c < 0x40E01800 ∧ (A.LIN_SCHED_CMD c - 0x40E01000) / 0x100 = c.val ∧
      (A.LIN_SCHED_CMD c - 0x40E01000) % 0x100 = 4 := by
    unfold A.LIN_SCHED_CMD
    omega
  obtain ⟨hlo, hhi, hchan, hoff⟩ := hpos
  simp [linPage, hlo, hhi, hchan, hoff]

/-- Without `wake`, `run` starts the selected schedule of a channel that is awake and runs none (R489). -/
theorem linEffect_select {data : Nat} (hwake : bit data 3 = false) (c : Fin 8) : linEffect m now (A.LIN_SCHED_CMD c) old new data =
    if bit new 2 && !(linOf m c).running && !flag m (A.LIN_STATUS c) 0 then
      updLin m c fun y => { y with running := true, table := bits new 0 2, slot := 0, nextAt := now }
    else m := by
  simp [linEffect, linPage_schedCmd, hwake]

/-- `wake` sends a wake-up signal on a channel that may send one, and a schedule that runs stays (R495). -/
theorem linEffect_wake {m : Chip} {data : Nat} {c : Fin 8} (hwake : bit data 3 = true) (hrun : (linOf m c).running = true)
    (hsends : linWakes m c = true) :
    linEffect m now (A.LIN_SCHED_CMD c) old new data = linWake (clrR m (A.LIN_SCHED_CMD c) 8) now c := by
  have hrun' : (linOf (clrR m (A.LIN_SCHED_CMD c) 8) c).running = true := hrun
  have hsends' : (linEn (clrR m (A.LIN_SCHED_CMD c) 8) c && !chanGuarded (clrR m (A.LIN_SCHED_CMD c) 8) (16 + c)) = true :=
    (linWakes_clrR m c 8).trans hsends
  simp [linEffect, linPage_schedCmd, hwake, hrun', hsends']

/-- `SGE_TBL_CMD` with `go` starts or refuses a command of the gateway's tables (R547). -/
theorem sgeEffect_tblCmd : sgeEffect m now A.SGE_TBL_CMD data flt = if bit data 31 then sgeTblCommand m now flt else m := if_pos rfl

/-- `SGE_FRESH_CMD` with `go` starts a command of the freshness counters (R540). -/
theorem sgeEffect_freshCmd : sgeEffect m now A.SGE_FRESH_CMD data flt = if bit data 31 then freshCommand m now else m := by
  rw [sgeEffect, if_neg (by decide), if_pos rfl]

/-- `SGE_CTRL` does nothing beside storing its fields (R546). -/
theorem sgeEffect_ctrl : sgeEffect m now A.SGE_CTRL data flt = m := by
  rw [sgeEffect, if_neg (by decide), if_neg (by decide)]

end Effect

/-! ### The words of the commands -/

/-- The word that selects a schedule has no `wake`. -/
theorem bit_selectWord (k : Fin 4) (run : Bool) : bit (k.val + 4 * b2n run) 3 = false := by
  revert k run
  decide

/-- The word of a wake, which keeps the schedule, has `wake`. -/
theorem bit_wakeWord {n : Nat} (hn : n < 8) : bit (BitVec.ofNat 32 (n + 8)).toNat 3 = true := by
  have hbit : (n + 8) % 2 ^ 32 / 2 ^ 3 % 2 ^ 1 = 1 := by omega
  simp only [bit, bits, BitVec.toNat_ofNat, hbit]
  rfl

/-- The word of every operation on freshness counters has `go`. -/
theorem bit_freshWord {fn op : Nat} (hfn : fn < 1024) (hop : op < 4) : bit (freshWord fn op).toNat 31 = true := by
  have hgo : (fn + op * 1024 + 2 ^ 31) % 2 ^ 32 / 2 ^ 31 = 1 := by omega
  simp only [freshWord, bit, bits, BitVec.toNat_ofNat, hgo]
  rfl

section Command
variable {s : State} {t u now who a : Nat} {m : Chip} {b : Blk} {r : RegRow} {ix : List Nat}

/-- A register write of a number that its block takes whole. -/
theorem write_taken_ofNat {n : Nat} {g : Chip → Chip} {flt : Bool} (hn : n < 2 ^ 32) (h : Writes s t u m now who a n)
    (hrow : regRow a = some (b, r, ix)) (hoff : 4 < r.off) (hnow : inForceLater a = false)
    (hg : ∀ x, blockEffect m x now who b a (oldWord m a) (newWord m a n) n flt = g x) :
    s.write t who a (BitVec.ofNat 32 n) flt = .next (s.done u (wrote m now a n b g)) := by
  obtain ⟨d, rfl⟩ : ∃ d : Word, d.toNat = n := ⟨BitVec.ofNat 32 n, Nat.mod_eq_of_lt hn⟩
  rw [BitVec.ofNat_toNat, BitVec.setWidth_eq]
  exact write_taken h hrow hoff hnow hg

/-- A register write whose data is worked out from registers, where the effect is known on the device with the fields stored only. -/
theorem writeAt_taken_of_stored {d : Word} {f : Chip → Nat} {g : Chip → Chip} {flt : Bool} (h : Writes s t u m now who a d.toNat)
    (hd : d = BitVec.ofNat 32 (f m)) (hf : ∀ x, f (monClear x a) = f x) (hrow : regRow a = some (b, r, ix)) (hoff : 4 < r.off)
    (hnow : inForceLater a = false)
    (hg : blockEffect m (stored m a d.toNat) now who b a (oldWord m a) (newWord m a d.toNat) d.toNat flt = g (stored m a d.toNat)) :
    s.writeAt t who a f flt = .next (s.done u (wrote m now a d.toNat b g)) := by
  rw [writeAt_taken h hd hf hrow hoff hnow fun _ => rfl]
  simp only [wrote, effected, hg]

/-- A taken write of an operation on the gateway's tables is stored and starts or refuses it (R547). -/
theorem write_sgeTblWord {k : Fin 16} {op : Nat} {staged : Bool} (hop : op < 8)
    (h : Writes s t u m now who A.SGE_TBL_CMD (tblWord k op staged).toNat) (ecc : Bool) :
    s.write t who A.SGE_TBL_CMD (tblWord k op staged) ecc =
      .next (s.done u (wrote m now A.SGE_TBL_CMD (tblWord k op staged).toNat .sge fun x => sgeTblCommand x now ecc)) :=
  write_taken h regRow_sgeTblCmd (by decide) (inForceLater_fieldBus (by decide) (by decide)) fun x =>
    (sgeEffect_tblCmd x now _ ecc).trans (if_pos (bit_tblWord k op hop staged))

/-- A taken write of an operation on freshness counters is stored and starts it (R540). -/
theorem write_freshWord {fn op : Nat} (hfn : fn < 1024) (hop : op < 4)
    (h : Writes s t u m now who A.SGE_FRESH_CMD (freshWord fn op).toNat) :
    s.write t who A.SGE_FRESH_CMD (freshWord fn op) =
      .next (s.done u (wrote m now A.SGE_FRESH_CMD (freshWord fn op).toNat .sge fun x => freshCommand x now)) :=
  write_taken h regRow_freshCmd (by decide) (inForceLater_fieldBus (by decide) (by decide)) fun x =>
    (sgeEffect_freshCmd x now _ false).trans (if_pos (bit_freshWord hfn hop))

end Command

/-- Settles O54: the effect of each write is that of its block at its register and data, storing the fields leaves the channels, and an
operation that was started lands by definition. -/
theorem fieldBusRegisterCommandsComplete : Obligations.FieldBusRegisterCommandsComplete := by
  intro s t u m now
  refine ⟨fun who d h => ?_, fun who c h hst hmanual => ?_, fun who c k run h => ?_, fun who c d hd h hrun hen hguard => ?_,
    fun who k staged ecc h => ?_, fun who k staged ecc h => ?_, fun who f h => ?_, fun who f h => ?_, fun who h => ?_,
    fun who run h => ?_, fun acc flt => rfl, rfl⟩
  · change execCanTxCancel t who d s = _
    exact write_taken h regRow_txCancel (by decide) (inForceLater_fieldBus (by decide) (by decide)) fun x =>
      canEffect_txCancel x now (oldWord m A.CAN_TX_CANCEL) (newWord m A.CAN_TX_CANCEL d.toNat) d.toNat
  · have hcfg : A.CAN_CH_CFG c ≠ A.CAN_CMD c := by
      unfold A.CAN_CH_CFG A.CAN_CMD
      omega
    have hst' : (canOf (stored m (A.CAN_CMD c) 1) c).st = 2 := by rw [canOf_stored, hst]
    have hmanual' : flag (stored m (A.CAN_CMD c) 1) (A.CAN_CH_CFG c) 5 = true :=
      (flag_stored_other (regRow_canCmd c) (by decide) hcfg m 1 5).trans hmanual
    change execCanRecover t who c s = _
    exact write_taken_of_stored (d := 1) h (regRow_canCmd c) (by decide) (inForceLater_canCmd c)
      (canEffect_recover now _ _ hst' hmanual')
  · have hsmall : k.val + 4 * b2n run < 2 ^ 32 := by
      have : b2n run ≤ 1 := by cases run <;> decide
      omega
    change execLinScheduleSelect t who c k run s = _
    exact write_taken_ofNat hsmall h (regRow_schedCmd c) (by decide) (inForceLater_schedCmd c) fun x =>
      linEffect_select x now _ _ (bit_selectWord k run) c
  · have hwake : bit d.toNat 3 = true := by
      rw [hd]
      exact bit_wakeWord (Nat.mod_lt _ (by decide))
    have hrun' : (linOf (stored m (A.LIN_SCHED_CMD c) d.toNat) c).running = true := by rw [linOf_stored, hrun]
    have hsends : linWakes (stored m (A.LIN_SCHED_CMD c) d.toNat) c = true :=
      (linWakes_stored m c _).trans (by simp [linWakes, hen, hguard])
    change execLinWake t who c s = _
    exact writeAt_taken_of_stored h hd (fun _ => rfl) (regRow_schedCmd c) (by decide) (inForceLater_schedCmd c)
      (linEffect_wake now _ _ hwake hrun' hsends)
  · change execSgeTblRead t who k staged ecc s = _
    exact write_sgeTblWord (by decide) h ecc
  · change execSgeTblWrite t who k staged ecc s = _
    exact write_sgeTblWord (by decide) h ecc
  · change execFreshRead t who f s = _
    exact write_freshWord f.isLt (by decide) h
  · change execRaise t who f s = _
    exact write_freshWord f.isLt (by decide) h
  · change execRaiseAll t who s = _
    exact write_freshWord (by decide) (by decide) h
  · have hsmall : b2n run < 2 ^ 32 := by cases run <;> decide
    change execSgeRun t who run s = _
    exact write_taken_ofNat hsmall h regRow_sgeCtrl (by decide) (inForceLater_fieldBus (by decide) (by decide)) fun x =>
      sgeEffect_ctrl x now _ false

end Sys2Proof.Machine

/-! ## The queue, the time of idleness, and commands without CORE (R670, R671, R818) -/

namespace Sys2Proof.Machine

/-- Settles O1: a step takes the front of the queue. -/
theorem stepRunsFrontCommand : Obligations.StepRunsFrontCommand := by
  intro c s
  rfl

/-- Idleness is work that is left undone, which keeping its time does not change. -/
theorem quiet_idleTrack (now : Nat) (m : Chip) : quiet (idleTrack now m) = quiet m := rfl

/-- The LT since which a device is idle is held exactly where it is idle, once it has been brought up to date (R670). -/
theorem isSome_idleSince_idleTrack (now : Nat) (m : Chip) :
    (idleTrack now m).pwr.idleSince.isSome = quiet (idleTrack now m) := by
  rw [quiet_idleTrack]
  cases hq : quiet m <;> simp [idleTrack, hq]

/-- Every step ends as a command that is done, or an idle cycle that is. -/
theorem step_done (s : State) : ∃ (v : State) (t : Nat) (m : Chip), step s = .next (v.done t m) := by
  unfold step
  cases s.pending with
  | nil => exact ⟨s, _, _, rfl⟩
  | cons c rest =>
    obtain ⟨t, m, hexec, -⟩ := exec_done c { s with pending := rest }
    exact ⟨_, t, m, hexec⟩

/-- Settles O7: every step ends with `idleTrack`, whatever it has done before. -/
theorem idleTimeFollowsWork : Obligations.IdleTimeFollowsWork := by
  intro s u hstep
  obtain ⟨v, t, m, hv⟩ := step_done s
  obtain rfl : v.done t m = u := by simpa [hv] using hstep
  exact isSome_idleSince_idleTrack _ _

/-- Every command of logic in CORE leaves the device as it finds it where CORE is off, at its LT or, for an access, at the one at which BRG
accepts it. -/
theorem exec_of_inCore (c : Instr) (s : State) (h : outsideCore c = false) :
    ∃ (t : Nat) (x : Chip), c.at ≤ t ∧ exec c s = .next (s.done t (if coreOn (s.found t) then x else s.found t)) := by
  cases c <;> cases h <;> refine ⟨_, _, ?_, rfl⟩
  all_goals simp only [Instr.at, le_refl, le_accept]

/-- A span of time leaves CORE off where it is. -/
theorem coreOn_found_of_off {s : State} (h : coreOn s.chip = false) (t : Nat) : coreOn (s.found t) = false := by
  rw [State.found, h]
  exact h

/-- Settles O8: without CORE an effect that it powers is time passing alone. -/
theorem coreOffLeavesDevice : Obligations.CoreOffLeavesDevice := by
  intro c s hcmd hoff
  obtain ⟨t, x, hat, hexec⟩ := exec_of_inCore c s hcmd
  exact ⟨t, hat, by rw [hexec, if_neg (by simp [coreOn_found_of_off hoff])]⟩

end Sys2Proof.Machine

/-! ## Interrupts: the summary, and the messages of those that rise (R808-R811) -/

namespace Sys2Proof.Machine

/-! ### Sums of the blocks' bits -/

/-- Where the bits of blocks rise along a list, the sum of the bits of those that satisfy `p` shows each of them at its bit. -/
theorem testBit_sum_irqBit (p : Blk → Bool) (l : List Blk) (hl : l.Pairwise (·.irqBit < ·.irqBit)) (x i : Nat)
    (hx : ∀ b ∈ l, x < 2 ^ b.irqBit) :
    (l.foldl (fun a b => if p b then a + 2 ^ b.irqBit else a) x).testBit i = (x.testBit i || l.any fun b => p b && b.irqBit == i) := by
  induction l generalizing x with
  | nil => simp
  | cons b l ih =>
    obtain ⟨hhead, htail⟩ := List.pairwise_cons.1 hl
    have hb : x < 2 ^ b.irqBit := hx b (by simp)
    have hadd : (x + 2 ^ b.irqBit).testBit i = (x.testBit i || b.irqBit == i) := by
      have hor := Nat.two_pow_add_eq_or_of_lt hb 1
      rw [Nat.mul_one] at hor
      rw [Nat.add_comm, hor, Nat.testBit_or, Nat.testBit_two_pow, Bool.or_comm]
      rfl
    have hnext : ∀ c ∈ l, (if p b then x + 2 ^ b.irqBit else x) < 2 ^ c.irqBit := by
      intro c hc
      have hpow : 2 ^ (b.irqBit + 1) ≤ 2 ^ c.irqBit := Nat.pow_le_pow_right (by decide) (hhead c hc)
      split <;> omega
    rw [List.foldl_cons, ih htail _ hnext, List.any_cons]
    cases hp : p b with
    | false => simp
    | true => simp only [if_true, hadd, Bool.true_and, Bool.or_assoc]

/-- The bits of all blocks rise along their list (R802). -/
theorem blocks_irqBit_rise : Blk.all.Pairwise (·.irqBit < ·.irqBit) := by decide

theorem mem_blocks (b : Blk) : b ∈ Blk.all := by cases b <;> decide

theorem irqBit_injective {b c : Blk} (h : b.irqBit = c.irqBit) : b = c :=
  List.inj_on_of_nodup_map (f := Blk.irqBit) (by decide) (mem_blocks b) (mem_blocks c) h

/-- A number that sums the bits of the blocks that satisfy `p` has the bit of a block just where the block does. -/
theorem bit_sum_irqBit (p : Blk → Bool) (b : Blk) :
    bit (Blk.all.foldl (fun a b => if p b then a + 2 ^ b.irqBit else a) 0) b.irqBit = p b := by
  rw [bit_eq_testBit, testBit_sum_irqBit p Blk.all blocks_irqBit_rise 0 _ fun c _ => Nat.two_pow_pos _, Nat.zero_testBit, Bool.false_or]
  refine Bool.eq_iff_iff.2 ⟨fun h => ?_, fun h => List.any_eq_true.2 ⟨b, mem_blocks b, by simp [h]⟩⟩
  obtain ⟨c, -, hc⟩ := List.any_eq_true.1 h
  obtain ⟨hpc, hbit⟩ : p c = true ∧ c.irqBit = b.irqBit := by simpa using hc
  rwa [← irqBit_injective hbit]

theorem bit_irqSummary (m : Chip) (b : Blk) : bit (irqSummary m) b.irqBit = (irqLevel m b != 0) := by
  rw [← bit_sum_irqBit (fun b => irqLevel m b != 0) b]
  simp only [irqSummary, bne_iff_ne, ne_eq, ite_not]

theorem bit_irqPend (m : Chip) (a : Nat) (b : Blk) : bit (irqPend m a) b.irqBit = irqTo m a b := bit_sum_irqBit (irqTo m a) b

/-- A block without interrupts of its own agents interrupts an agent where it asserts and the agent's route has its bit (R808, R812). -/
theorem irqTo_of_routed {b : Blk} (hown : b.ownMask = 0) (hsafe : b ≠ .safe) (m : Chip) (a : Nat) :
    irqTo m a b = (irqLevel m b != 0 && flag m (irqRoute a) b.irqBit) := by
  have hclear : clearMask (irqLevel m b) 0 = irqLevel m b := by
    show irqLevel m b - (irqLevel m b &&& 0) = _
    rw [Nat.and_zero, Nat.sub_zero]
  simp [irqTo, hown, hclear, hsafe]

/-- Settles O17: the summary and the pending registers are sums of the bits of the blocks that assert. -/
theorem interruptSummaryShowsBlocks : Obligations.InterruptSummaryShowsBlocks := by
  intro m b
  refine ⟨by simp [bit_irqSummary], fun a hown hsafe => ?_⟩
  rw [bit_irqPend, irqTo_of_routed hown hsafe]
  simp

/-! ### The messages that a command sends -/

/-- A device that has only sent messages, or noted them as pending, since `m`. -/
def Sends (m x : Chip) : Prop :=
  x = { m with out := x.out, pba := x.pba } ∧ (∀ o ∈ m.out, o ∈ x.out) ∧ ∀ k ∈ m.pba, k ∈ x.pba

theorem Sends.frame {m x : Chip} (h : Sends m x) : x = { m with out := x.out, pba := x.pba } := h.1
theorem Sends.out {m x : Chip} (h : Sends m x) : ∀ o ∈ m.out, o ∈ x.out := h.2.1
theorem Sends.pba {m x : Chip} (h : Sends m x) : ∀ k ∈ m.pba, k ∈ x.pba := h.2.2

theorem Sends.refl (m : Chip) : Sends m m := ⟨rfl, fun _ h => h, fun _ h => h⟩

theorem Sends.trans {m x y : Chip} (h : Sends m x) (h' : Sends x y) : Sends m y := by
  refine ⟨?_, fun o ho => h'.out o (h.out o ho), fun k hk => h'.pba k (h.pba k hk)⟩
  rw [h'.frame, h.frame]

/-- Messages change nothing of what interrupts an agent, nor which vectors are masked. -/
theorem Sends.irqTo_eq {m x : Chip} (h : Sends m x) (f : Nat) (b : Blk) : irqTo x f b = irqTo m f b := by
  rw [h.frame]
  rfl

theorem Sends.masked_eq {m x : Chip} (h : Sends m x) (f v : Nat) : msixMasked x f v = msixMasked m f v := by
  rw [h.frame]
  rfl

theorem sends_sendMsix (m : Chip) (f v : Nat) : Sends m (sendMsix m f v) := by
  unfold sendMsix
  split
  · refine ⟨rfl, fun _ h => h, fun k hk => ?_⟩
    dsimp only
    split
    · exact hk
    · exact List.mem_append_left _ hk
  · exact ⟨rfl, fun o ho => List.mem_append_left _ ho, fun _ h => h⟩

/-- A vector that is sent is among the outputs, or pending while it is masked (R811). -/
theorem mem_sendMsix (m : Chip) (f v : Nat) : (msixMasked m f v = false → .msix f v ∈ (sendMsix m f v).out) ∧
    (msixMasked m f v = true → f * 128 + v ∈ (sendMsix m f v).pba) := by
  refine ⟨fun h => ?_, fun h => ?_⟩
  · simp [sendMsix, h]
  · simp only [sendMsix, h, if_true]
    split
    · rename_i hin
      simpa using hin
    · simp

section Fold
variable {α : Type} {step : Chip → α → Chip} (hstep : ∀ x a, Sends x (step x a))
include hstep

theorem sends_foldl (l : List α) (m : Chip) : Sends m (l.foldl step m) :=
  List.foldlRecOn l step (motive := Sends m) (Sends.refl m) fun _ hx a _ => hx.trans (hstep _ a)

/-- What one element of a list does is done in the course of the whole list. -/
theorem sends_foldl_of_mem {a : α} {l : List α} (ha : a ∈ l) (m : Chip) : ∃ x, Sends m x ∧ Sends (step x a) (l.foldl step m) := by
  obtain ⟨l₁, l₂, rfl⟩ := List.append_of_mem ha
  refine ⟨l₁.foldl step m, sends_foldl hstep l₁ m, ?_⟩
  rw [List.foldl_append, List.foldl_cons]
  exact sends_foldl hstep l₂ _

end Fold

/-- What `msixRise` does for one block towards a function, and for all blocks. -/
def riseOf (m0 : Chip) (f : Nat) (x : Chip) (b : Blk) : Chip := if irqTo x f b && !irqTo m0 f b then sendMsix x f (64 + b.irqBit) else x
def risesOf (m0 x : Chip) (f : Nat) : Chip := Blk.all.foldl (riseOf m0 f) x

theorem msixRise_eq (m0 m : Chip) : msixRise m0 m = [0, 1].foldl (risesOf m0) m := rfl

theorem sends_riseOf (m0 : Chip) (f : Nat) (x : Chip) (b : Blk) : Sends x (riseOf m0 f x b) := by
  unfold riseOf
  split
  · exact sends_sendMsix x f _
  · exact Sends.refl x

theorem sends_risesOf (m0 x : Chip) (f : Nat) : Sends x (risesOf m0 x f) := sends_foldl (sends_riseOf m0 f) Blk.all x

theorem sends_msixRise (m0 m : Chip) : Sends m (msixRise m0 m) := sends_foldl (sends_risesOf m0) [0, 1] m

/-- In the course of `msixRise` each block's message is sent to a function towards which its interrupt rose. -/
theorem msixRise_of_rise {m0 m : Chip} {f : Nat} {b : Blk} (hf : f < 2) (hm : irqTo m f b = true) (h0 : irqTo m0 f b = false) :
    ∃ x, Sends m x ∧ Sends (sendMsix x f (64 + b.irqBit)) (msixRise m0 m) := by
  have hmem : f ∈ [0, 1] := by
    have : f = 0 ∨ f = 1 := by omega
    simpa using this
  obtain ⟨y, hmy, hyend⟩ := sends_foldl_of_mem (sends_risesOf m0) hmem m
  obtain ⟨x, hyx, hxend⟩ := sends_foldl_of_mem (sends_riseOf m0 f) (mem_blocks b) y
  have hmx : Sends m x := hmy.trans hyx
  refine ⟨x, hmx, ?_⟩
  have hrise : riseOf m0 f x b = sendMsix x f (64 + b.irqBit) := if_pos (by simp [hmx.irqTo_eq, hm, h0])
  rw [← hrise]
  exact hxend.trans hyend

/-- Settles O18: the message of an interrupt that rose is sent in the course of `msixRise`, which takes back none. -/
theorem risenInterruptsAreSent : Obligations.RisenInterruptsAreSent := by
  intro m0 m f b hf hm h0
  obtain ⟨x, hmx, hend⟩ := msixRise_of_rise hf hm h0
  obtain ⟨hsent, hpend⟩ := mem_sendMsix x f (64 + b.irqBit)
  rw [hmx.masked_eq] at hsent hpend
  exact ⟨fun h => hend.out _ (hsent h), fun h => hend.pba _ (hpend h), (sends_msixRise m0 m).out⟩

/-- What a finished command leaves beside the messages that it sends: the device of its effect, but for the LT of its idleness. -/
theorem done_chip_frame (s : State) (t : Nat) (m : Chip) :
    (s.done t m).chip = { m with out := (s.done t m).chip.out, pba := (s.done t m).chip.pba, pwr := (s.done t m).chip.pwr } := by
  rw [done_chip, idleTrack, (sends_msixRise s.chip m).frame]

end Sys2Proof.Machine

/-! ## System SRAM (R557, R590, R798) -/

namespace Sys2Proof.Machine

/-- A byte of a memory after bytes were written at an offset: one of them, or what it was. -/
theorem getD_memPut (b : List Byte) (l : List Host.Cell) (o x : Nat) :
    (sget (memPut l o b) x).getD 0 = if o ≤ x ∧ x < o + b.length then b.getD (x - o) 0 else (sget l x).getD 0 := by
  induction b generalizing l o with
  | nil => rw [if_neg (by simp only [List.length_nil]; omega)]; rfl
  | cons v b ih =>
    rw [memPut, ih]
    simp only [List.length_cons]
    by_cases hx : x = o
    · subst hx
      rw [if_neg (by omega), if_pos (by omega), getD_sputD_same]
      simp
    · rw [sget_sputD_other _ _ _ _ _ hx]
      by_cases hin : o + 1 ≤ x ∧ x < o + 1 + b.length
      · obtain ⟨k, rfl⟩ : ∃ k, x = o + 1 + k := ⟨x - (o + 1), by omega⟩
        rw [if_pos hin, if_pos (by omega)]
        simp [show o + 1 + k - o = k + 1 by omega]
      · rw [if_neg hin, if_neg (by omega)]

section Store
variable {m : Chip} {a : Nat} {l : List Byte} (hlo : sramBase ≤ a) (hhi : a + l.length ≤ sramBase + sramSize)
include hlo hhi

/-- A store within system SRAM puts its bytes there, and does nothing else. -/
theorem memStore_sram : memStore m 2 a l = updDma m fun d => { d with sram := memPut d.sram (a - sramBase) l } := by
  unfold memStore
  split
  · rename_i hempty
    rw [List.isEmpty_iff.1 hempty]
    rfl
  · rw [if_pos rfl, if_pos (by simp [hlo, hhi])]

/-- A byte of the internal space after a store within system SRAM: one of the bytes stored, or what it was. -/
theorem innerByte_memStore (x : Nat) :
    innerByte (memStore m 2 a l) x = if a ≤ x ∧ x < a + l.length then l.getD (x - a) 0 else innerByte m x := by
  rw [memStore_sram hlo hhi]
  unfold innerByte
  by_cases hsram : sramBase ≤ x ∧ x < sramBase + sramSize
  · have hin : (decide (sramBase ≤ x) && decide (x < sramBase + sramSize)) = true := by simpa using hsram
    rw [if_pos hin, if_pos hin]
    simp only [sramByte, updDma_dma, getD_memPut]
    by_cases hx : a ≤ x ∧ x < a + l.length
    · rw [if_pos (by omega), if_pos hx, show x - sramBase - (a - sramBase) = x - a by omega]
    · rw [if_neg (by omega), if_neg hx]
  · have hout : ¬ (decide (sramBase ≤ x) && decide (x < sramBase + sramSize)) = true := by simpa using hsram
    have hx : ¬ (a ≤ x ∧ x < a + l.length) := by omega
    rw [if_neg hout, if_neg hout, if_neg hx]
    rfl

/-- The bytes that a store within system SRAM put there read back in their order. -/
theorem innerRead_memStore : innerRead (memStore m 2 a l) a l.length = l := by
  refine List.ext_getElem (by simp [innerRead]) fun i h₁ h₂ => ?_
  simp only [innerRead, List.getElem_map, List.getElem_range, innerByte_memStore hlo hhi]
  rw [if_pos (by omega), Nat.add_sub_cancel_left, List.getD_eq_getElem _ _ h₂]

theorem innerByte_memStore_other {x : Nat} (hx : x < a ∨ a + l.length ≤ x) : innerByte (memStore m 2 a l) x = innerByte m x := by
  rw [innerByte_memStore hlo hhi, if_neg (by omega)]

end Store

/-- Settles O11: a byte after a store is one of those stored, or what it was. -/
theorem sramHoldsWhatIsStored : Obligations.SramHoldsWhatIsStored := by
  intro m a l hlo hhi
  exact ⟨innerRead_memStore hlo hhi, fun x hx => innerByte_memStore_other hlo hhi hx, memStore_wf m 2 a l⟩

/-- The internal space of a device after a command is that of the command's effect. -/
theorem innerByte_done (s : State) (t : Nat) (m : Chip) (x : Nat) : innerByte (s.done t m).chip x = innerByte m x := by
  rw [done_chip_frame]
  rfl

/-- Settles O12: the command stores as `memStore` does, and its end changes no memory, register, counter or record. -/
theorem bar2WriteStoresItsBytes : Obligations.Bar2WriteStoresItsBytes := by
  intro s t m now h f off l hup hfit hwin
  have hlo : sramBase ≤ sramBase + off := Nat.le_add_right _ _
  have hhi : sramBase + off + l.length ≤ sramBase + sramSize := by omega
  have hexec : exec (.bar2Write t f off l) s = .next (s.done t (memStore m 2 (sramBase + off) l)) := by
    change execBar2Write t f off l s = _
    rw [execBar2Write, core_finds h, if_neg (by simp [hup]), if_pos (by simp [hfit, hwin])]
  have hframe := done_chip_frame s t (memStore m 2 (sramBase + off) l)
  have hstore := memStore_sram (m := m) hlo hhi
  refine ⟨_, hexec, ?_, fun x hx => ?_, ?_, ?_, ?_, rfl⟩
  · simpa only [innerRead, innerByte_done] using innerRead_memStore (m := m) hlo hhi
  · rw [innerByte_done]
    exact innerByte_memStore_other hlo hhi hx
  all_goals rw [hframe, hstore]; rfl

end Sys2Proof.Machine

/-! ## The Ledger's event queue, FAULT and the SAFE collector (R627-R644) -/

namespace Sys2Proof.Machine

/-! ### Event records (R644, R645) -/

theorem length_enqueueRec (q : List Rec) (r : Rec) : (enqueueRec q r).length = q.length + 1 := by
  simp only [enqueueRec, List.length_append, List.length_cons, List.length_take, List.length_drop]
  omega

theorem mem_enqueueRec (q : List Rec) (r : Rec) : r ∈ enqueueRec q r := by simp [enqueueRec]

/-- A record that finds room in the event queue is put there, and nothing else changes. -/
theorem emit_of_room {m : Chip} (h : m.ledger.evtQ.length < 256) (typ src lt : Nat) (pay : List (Nat × Nat)) :
    emit m typ src lt pay = updLedger m fun l => { l with evtQ := enqueueRec l.evtQ ⟨typ, src, lt, payload pay⟩ } := if_pos h

/-- A record that finds the event queue full is lost and counted. -/
theorem emit_of_full {m : Chip} (h : 256 ≤ m.ledger.evtQ.length) (typ src lt : Nat) (pay : List (Nat × Nat)) :
    emit m typ src lt pay = setIrq (bump (updLedger m fun l => { l with lostE := l.lostE + 1 }) A.evt_lost 1) .ledger 1 :=
  if_neg (Nat.not_lt.2 h)

@[simp] theorem cnt_setIrq (m : Chip) (b : Blk) (i a : Nat) : cnt (setIrq m b i) a = cnt m a := rfl
@[simp] theorem setIrq_pair (m : Chip) (b : Blk) (i : Nat) : (setIrq m b i).pair = m.pair := rfl
@[simp] theorem cnt_say (m : Chip) (o : Out) (a : Nat) : cnt (say m o) a = cnt m a := rfl

/-- A `bump` adds to its own counter, and to no other. -/
theorem cnt_bump_same (m : Chip) (a k : Nat) : cnt (bump m a k) a = cnt m a + k := cnt_setCnt_same m a _
theorem cnt_bump_other (m : Chip) {a b : Nat} (k : Nat) (h : b ≠ a) : cnt (bump m a k) b = cnt m b := cnt_setCnt_other m a b _ h

/-- Settles O21: a record finds room, or is lost and counted. -/
theorem eventQueueHolds256Records : Obligations.EventQueueHolds256Records := by
  intro m typ src lt pay
  refine ⟨fun hroom => ?_, fun hfull => ?_⟩
  · rw [emit_of_room hroom]
    exact ⟨length_enqueueRec _ _, mem_enqueueRec _ _, rfl⟩
  · rw [emit_of_full hfull]
    exact ⟨rfl, cnt_bump_same (updLedger m fun l => { l with lostE := l.lostE + 1 }) A.evt_lost 1⟩

/-! ### What a record leaves unchanged -/

@[simp] theorem emit_pair (m : Chip) (typ src lt : Nat) (pay : List (Nat × Nat)) : (emit m typ src lt pay).pair = m.pair := by
  unfold emit
  split <;> rfl

theorem cnt_emit (m : Chip) (typ src lt : Nat) (pay : List (Nat × Nat)) {a : Nat} (h : a ≠ A.evt_lost) :
    cnt (emit m typ src lt pay) a = cnt m a := by
  unfold emit
  split
  · rfl
  · rw [cnt_setIrq, cnt_bump_other _ _ h]
    rfl

theorem rd_emit (m : Chip) (typ src lt : Nat) (pay : List (Nat × Nat)) {a : Nat} (h : a ≠ irqStatus .ledger) :
    rd (emit m typ src lt pay) a = rd m a := by
  unfold emit
  split
  · rfl
  · exact rd_setIrq_other _ .ledger 1 a h

/-! ### The token's release, and FAULT (R633, R635, R741, R743) -/

@[simp] theorem tokenRelease_safe (m : Chip) (now cause : Nat) : (tokenRelease m now cause).safe = m.safe := by
  unfold tokenRelease
  split
  · rfl
  · simp

theorem cnt_tokenRelease (m : Chip) (now cause : Nat) {a : Nat} (h : a ≠ A.evt_lost) : cnt (tokenRelease m now cause) a = cnt m a := by
  unfold tokenRelease
  split
  · rfl
  · rw [cnt_say, cnt_setIrq, cnt_emit _ _ _ _ _ h]
    rfl

/-- A device that has released the token does not hold it. -/
theorem tokenRelease_active (m : Chip) (now cause : Nat) : (tokenRelease m now cause).pair.active = false := by
  unfold tokenRelease
  split
  · rename_i h
    simpa using h
  · simp

/-- The release of a token that is held starts the hold-off (R743). -/
theorem tokenRelease_holdoff {m : Chip} (h : m.pair.active = true) (now cause : Nat) :
    (tokenRelease m now cause).pair.holdoff = some (now + fld m A.PAIR_TIMING 16 8 * ms) := by
  simp [tokenRelease, h]

/-- The device as it asserts FAULT with a cause, before its token goes. -/
def faultRaised (m : Chip) (now cause : Nat) : Chip :=
  say (setIrq (emit (updSafe m fun s => { s with fault := true, cause := cause, since := now }) 0x0E02 0x0E01 now [(1, 1), (1, cause)])
    .safe 3) (.pin "FAULT" 1)

theorem assertFault_of_asserted {m : Chip} (h : m.safe.fault = true) (now cause : Nat) : assertFault m now cause = m := if_pos h

theorem assertFault_of_released {m : Chip} (h : m.safe.fault = false) (now cause : Nat) :
    assertFault m now cause = tokenRelease (faultRaised m now cause) now 2 := if_neg (by simp [h])

@[simp] theorem faultRaised_safe (m : Chip) (now cause : Nat) :
    (faultRaised m now cause).safe = { m.safe with fault := true, cause := cause, since := now } := by simp [faultRaised]

@[simp] theorem faultRaised_pair (m : Chip) (now cause : Nat) : (faultRaised m now cause).pair = m.pair := by simp [faultRaised]

theorem cnt_faultRaised (m : Chip) (now cause : Nat) {a : Nat} (h : a ≠ A.evt_lost) : cnt (faultRaised m now cause) a = cnt m a := by
  rw [faultRaised, cnt_say, cnt_setIrq, cnt_emit _ _ _ _ _ h]
  rfl

/-- Raising FAULT changes no register but interrupt status. -/
theorem rd_faultRaised (m : Chip) (now cause : Nat) {a : Nat} (hs : a ≠ irqStatus .safe) (hl : a ≠ irqStatus .ledger) :
    rd (faultRaised m now cause) a = rd m a := by
  have hirq := rd_setIrq_other (emit (updSafe m fun s => { s with fault := true, cause := cause, since := now }) 0x0E02 0x0E01 now
    [(1, 1), (1, cause)]) .safe 3 a hs
  exact hirq.trans (rd_emit _ _ _ _ _ hl)

/-- Asserting FAULT leaves it asserted. -/
theorem assertFault_fault (m : Chip) (now cause : Nat) : (assertFault m now cause).safe.fault = true := by
  cases h : m.safe.fault with
  | true => rwa [assertFault_of_asserted h]
  | false => simp [assertFault_of_released h]

/-- Asserting FAULT leaves the queue of the collector, and its overflow flag, as they are. -/
theorem assertFault_queue (m : Chip) (now cause : Nat) :
    (assertFault m now cause).safe.q = m.safe.q ∧ (assertFault m now cause).safe.overflow = m.safe.overflow := by
  cases h : m.safe.fault with
  | true => simp [assertFault_of_asserted h]
  | false => simp [assertFault_of_released h]

theorem cnt_assertFault (m : Chip) (now cause : Nat) {a : Nat} (ha : a ≠ A.evt_lost) : cnt (assertFault m now cause) a = cnt m a := by
  cases h : m.safe.fault with
  | true => rw [assertFault_of_asserted h]
  | false => rw [assertFault_of_released h, cnt_tokenRelease _ _ _ ha, cnt_faultRaised _ _ _ ha]

/-- Settles O22: FAULT is raised, and then the token released, where FAULT was not asserted before. -/
theorem faultTakesTheToken : Obligations.FaultTakesTheToken := by
  intro m now cause
  refine ⟨assertFault_fault m now cause, fun h => ?_, fun h hact => ?_, fun h => assertFault_of_asserted h now cause⟩
  · rw [assertFault_of_released h]
    exact tokenRelease_active _ now 2
  · have htiming : rd (faultRaised m now cause) A.PAIR_TIMING = rd m A.PAIR_TIMING := rd_faultRaised m now cause (by decide) (by decide)
    rw [assertFault_of_released h, tokenRelease_holdoff (by simpa using hact)]
    simp only [fld, rdN, htiming]

/-! ### The collector's queue (R627-R630) -/

@[simp] theorem react_q (m : Chip) (now sev : Nat) : (react m now sev).safe.q = m.safe.q := by
  unfold react
  split
  · exact (assertFault_queue m now 1).1
  · rfl

theorem length_safeInsert (q : List SafeEnt) (x : SafeEnt) : (safeInsert q x).length = q.length + 1 := by
  induction q with
  | nil => rfl
  | cons e r ih =>
    unfold safeInsert
    split
    · simp [ih]
    · rfl

theorem mem_safeInsert (q : List SafeEnt) (x : SafeEnt) : x ∈ safeInsert q x := by
  induction q with
  | nil => simp [safeInsert]
  | cons e r ih =>
    unfold safeInsert
    split
    · exact List.mem_cons_of_mem _ ih
    · simp

/-- A report that is placed adds one entry, its own, behind the head. -/
theorem safePlace_spec (q : List SafeEnt) (x : SafeEnt) :
    (safePlace q x).length = q.length + 1 ∧ x ∈ safePlace q x ∧ ∀ h r, q = h :: r → (safePlace q x).head? = some h := by
  cases q with
  | nil => exact ⟨rfl, by simp [safePlace], fun _ _ h => absurd h (by simp)⟩
  | cons e r =>
    refine ⟨by simp [safePlace, length_safeInsert], List.mem_cons_of_mem _ (mem_safeInsert r x), ?_⟩
    rintro h t ⟨⟩
    rfl

/-- A report to a full collector is counted as lost, and FAULT is asserted. -/
theorem report_of_full {m : Chip} (h : 64 ≤ m.safe.q.length) (now src code sev info : Nat) : report m now src code sev info =
    assertFault (setIrq (bump (updSafe (bump m A.reports 1) fun s => { s with overflow := true }) A.lost 1) .safe 2) now 2 := if_pos h

/-- The entry of a report: it has reacted where it stands behind a head and is more severe than all entries before it (R629). -/
def reportEntry (m : Chip) (now src code sev info : Nat) : SafeEnt :=
  { lt := now, src := src, code := code, sev := sev, info := info % 2 ^ 24
    reacted := !m.safe.q.isEmpty && (safeAhead m.safe.q ⟨now, src, code, sev, info % 2 ^ 24, false⟩).all fun e => e.sev < sev }

theorem setIrqIf_safe (c : Prop) [Decidable c] (m : Chip) (b : Blk) (i : Nat) : (if c then setIrq m b i else m).safe = m.safe := by
  split <;> rfl

theorem reactIf_q (c : Prop) [Decidable c] (m : Chip) (now sev : Nat) : (if c then react m now sev else m).safe.q = m.safe.q := by
  split
  · exact react_q m now sev
  · rfl

/-- The device with a report placed in its collector, recorded and shown, before the report's reaction. -/
def reportNoted (m : Chip) (now src code sev info : Nat) : Chip :=
  let x := reportEntry m now src code sev info
  let m1 := emit (updSafe (bump m A.reports 1) fun s => { s with q := safePlace s.q x }) 0x0E01 0x0E00 now
    [(2, src), (2, code), (1, sev), (1, b2n (m.safe.q.isEmpty || x.reacted)), (3, info % 2 ^ 24), (1, (safePlace m.safe.q x).length)]
  let m2 := if m.safe.q.isEmpty then setIrq m1 .safe 0 else m1
  if x.reacted then setIrq m2 .safe 1 else m2

/-- A report to a collector with room is placed, and reacts at once as the head or where it is marked so. -/
theorem report_of_room {m : Chip} (h : m.safe.q.length < 64) (now src code sev info : Nat) : report m now src code sev info =
    if m.safe.q.isEmpty || (reportEntry m now src code sev info).reacted then react (reportNoted m now src code sev info) now sev
    else reportNoted m now src code sev info := if_neg (Nat.not_le.2 h)

/-- A report to a collector with room is placed in its queue. -/
theorem report_q_of_room {m : Chip} (h : m.safe.q.length < 64) (now src code sev info : Nat) :
    (report m now src code sev info).safe.q = safePlace m.safe.q (reportEntry m now src code sev info) := by
  rw [report_of_room h, reactIf_q]
  simp only [reportNoted, setIrqIf_safe, emit_safe, updSafe_safe, bump_safe]

/-- A report to a full collector leaves its queue, which then has overflowed, asserts FAULT, and is counted as lost (R630). -/
theorem report_spec_of_full {m : Chip} (h : 64 ≤ m.safe.q.length) (now src code sev info : Nat) :
    (report m now src code sev info).safe.q = m.safe.q ∧ (report m now src code sev info).safe.overflow = true ∧
      (report m now src code sev info).safe.fault = true ∧ cnt (report m now src code sev info) A.lost = cnt m A.lost + 1 := by
  rw [report_of_full h]
  refine ⟨(assertFault_queue _ now 2).1, (assertFault_queue _ now 2).2, assertFault_fault _ now 2, ?_⟩
  rw [cnt_assertFault _ now 2 (by decide), cnt_setIrq, cnt_bump_same]
  exact congrArg (· + 1) (cnt_bump_other m 1 (by decide))

/-- An acknowledgement takes the head (R628). -/
theorem safeAck_q (m : Chip) (now : Nat) : (safeAck m now).safe.q = m.safe.q.tail := by
  unfold safeAck
  dsimp only
  split
  · rfl
  · split
    · rfl
    · rw [react_q]
      rfl

/-- Settles O19: a report to a full collector leaves its queue, one to a collector with room is placed behind the head. -/
theorem collectorKeepsItsHead : Obligations.CollectorKeepsItsHead := by
  intro m now src code sev info
  obtain ⟨hlen, hmem, hhead⟩ := safePlace_spec m.safe.q (reportEntry m now src code sev info)
  refine ⟨fun hmax => ?_, fun h r hq => ?_, fun hroom => ?_, safeAck_q m now⟩
  · rcases Nat.lt_or_ge m.safe.q.length 64 with hroom | hfull
    · rw [report_q_of_room hroom, hlen]
      omega
    · rwa [(report_spec_of_full hfull now src code sev info).1]
  · rcases Nat.lt_or_ge m.safe.q.length 64 with hroom | hfull
    · rw [report_q_of_room hroom, hhead h r hq]
    · rw [(report_spec_of_full hfull now src code sev info).1, hq, List.head?_cons]
  · rw [report_q_of_room hroom]
    exact ⟨hlen, _, hmem, rfl, rfl, rfl, rfl⟩

end Sys2Proof.Machine

/-! ## Writes of LEDGER, BRG, SAFE and CFG_TRIAD_GO (R619, R628, R630, R633, R634, R646, R654, R717, R719, R776) -/

namespace Sys2Proof.Machine

/-! ### Registers of a block in the map -/

/-- A register of a block, by its offset. -/
theorem regRow_of_findRow (b : Blk) {a o : Nat} {r : RegRow} {ix : List Nat} (ha : a = b.base + o) (ho : o < b.size)
    (hfind : findRow b.rows o = some (r, ix)) : regRow a = some (b, r, ix) := by
  have hblk : blkOf a = some b := blkOf_of_range b (by omega) (by omega)
  simp only [regRow, hblk, show a - b.base = o by omega, hfind, Option.map_some]

/-- The rows of `LEDGER_CFG`, `LEDGER_EXPORT_CFG`, `BRG_PWE_POP`, the commands of SAFE, the load window and `CFG_TRIAD_GO`. -/
def ledgerCfgRow : RegRow := regsLedger1[4]'(by decide)
def exportCfgRow : RegRow := regsLedger1[5]'(by decide)
def pwePopRow : RegRow := regsBrg1[13]'(by decide)
def ecAckRow : RegRow := regsSafe1[5]'(by decide)
def ecOvfClrRow : RegRow := regsSafe1[6]'(by decide)
def faultCtrlRow : RegRow := regsSafe1[12]'(by decide)
def wdtKickRow : RegRow := regsSafe2[1]'(by decide)
def cwdtKickRow : RegRow := regsSafe2[3]'(by decide)
def loadWindowRow : RegRow := regsSafe2[13]'(by decide)
def triadGoRow : RegRow := regsCfg2[5]'(by decide)

theorem regRow_ledgerCfg : regRow A.LEDGER_CFG = some (.ledger, ledgerCfgRow, []) := rfl
theorem regRow_exportCfg : regRow A.LEDGER_EXPORT_CFG = some (.ledger, exportCfgRow, []) := rfl
theorem regRow_pwePop : regRow A.BRG_PWE_POP = some (.brg, pwePopRow, []) := rfl
theorem regRow_ecAck : regRow A.SAFE_EC_ACK = some (.safe, ecAckRow, []) := rfl
theorem regRow_ecOvfClr : regRow A.SAFE_EC_OVF_CLR = some (.safe, ecOvfClrRow, []) := rfl
theorem regRow_faultCtrl : regRow A.SAFE_FAULT_CTRL = some (.safe, faultCtrlRow, []) := rfl
theorem regRow_wdtKick : regRow A.TRIAD_WDT_KICK = some (.safe, wdtKickRow, []) := rfl
theorem regRow_cwdtKick : regRow A.TRIAD_CWDT_KICK = some (.safe, cwdtKickRow, []) := rfl
theorem regRow_triadGo : regRow A.CFG_TRIAD_GO = some (.cfg, triadGoRow, []) := rfl

/-- A word of the load window is the window's row, which is the last of SAFE (R776). -/
theorem regRow_loadWindow (w : Fin 32768) : regRow (A.TRIAD_LOAD_WINDOW w) = some (.safe, loadWindowRow, [w.val]) := by
  refine regRow_of_findRow .safe (o := 0x40000 + 4 * w.val) (by simp only [A.TRIAD_LOAD_WINDOW, Blk.base]; omega)
    (by simp only [Blk.size]; omega) ?_
  have hindex : loadWindowRow.index (0x40000 + 4 * w.val) = some [w.val] := by
    have hin : 0x40000 ≤ 0x40000 + 4 * w.val ∧ (0x40000 + 4 * w.val - 0x40000) / 4 < 32768 ∧ (0x40000 + 4 * w.val - 0x40000) % 4 = 0 := by
      omega
    rw [index_of_dims (r := loadWindowRow) (n := 32768) (k := 4) (by decide) rfl]
    refine (if_pos hin).trans ?_
    congr 2
    show (0x40000 + 4 * w.val - 0x40000) / 4 = w.val
    omega
  rw [show Blk.safe.rows = regsSafe.take 33 ++ loadWindowRow :: regsSafe.drop 34 from rfl,
    findRow_append_of_endsBy (e := 0x40000) (by decide) (by omega)]
  simp only [findRow, hindex]

/-- The Ledger's anchor period and the enable of its buffers wait for the next cycle (R646, R654); the other commands are done at once. -/
theorem inForceLater_ledgerCfg : inForceLater A.LEDGER_CFG = true := rfl
theorem inForceLater_exportCfg : inForceLater A.LEDGER_EXPORT_CFG = true := rfl
theorem inForceLater_pwePop : inForceLater A.BRG_PWE_POP = false := rfl
theorem inForceLater_ecAck : inForceLater A.SAFE_EC_ACK = false := rfl
theorem inForceLater_ecOvfClr : inForceLater A.SAFE_EC_OVF_CLR = false := rfl
theorem inForceLater_faultCtrl : inForceLater A.SAFE_FAULT_CTRL = false := rfl
theorem inForceLater_wdtKick : inForceLater A.TRIAD_WDT_KICK = false := rfl
theorem inForceLater_cwdtKick : inForceLater A.TRIAD_CWDT_KICK = false := rfl
theorem inForceLater_triadGo : inForceLater A.CFG_TRIAD_GO = false := rfl

/-! ### The device under the storing of a write -/

/-- Storing the fields of a write leaves the collector and the triad. -/
@[simp] theorem stored_safe_triad (m : Chip) (a data : Nat) :
    (stored m a data).safe = m.safe ∧ (stored m a data).triad = m.triad := by
  unfold stored
  split
  · dsimp only
    split <;> split <;> exact ⟨rfl, rfl⟩
  · exact ⟨rfl, rfl⟩

/-! ### What the writes do beside storing their fields -/

section Effect
variable (m : Chip) (now old new data : Nat)

/-- Another anchor period writes the anchor that it makes due, or leaves it waiting behind a record of the cycle (R646). -/
theorem ledgerEffect_cfg : ledgerEffect m now A.LEDGER_CFG old new =
    if bits old 16 16 ≠ bits new 16 16 && anchorIsDue m now then
      if ledgerFull m now then updLedger m fun l => { l with anchors := if l.anchors.isEmpty then [0] else l.anchors }
      else anchorWrite m now
    else m := if_pos rfl

/-- A write of `LEDGER_EXPORT_CFG` does something beside only where it finds `en` set (R654). -/
theorem ledgerEffect_exportCfg {old : Nat} (hold : bit old 6 = false) : ledgerEffect m now A.LEDGER_EXPORT_CFG old new = m := by
  rw [ledgerEffect, if_neg (by decide), if_neg (by simp [hold])]

/-- `SAFE_EC_OVF_CLR` clears the overflow flag of a collector with room (R630). -/
theorem safeEffect_ecOvfClr : safeEffect m now A.SAFE_EC_OVF_CLR 1 =
    if m.safe.q.length < 64 then updSafe m fun s => { s with overflow := false } else m := by
  have heffect : safeEffect m now A.SAFE_EC_OVF_CLR 1 =
      if (true && decide (m.safe.q.length < 64)) = true then updSafe m fun s => { s with overflow := false } else m := rfl
  simpa using heffect

/-- The cluster's watchdog, where it runs, counts anew from a kick (R719). -/
theorem safeEffect_cwdtKick {m : Chip} (h : m.triad.ckick.isSome = true) : safeEffect m now A.TRIAD_CWDT_KICK 1 =
    updTriad m fun x => { x with ckick := some now } := by
  have heffect : safeEffect m now A.TRIAD_CWDT_KICK 1 =
      if (true && m.triad.ckick.isSome) = true then updTriad m fun x => { x with ckick := some now } else m := rfl
  rw [heffect, h]
  rfl

/-- A word of the load window goes into the triad's memory (R776). -/
theorem safeEffect_loadWindow (w : Fin 32768) : safeEffect m now (A.TRIAD_LOAD_WINDOW w) data =
    updTriad m fun x => { x with tcm := memPut x.tcm (4 * w) (leBytes 4 data) } := by
  have hpos : 0x41240000 ≤ A.TRIAD_LOAD_WINDOW w ∧ A.TRIAD_LOAD_WINDOW w < 0x41260000 ∧ A.TRIAD_LOAD_WINDOW w - 0x41240000 = 4 * w.val := by
    unfold A.TRIAD_LOAD_WINDOW
    omega
  obtain ⟨hlo, hhi, hoff⟩ := hpos
  have hwindow : windowOff (A.TRIAD_LOAD_WINDOW w) = some (4 * w.val) := by simp [windowOff, hlo, hhi, hoff]
  simp only [safeEffect, hwindow]

end Effect

/-- A write to a word of the load window that SAFE does not refuse goes into the triad's memory (R776). -/
theorem writeReg_loadWindow {m : Chip} {now who : Nat} {w : Fin 32768} {data : Nat} (hwho : who < 8)
    (hcheck : safeCheck m now who (A.TRIAD_LOAD_WINDOW w) data = 0) (flt : Bool) :
    writeReg m now who (A.TRIAD_LOAD_WINDOW w) data flt =
      updTriad m fun x => { x with tcm := memPut x.tcm (4 * w) (leBytes 4 data) } := by
  have hwindow : writeReg m now who (A.TRIAD_LOAD_WINDOW w) data flt = windowWrite m now who (A.TRIAD_LOAD_WINDOW w) data := by
    simp only [writeReg, regRow_loadWindow]
    rw [if_neg (by decide), if_pos (by decide)]
  rw [hwindow, windowWrite, if_pos hwho]
  simp only [hcheck, safeEffect_loadWindow]

/-- A write of `SAFE_EC_OVF_CLR` clears the overflow flag of a collector with room, which storing the write's fields leaves as it is. -/
theorem exec_safeEcOvfClr {s : State} {t u now : Nat} {m : Chip} {who : Fin 8} {g : Chip → Chip}
    (h : Writes s t u m now who A.SAFE_EC_OVF_CLR 1)
    (hg : ∀ x, x.safe = m.safe → (if m.safe.q.length < 64 then updSafe x fun y => { y with overflow := false } else x) = g x) :
    exec (.safeEcOvfClr t who) s = .next (s.done u (wrote m now A.SAFE_EC_OVF_CLR 1 .safe g)) := by
  change execSafeEcOvfClr t who s = _
  refine write_taken_of_stored (d := 1) h regRow_ecOvfClr (by decide) inForceLater_ecOvfClr ?_
  have hsafe : (stored m A.SAFE_EC_OVF_CLR 1).safe = m.safe := (stored_safe_triad m _ _).1
  refine (safeEffect_ecOvfClr (stored m A.SAFE_EC_OVF_CLR 1) now).trans ?_
  rw [hsafe]
  exact hg _ hsafe

/-- Settles O20: a report to a full collector is lost and counted, and overflow is cleared only while there is room. -/
theorem fullCollectorLosesReports : Obligations.FullCollectorLosesReports := by
  intro s t u m now
  refine ⟨fun h hfull src code sev info hsev => ?_, fun who h => exec_safeEcOvfClr h fun _ _ => rfl⟩
  have hexec : exec (.safeErrorReport t src code sev info) s = .next (s.done t (report m now src code sev info)) := by
    change execSafeErrorReport t src code sev info s = _
    exact core_answers h (if_neg (Fin.val_ne_of_ne hsev))
  obtain ⟨hq, hovf, hfault, hlost⟩ := report_spec_of_full hfull now src code sev info
  have hframe := done_chip_frame s t (report m now src code sev info)
  refine ⟨_, hexec, ?_, ?_, ?_, ?_⟩ <;> rw [hframe]
  · exact hq
  · exact hlost
  · exact hovf
  · exact hfault

/-- Settles O56: the effect of each write is that of its block at its register and data, and the load window is a window of memory. -/
theorem safetyRegisterCommandsComplete : Obligations.SafetyRegisterCommandsComplete := by
  intro s t u m now
  refine ⟨fun who d h => ?_, fun who d => ?_, fun who d h _ => ?_, fun who d hoff => ?_, fun who h => ?_, fun who h => ?_,
    fun who h hroom => ?_, fun who h => ?_, fun who h => ?_, fun who w d h hcheck => ?_, fun who h => ?_, fun who d h => ?_,
    fun who h hrun => ?_⟩
  · change execAnchorMsWrite t who d s = _
    exact write_noted h regRow_ledgerCfg who.isLt inForceLater_ledgerCfg false
  · rw [land_write regRow_ledgerCfg (by decide)]
    exact congrArg (effected m _ _ .ledger) (funext fun x => ledgerEffect_cfg x now _ _)
  · change execExportEnable t who d s = _
    exact write_noted h regRow_exportCfg who.isLt inForceLater_exportCfg false
  · have hold : bit (oldWord m A.LEDGER_EXPORT_CFG) 6 = false := hoff
    rw [land_write regRow_exportCfg (by decide)]
    exact congrArg (effected m _ _ .ledger) (funext fun x => ledgerEffect_exportCfg x now _ hold)
  · change execPwePop t who s = _
    exact write_taken (d := 1) h regRow_pwePop (by decide) inForceLater_pwePop fun x => rfl
  · change execSafeEcAck t who s = _
    exact write_taken (d := 1) h regRow_ecAck (by decide) inForceLater_ecAck fun x => rfl
  · exact exec_safeEcOvfClr h fun _ _ => if_pos hroom
  · change execFaultSet t who s = _
    exact write_taken (d := 1) h regRow_faultCtrl (by decide) inForceLater_faultCtrl fun x => rfl
  · change execFaultRelease t who s = _
    exact write_taken (d := 2) h regRow_faultCtrl (by decide) inForceLater_faultCtrl fun x => rfl
  · obtain ⟨m0, hacc, hm, hcarry⟩ := h
    obtain ⟨hwrite, hreach⟩ := write_of_carries hacc hm hcarry d false
    change execTriadWindowWrite t who w d s = _
    rw [execTriadWindowWrite, hwrite, busWrite_ok hm hreach, writeReg_loadWindow who.isLt hcheck]
  · change execTriadGo t who s = _
    exact write_taken (d := 1) h regRow_triadGo (by decide) inForceLater_triadGo fun x => rfl
  · change execTriadWdtKick t who d s = _
    exact write_taken h regRow_wdtKick (by decide) inForceLater_wdtKick fun x => rfl
  · have hrun' : (stored m A.TRIAD_CWDT_KICK 1).triad.ckick.isSome = true := by rw [(stored_safe_triad m _ _).2, hrun]
    change execCwdtKick t who s = _
    exact write_taken_of_stored (d := 1) h regRow_cwdtKick (by decide) inForceLater_cwdtKick (safeEffect_cwdtKick now hrun')

end Sys2Proof.Machine

/-! ## Writes of GLB and PWR (R673, R682, R701, R703, R805, R812) -/

namespace Sys2Proof.Machine

/-! ### The registers of GLB and PWR in the map -/

/-- The rows of `GLB_RST_CMD`, `PWR_CMD` and `PWR_DOM_CTRL`. -/
def rstCmdRow : RegRow := regsGlb1[10]'(by decide)
def pwrCmdRow : RegRow := regsPwr1[5]'(by decide)
def domCtrlRow : RegRow := regsPwr1[9]'(by decide)

theorem regRow_rstCmd : regRow A.GLB_RST_CMD = some (.glb, rstCmdRow, []) := rfl
theorem regRow_pwrCmd : regRow A.PWR_CMD = some (.pwr, pwrCmdRow, []) := rfl
theorem regRow_domCtrl : regRow A.PWR_DOM_CTRL = some (.pwr, domCtrlRow, []) := rfl

/-- The route register of an agent is a row of GLB behind those of its interrupts. -/
theorem regRow_irqRoute (a : Fin 4) : ∃ r, regRow (irqRoute a) = some (.glb, r, []) ∧ 4 < r.off := by
  fin_cases a
  · exact ⟨regsGlb1[14]'(by decide), rfl, by decide⟩
  · exact ⟨regsGlb1[16]'(by decide), rfl, by decide⟩
  · exact ⟨regsGlb1[18]'(by decide), rfl, by decide⟩
  · exact ⟨regsGlb2[0]'(by decide), rfl, by decide⟩

/-- A route is in force from the next cycle on (R812); the commands of GLB and PWR are done at once. -/
theorem inForceLater_irqRoute (a : Fin 4) : inForceLater (irqRoute a) = true := by
  fin_cases a <;> rfl

theorem inForceLater_rstCmd : inForceLater A.GLB_RST_CMD = false := rfl
theorem inForceLater_pwrCmd : inForceLater A.PWR_CMD = false := rfl
theorem inForceLater_domCtrl : inForceLater A.PWR_DOM_CTRL = false := rfl

/-! ### The writes -/

/-- A taken write of a route waits for the next cycle (R812). -/
theorem exec_irqRouteWrite {s : State} {t u now : Nat} {m : Chip} {who : Fin 8} {a : Fin 4} {d : Word}
    (h : Writes s t u m now who (irqRoute a) d.toNat) :
    exec (.irqRouteWrite t who a d) s = .next (s.done u (noted m now who (irqRoute a) d.toNat)) := by
  obtain ⟨r, hrow, -⟩ := regRow_irqRoute a
  change execIrqRouteWrite t who a d s = _
  exact write_noted h hrow who.isLt (inForceLater_irqRoute a) false

/-- A route that lands is stored, with what GLB does for it. -/
theorem land_irqRoute (m : Chip) (now : Nat) (who : Fin 8) (a : Fin 4) (d : Word) :
    land now m (.write who (irqRoute a) d.toNat) = effected m (irqRoute a) d.toNat .glb fun x => glbEffect m x now (irqRoute a) := by
  obtain ⟨r, hrow, hoff⟩ := regRow_irqRoute a
  exact land_write hrow hoff

/-- The route of the cluster or of the triad sends nothing again. -/
theorem glbEffect_agentRoute {a : Fin 4} (ha : 2 ≤ a.val) (m0 m : Chip) (now : Nat) : glbEffect m0 m now (irqRoute a) = m := by
  obtain rfl | rfl : a = 2 ∨ a = 3 := by omega
  all_goals rfl

/-- A command that writes one bit of `PWR_DOM_CTRL` changes domains as the words before and after it say (R701, R703). -/
theorem writeAt_domCtrl {s : State} {t u now : Nat} {m : Chip} {who : Fin 8} {d : Word} {f : Chip → Nat}
    (hf : ∀ x, f (monClear x A.PWR_DOM_CTRL) = f x)
    (hd : d = BitVec.ofNat 32 (f m)) (h : Writes s t u m now who A.PWR_DOM_CTRL d.toNat) :
    s.writeAt t who A.PWR_DOM_CTRL f = .next (s.done u (wrote m now A.PWR_DOM_CTRL d.toNat .pwr fun x =>
      domWrite x now (oldWord m A.PWR_DOM_CTRL) d.toNat)) :=
  writeAt_taken h hd hf regRow_domCtrl (by decide) inForceLater_domCtrl fun x => rfl

/-- Settles O47: the effect of each write is that of its block at its register and data, and a route or a park that waited lands by
definition. -/
theorem powerRegisterCommandsComplete : Obligations.PowerRegisterCommandsComplete := by
  intro s t u m now
  refine ⟨fun who d h => ?_, fun who d h => exec_irqRouteWrite h, fun who d => land_irqRoute m now who 0 d,
    fun who d h => exec_irqRouteWrite h, fun who d => land_irqRoute m now who 1 d, fun who a d h _ => exec_irqRouteWrite h,
    fun who a d ha => ?_, fun who h => ?_, rfl, fun who h => ?_, fun who k d hd h => ?_, fun who k d hd h => ?_⟩
  · change execColdResetCmd t who d s = _
    exact write_taken h regRow_rstCmd (by decide) inForceLater_rstCmd fun x => rfl
  · rw [land_irqRoute]
    exact congrArg (effected m _ _ .glb) (funext fun x => glbEffect_agentRoute ha m x now)
  · change execPark t who s = _
    exact write_taken (d := 1) h regRow_pwrCmd (by decide) inForceLater_pwrCmd fun x => rfl
  · change execParkCancel t who s = _
    exact write_taken (d := 2) h regRow_pwrCmd (by decide) inForceLater_pwrCmd fun x => rfl
  · change execDomainPowerDown t who k s = _
    exact writeAt_domCtrl (fun _ => rfl) hd h
  · change execDomainPowerUp t who k s = _
    exact writeAt_domCtrl (fun _ => rfl) hd h

end Sys2Proof.Machine

/-! ## Writes of DBG, PAIR and CFG (R722, R731, R734, R759, R765, R766, R775-R795), and of `<BLK>_ERR_CLR` (R836) -/

namespace Sys2Proof.Machine

/-- The rows of `DBG_LC_CMD`, `PAIR_CMD`, `CFG_CMD`, `CFG_FW_CMD` and `CFG_BOOT_CMD`. -/
def lcCmdRow : RegRow := regsDbg1[5]'(by decide)
def pairCmdRow : RegRow := regsPair1[14]'(by decide)
def cfgCmdRow : RegRow := regsCfg1[4]'(by decide)
def fwCmdRow : RegRow := regsCfg1[19]'(by decide)
def bootCmdRow : RegRow := regsCfg2[4]'(by decide)

theorem regRow_lcCmd : regRow A.DBG_LC_CMD = some (.dbg, lcCmdRow, []) := rfl
theorem regRow_pairCmd : regRow A.PAIR_CMD = some (.pair, pairCmdRow, []) := rfl
theorem regRow_cfgCmd : regRow A.CFG_CMD = some (.cfg, cfgCmdRow, []) := rfl
theorem regRow_fwCmd : regRow A.CFG_FW_CMD = some (.cfg, fwCmdRow, []) := rfl
theorem regRow_bootCmd : regRow A.CFG_BOOT_CMD = some (.cfg, bootCmdRow, []) := rfl

/-- The commands of DBG, PAIR and CFG are done at once. -/
theorem inForceLater_lcCmd : inForceLater A.DBG_LC_CMD = false := rfl
theorem inForceLater_pairCmd : inForceLater A.PAIR_CMD = false := rfl
theorem inForceLater_cfgCmd : inForceLater A.CFG_CMD = false := rfl
theorem inForceLater_fwCmd : inForceLater A.CFG_FW_CMD = false := rfl
theorem inForceLater_bootCmd : inForceLater A.CFG_BOOT_CMD = false := rfl

section Command
variable {s : State} {t u now : Nat} {m : Chip} {who : Fin 8} {d : Word}

/-- A taken write of `DBG_LC_CMD` does what its bits ask for. -/
theorem write_lcCmd (h : Writes s t u m now who A.DBG_LC_CMD d.toNat) :
    s.write t who A.DBG_LC_CMD d = .next (s.done u (wrote m now A.DBG_LC_CMD d.toNat .dbg fun x => dbgEffect x now A.DBG_LC_CMD d.toNat)) :=
  write_taken h regRow_lcCmd (by decide) inForceLater_lcCmd fun _ => rfl

/-- A taken write of `PAIR_CMD` does what its bits ask for. -/
theorem write_pairCmd (h : Writes s t u m now who A.PAIR_CMD d.toNat) :
    s.write t who A.PAIR_CMD d = .next (s.done u (wrote m now A.PAIR_CMD d.toNat .pair fun x => pairEffect x now A.PAIR_CMD d.toNat)) :=
  write_taken h regRow_pairCmd (by decide) inForceLater_pairCmd fun _ => rfl

/-- A taken write of a command register of CFG does what its bits ask for, for the initiator that writes. -/
theorem write_cfg {a : Nat} {r : RegRow} {ix : List Nat} {flt : Bool} {g : Chip → Chip} (h : Writes s t u m now who a d.toNat)
    (hrow : regRow a = some (.cfg, r, ix)) (hoff : 4 < r.off) (hnow : inForceLater a = false)
    (hg : ∀ x, cfgEffect x now who a d.toNat flt = g x) : s.write t who a d flt = .next (s.done u (wrote m now a d.toNat .cfg g)) := by
  have hwriter : writerOf .cfg who = who := if_pos who.isLt
  refine write_taken h hrow hoff hnow fun x => ?_
  show cfgEffect x now (writerOf .cfg who) a d.toNat flt = _
  rw [hwriter, hg]

end Command

/-- Settles O57: the effect of each write is that of DBG or PAIR at its register and data. -/
theorem lifecycleAndPairRegisterCommandsComplete : Obligations.LifecycleAndPairRegisterCommandsComplete := by
  intro s t u m now
  refine ⟨fun who h => ?_, fun who h => ?_, fun who h => ?_, fun who h => ?_, fun who h => ?_, fun who h => ?_⟩
  · change execTokenSubmit t who s = _
    exact write_lcCmd (d := 2) h
  · change execLcDeploy t who s = _
    exact write_lcCmd (d := 1) h
  · change execSessionClose t who s = _
    exact write_lcCmd (d := 4) h
  · change execPairAccept t who s = _
    exact write_pairCmd (d := 2) h
  · change execPairHandover t who s = _
    exact write_pairCmd (d := 1) h
  · change execClearAlert t who s = _
    exact write_pairCmd (d := 4) h

/-! ### CFG -/

@[simp] theorem stored_cfg (m : Chip) (a data : Nat) : (stored m a data).cfg = m.cfg := by
  unfold stored
  split
  · dsimp only
    split <;> split <;> rfl
  · rfl

/-- `rollback` with a previous bank pends its activation (R791). -/
theorem cfgEffect_rollback {m : Chip} (h : bankOf m (1 - m.cfg.active) = .previous) (now who : Nat) (flt : Bool) :
    cfgEffect m now who A.CFG_CMD 8 flt = cfgPend (rstR m A.CFG_CMD) now true := by
  have heffect : cfgEffect m now who A.CFG_CMD 8 flt =
      if bankOf m (1 - m.cfg.active) = .previous then cfgPend (rstR m A.CFG_CMD) now true else cfgCode (rstR m A.CFG_CMD) 0x87 := rfl
  rw [heffect, if_pos h]

/-- `set_floor` advances the floor, with the outcome of the NVM write (R792). -/
theorem cfgEffect_floor (m : Chip) (now who : Nat) (ok : Bool) :
    cfgEffect m now who A.CFG_CMD 32 (!ok) = cfgFloor (rstR m A.CFG_CMD) now ok := by
  cases ok <;> rfl

/-- `load` starts the load of an image, with what its reads meet (R781). -/
theorem cfgEffect_load (m : Chip) (now who : Nat) (flt : Bool) :
    cfgEffect m now who A.CFG_CMD 2 flt = cfgLoad (rstR m A.CFG_CMD) now flt := by
  have hload : bit 2 1 = true := rfl
  have hothers : bit 2 0 = false ∧ bit 2 2 = false ∧ bit 2 3 = false ∧ bit 2 4 = false ∧ bit 2 5 = false := ⟨rfl, rfl, rfl, rfl, rfl⟩
  simp only [cfgEffect, hload, hothers, if_true, if_false, Bool.false_eq_true]

/-- `restart` restarts the control firmware for the initiator that writes, with what its reads meet (R794). -/
theorem cfgEffect_fwRestart (m : Chip) (now who : Nat) (flt : Bool) :
    cfgEffect m now who A.CFG_FW_CMD 1 flt = fwRestart (rstR m A.CFG_FW_CMD) now who flt := by
  have hbits : bit 1 0 = true ∧ bit 1 1 = false := ⟨rfl, rfl⟩
  rw [cfgEffect, if_neg (by decide), if_pos rfl]
  simp only [hbits, if_true, if_false, Bool.false_eq_true]

/-! ### `<BLK>_ERR_CLR` -/

theorem inForceLater_errClr (b : Blk) : inForceLater (errClr b) = false := by
  cases b <;> rfl

/-- A write of `<BLK>_ERR_CLR` does nothing beside clearing the record (R836). -/
theorem blockEffect_errClr (m0 m : Chip) (now who : Nat) (b : Blk) (old new : Nat) (flt : Bool) :
    blockEffect m0 m now who b (errClr b) old new 1 flt = m := by
  cases b <;> rfl

/-- Settles O58: the effect of each write is that of CFG at its register and data; `ERR_CLR` clears the record as it is stored. -/
theorem configurationRegisterCommandsComplete : Obligations.ConfigurationRegisterCommandsComplete := by
  intro s t u m now
  refine ⟨fun who h => ?_, fun who ecc h => ?_, fun who h => ?_, fun who h hbank => ?_, fun who h => ?_, fun who ok h => ?_,
    fun who ecc h => ?_, fun who h => ?_, fun who ecc h => ?_, fun who b h => ⟨?_, ?_⟩⟩
  · change execCfgCommit t who s = _
    exact write_cfg (d := 1) h regRow_cfgCmd (by decide) inForceLater_cfgCmd fun _ => rfl
  · change execCfgLoad t who ecc s = _
    exact write_cfg (d := 2) h regRow_cfgCmd (by decide) inForceLater_cfgCmd fun x => cfgEffect_load x now who ecc
  · change execCfgActivate t who s = _
    exact write_cfg (d := 4) h regRow_cfgCmd (by decide) inForceLater_cfgCmd fun _ => rfl
  · have hbank' : bankOf (stored m A.CFG_CMD 8) (1 - (stored m A.CFG_CMD 8).cfg.active) = .previous := by
      simpa only [bankOf, stored_cfg] using hbank
    change execCfgRollback t who s = _
    exact write_taken_of_stored (d := 8) h regRow_cfgCmd (by decide) inForceLater_cfgCmd (cfgEffect_rollback hbank' now _ false)
  · change execCfgCancel t who s = _
    exact write_cfg (d := 16) h regRow_cfgCmd (by decide) inForceLater_cfgCmd fun _ => rfl
  · change execCfgFloor t who ok s = _
    exact write_taken (d := 32) h regRow_cfgCmd (by decide) inForceLater_cfgCmd fun x => cfgEffect_floor x now _ ok
  · change execFwRestart t who ecc s = _
    exact write_cfg (d := 1) h regRow_fwCmd (by decide) inForceLater_fwCmd fun x => cfgEffect_fwRestart x now who ecc
  · change execFwDone t who s = _
    exact write_cfg (d := 2) h regRow_fwCmd (by decide) inForceLater_fwCmd fun _ => rfl
  · change execBootRecoveryGo t who ecc s = _
    exact write_cfg (d := 1) h regRow_bootCmd (by decide) inForceLater_bootCmd fun _ => rfl
  · obtain ⟨r, ix, hrow, hoff, -⟩ := errClr_row (Blk.all.getD b .glb)
    change execErrClr t who b s = _
    exact write_taken (d := 1) h hrow (by omega) (inForceLater_errClr _) fun x => blockEffect_errClr m x now who _ _ _ false
  · rw [stored_errClr, if_pos (show bit 1 0 = true from rfl)]
    exact rd_wr_same m _ 0

end Sys2Proof.Machine

/-! ## Power management, the triad, the pair's token and its cycles (R669-R719, R738-R797) -/

namespace Sys2Proof.Machine

/-! ### Power management (R670-R698, R835) -/

/-- A drain that ends in a device that is not parking is the Mint domain's (R702). -/
theorem exec_drainTimeout_mint {s : State} {t now : Nat} {m : Chip} {l : Nat} (h : Finds s t m now) (hrun : m.pwr.mode = .run)
    (hlatch : m.pwr.mintLatch = some l) (hlate : l + fld m A.PWR_DRAIN_TMO 0 17 * us ≤ now) :
    exec (.drainTimeout t) s = .next (s.done t (mintOff (setF (drainRec now (mintDown m now true) (15, m.mint.jobs.length, 0, 0, 0))
      A.PWR_PARK_STATUS 16 16 (sat 16 m.mint.jobs.length)))) := by
  change execDrainTimeout t s = _
  refine core_answers h ((if_neg (by simp [hrun])).trans ?_)
  simp only [hlatch]
  exact if_pos hlate

/-- Settles O42: each command's condition holds, and its operation runs. -/
theorem powerManagementCommandsComplete : Obligations.PowerManagementCommandsComplete := by
  intro s t m now h
  refine ⟨fun temp => ?_, fun hpark hphase hdrained => ?_, fun hrun hlatch hidle => ?_, fun hpark hphase hlate => ?_,
    fun l hrun hlatch hlate => exec_drainTimeout_mint h hrun hlatch hlate, ?_, fun hen hpg => ?_, fun need _ => ?_,
    fun a hsince hen hquiet hrun hlate => ?_, fun hidle => ?_⟩
  · change execTemperatureScan t temp s = _
    exact core_answers h rfl
  · change execDrainComplete t s = _
    exact core_answers h (if_pos (by simp [hpark, hphase, hdrained]))
  · change execDrainComplete t s = _
    exact core_answers h ((if_neg (by simp [hrun])).trans (if_pos (by rw [hlatch, hidle]; rfl)))
  · change execDrainTimeout t s = _
    exact core_answers h ((if_pos (by simp [hpark, hphase])).trans (if_pos hlate))
  · change execPmicFaultInput t true s = _
    exact core_answers h (if_pos rfl)
  · change execPmicFaultInput t false s = _
    exact core_answers h ((if_neg Bool.false_ne_true).trans (if_pos (by simp [hen, hpg])))
  · change execAvsUpdate t need s = _
    exact core_answers h rfl
  · change execIdleGatingStart t s = _
    refine core_answers h ?_
    simp only [hsince]
    exact if_pos (by simp [hen, hquiet, hrun, hlate])
  · change execIdleGatingEnd t s = _
    exact core_answers h (if_pos hidle)

/-! ### The triad and the watchdogs (R709-R719) -/

/-- A mismatch of a copy, of kind `k`, in a triad of three copies takes the copy out and leaves the start of the stall free (R709, R710). -/
theorem singleMismatch_of_three {m : Chip} (hmode : m.triad.mode = 0) (now c k group pc : Nat) :
    singleMismatch m now c k group pc =
      let m1 := setIrq (bump (triadMismatch (useFree (later (updTriad m fun x => { x with mode := 1, odd := c, src := otherCopy c, syncAt := now })
        (now + cyc * (1 + freeVal m)) (.stall now))) now (2 ^ c) k group pc 1) A.mismatches 1) .safe 16
      if k = 3 then setIrq m1 .safe 21 else m1 :=
  if_pos hmode

/-- Settles O43: each command's condition holds, and its operation runs. -/
theorem triadCommandsComplete : Obligations.TriadCommandsComplete := by
  intro s t m now h
  refine ⟨fun c g pc hmode => ?_, fun c g pc hmode => ?_, fun hmode => ?_, fun k g pc hmode => ?_, fun d hat hmode hdue => ?_,
    fun d hat hmode hdue => ?_, fun hlapsed hmode => ?_, fun hlapsed => ?_⟩
  · change execTriadSingleMismatch t c false g pc s = _
    exact core_answers h ((singleMismatch_of_three hmode ..).trans (if_neg (by decide)))
  · change execTriadSingleMismatch t c true g pc s = _
    exact core_answers h ((singleMismatch_of_three hmode ..).trans (if_pos rfl))
  · change execTriadRejoin t s = _
    exact core_answers h (if_pos hmode)
  · change execTriadDoubleMismatch t k g pc s = _
    exact core_answers h (if_neg (Nat.not_le.2 hmode))
  · change execTriadRestart t false s = _
    refine core_answers h ?_
    simp only [hat, hmode, hdue, decide_true, Bool.and_true, if_true]
    exact if_neg Bool.false_ne_true
  · change execTriadRestart t true s = _
    refine core_answers h ?_
    simp only [hat, hmode, hdue, decide_true, Bool.and_true, if_true]
    exact if_pos rfl
  · change execTriadWdtExpiry t s = _
    exact core_answers h ((if_pos hlapsed).trans (if_neg hmode))
  · change execCwdtExpiry t s = _
    exact core_answers h (if_pos hlapsed)

/-! ### The token (R738-R766) -/

/-- Settles O45: each command's condition holds, and its operation runs; the lease and the hold-off lapse without CORE too. -/
theorem pairTokenCommandsComplete : Obligations.PairTokenCommandsComplete := by
  intro s t m now hfound
  refine ⟨fun hon => ?_, fun hactive hlapsed => ?_, fun d hholdoff hdue => ?_⟩
  · have h : Finds s t m now := ⟨hfound, hon⟩
    refine ⟨fun n flt hsamples hmay => ?_, fun d hrelease hactive hdue => ?_, fun k hactive hhigh => ?_, fun d haccept hdue => ?_,
      fun hhanding => ?_⟩
    · change execTokenClaim t n flt s = _
      exact core_answers h (if_pos (by simp [hsamples, hmay]))
    · change execGuardedPortsRelease t s = _
      refine core_answers h ?_
      simp only [hrelease]
      exact if_pos (by simp [hactive, hdue])
    · change execPairActLineFault t k s = _
      exact core_answers h (if_pos (by simp [hactive, hhigh]))
    · change execAcceptExpiry t s = _
      refine core_answers h ?_
      simp only [haccept]
      exact if_pos hdue
    · change execHandoverRelease t s = _
      exact core_answers h (if_pos hhanding)
  · rw [exec, execLeaseExpiry, run_finds hfound, if_pos (by simp [hactive, hlapsed])]
  · rw [exec, execHoldoffExpiry, run_finds hfound]
    simp only [hholdoff, if_pos hdue]

/-! ### Cycles of the pair and images (R749-R797) -/

/-- Settles O46: each command's condition holds, and its operation runs. -/
theorem pairCycleAndImageCommandsComplete : Obligations.PairCycleAndImageCommandsComplete := by
  intro s t m now h
  refine ⟨fun k b hsnap hen hdue hown => ?_, fun f v k lt len secs hen => ?_, fun f v k lt len secs hen => ?_,
    fun k b bad p q e hcheck hown hdue hbad => ?_, fun x hcheck hpar hdue => ?_, fun l _ => ?_, fun p hpend hdue => ?_,
    fun hdue hafter => ?_⟩
  · change execPairCycleClose t s = _
    refine core_answers h ?_
    simp only [hsnap]
    exact if_pos (by simp [hen, hdue, hown])
  · change execBundleReceive t true f v k lt len secs s = _
    exact core_answers h ((if_neg (by simp [hen])).trans (if_pos rfl))
  · change execBundleReceive t false f v k lt len secs s = _
    exact core_answers h ((if_neg (by simp [hen])).trans (if_neg Bool.false_ne_true))
  · change execSelfCheckEnd t p q e s = _
    subst hbad
    refine core_answers h ?_
    simp only [hcheck]
    exact if_neg (by simp [hown, hdue])
  · obtain ⟨k, b⟩ := x
    change execSelfCheckResultTimeout t s = _
    refine core_answers h ?_
    simp only [hcheck]
    exact if_pos (by simp [hpar, hdue])
  · change execCfgLoadComplete t s = _
    exact core_answers h rfl
  · change execActivationEffect t s = _
    refine core_answers h ?_
    simp only [settleAct, hpend]
    exact if_pos (by rw [hdue]; rfl)
  · change execGclApply t s = _
    exact core_answers h (if_neg (by simp [hdue, hafter]))

end Sys2Proof.Machine

/-! ## Exclusive accesses, debug and the Ledger's records (R615-R626, R645-R659, R720-R724) -/

namespace Sys2Proof.Machine

/-! ### Exclusive accesses (R622-R625) -/

/-- A hart's read of a powered register in BRG's range answers what the register reads. -/
theorem get_of_hart {m : Chip} {who a : Nat} (hwho : who ≠ 7) (hsend : sends m who = true) (hrange : brgRange a = true)
    (hreach : reach m a = .ok) (now : Nat) :
    get m now who a = ((readTarget m now who a).1, some (BitVec.ofNat 32 (readTarget m now who a).2)) := by
  simp [get, busRead, serviceDenied, hwho, hsend, hrange, hreach]

/-- The monitors play no part in whether an initiator can send an access or in what it finds. -/
@[simp] theorem sends_monClear (m : Chip) (x who : Nat) : sends (monClear m x) who = sends m who := rfl
@[simp] theorem reach_monClear (m : Chip) (x a : Nat) : reach (monClear m x) a = reach m a := rfl

section Exclusive
variable {m : Chip} {h : Fin 5} {a : Nat} (hrange : brgRange a = true) (hsend : sends m (2 + h) = true)
include hrange hsend

/-- LR.W answers the word that it read, and arms the monitor (R622). -/
theorem loadReserved_of_ok (now : Nat) (hreach : reach m a = .ok) : loadReserved m now h a =
    hartAnswer (monArm (readTarget m now (2 + h) a).1 now (2 + h) a) h (BitVec.ofNat 32 (readTarget m now (2 + h) a).2) true := by
  simp only [loadReserved, hartOf, get_of_hart (by omega : 2 + h.val ≠ 7) hsend hrange hreach, hrange, if_true]

/-- SC.W with the monitor writes the word and answers 0 (R624). -/
theorem storeConditional_of_monitor (now : Nat) (d : Word) (hmon : monHas m now (2 + h) a = true) (hgood : writeFails m a = false) :
    storeConditional m now h a d = hartAnswer (busWrite (monDrop m (2 + h)) now (2 + h) a d true false) h 0 true := by
  simp [storeConditional, hartOf, hrange, hsend, hmon, hgood]

/-- SC.W without the monitor answers 1, counts and writes nothing (R624). -/
theorem storeConditional_of_noMonitor (now : Nat) (d : Word) (hmon : monHas m now (2 + h) a = false) :
    storeConditional m now h a d = hartAnswer (bump (monDrop m (2 + h)) A.sc_fail 1) h 1 false := by
  simp [storeConditional, hartOf, hrange, hsend, hmon]

/-- AMO.W answers the word that it read and writes the result (R625). -/
theorem amo_of_ok {x : Chip} {v : Nat} (now op : Nat) (d : Word) (hreach : reach m a = .ok)
    (hread : readTarget (monClear m a) now (2 + h) a = (x, v)) (hgood : writeFails x a = false) :
    amo m now h op a d =
      hartAnswer (busWrite x now (2 + h) a (amoResult op (BitVec.ofNat 32 v) d) true false) h (BitVec.ofNat 32 v) true := by
  have hget : get (monClear m a) now (2 + h) a = (x, some (BitVec.ofNat 32 v)) := by
    rw [get_of_hart (by omega) (by simpa using hsend) hrange (by simpa using hreach), hread]
  simp [amo, hartOf, hrange, hsend, hget, hgood]

end Exclusive

/-- Settles O60: BRG accepts the access, and the operation of the hart runs on what it finds. -/
theorem exclusiveAccessesComplete : Obligations.ExclusiveAccessesComplete := by
  intro s t u m now h a hrange hsend
  refine ⟨fun hacc hreach => ?_, fun d hacc hmon hgood => ?_, fun d hacc hmon => ?_, fun op d x v hacc hreach hread hgood => ?_⟩
  · change execLrW t h a s = _
    exact (access_accepted hacc _).trans (by rw [loadReserved_of_ok hrange hsend now hreach])
  · change execScW t h a d s = _
    exact (access_accepted hacc _).trans (by rw [storeConditional_of_monitor hrange hsend now d hmon hgood])
  · change execScW t h a d s = _
    exact (access_accepted hacc _).trans (by rw [storeConditional_of_noMonitor hrange hsend now d hmon])
  · change execAmoW t h op a d s = _
    exact (access_accepted hacc _).trans (by rw [amo_of_ok hrange hsend now op d hreach hread hgood])

/-! ### Debug (R720-R724) -/

section Debug
variable {m : Chip} (now harts : Nat) (cluster : Chip → Chip) (triad : Nat → Chip → Chip)

/-- Where the lifecycle does not permit debug, an operation answers status 2 and does nothing (R720). -/
theorem debugOp_of_denied (dm : Nat) (h : svcDebug m = false) : debugOp m now dm harts cluster triad = dmiAnswer m 2 := by
  simp [debugOp, h]

/-- An operation of the cluster's module. -/
theorem debugOp_cluster (h : svcDebug m = true) : debugOp m now 0 harts cluster triad = cluster (dmiAnswer m 0) := by
  simp [debugOp, h]

/-- Outside SERVICE-SAFETY, an operation of the triad's module on hart 0 is one of its three copies (R724). -/
theorem debugOp_triad (h : svcDebug m = true) (hlife : m.life ≠ 3) (hhart : bit harts 0 = true) :
    debugOp m now 1 harts cluster triad = triad 7 (dmiAnswer m 0) := by
  simp [debugOp, h, hlife, hhart]

end Debug

/-- Settles O44: the lifecycle decides, and the operation of the module or of initiator 7 runs. -/
theorem debugCommandsComplete : Obligations.DebugCommandsComplete := by
  intro s t u m now
  refine ⟨fun h => ⟨fun dm a op d hden => ?_, fun dm a d hdbg => ?_, fun k hdbg => ?_, fun k hdbg hlife hhart => ?_, fun k hdbg => ?_,
    fun k hdbg hlife hhart => ?_, fun dm k hden => ?_, fun k odd hdbg => ?_, fun e hopen hdue => ?_⟩,
    fun a d hacc hdbg => ?_, fun a d hacc hdbg => ?_, fun w a d hacc hden => ?_⟩
  · change execDmiAccess t dm a op d s = _
    exact core_answers h (if_pos (by simp [hden]))
  · change execDmiAccess t dm a 1 d s = _
    exact core_answers h ((if_neg (by simp [hdbg])).trans (if_pos rfl))
  · change execDebugHaltRequest t 0 k s = _
    exact core_answers h (debugOp_cluster now k _ _ hdbg)
  · change execDebugHaltRequest t 1 k s = _
    exact core_answers h (debugOp_triad now k _ _ hdbg hlife hhart)
  · change execDebugResumeRequest t 0 k s = _
    exact core_answers h (debugOp_cluster now k _ _ hdbg)
  · change execDebugResumeRequest t 1 k s = _
    exact core_answers h (debugOp_triad now k _ _ hdbg hlife hhart)
  · change execDebugHaltRequest t dm k s = _
    exact core_answers h (debugOp_of_denied now k _ _ dm hden)
  · change execAbstractCommand t 0 k odd s = _
    exact core_answers h (debugOp_cluster now k _ _ hdbg)
  · change execSessionExpiry t s = _
    refine core_answers h ?_
    simp only [hopen]
    exact if_pos hdue
  · change execSystemBusAccess t true a d s = _
    exact (access_accepted hacc _).trans (by simp [hdbg])
  · change execSystemBusAccess t false a d s = _
    exact (access_accepted hacc _).trans (by simp [hdbg])
  · change execSystemBusAccess t w a d s = _
    exact (access_accepted hacc _).trans (by simp [hden])

/-! ### Failed accesses, reports and the Ledger's records (R615-R627, R645-R659) -/

/-- Settles O39: each command's condition holds, and its operation runs. -/
theorem errorAndLedgerCommandsComplete : Obligations.ErrorAndLedgerCommandsComplete := by
  intro s t m now h
  refine ⟨fun who a d c hcode => ?_, fun who a d w since hlate => ?_, fun k a hrange hsend => ?_, fun k => ?_,
    fun src code sev info hsev => ?_, ?_, fun hdue hroom => ?_, fun hlost hwin hstart hroom => ?_, fun ecc e hexp hfull => ?_,
    fun ecc e hexp hsome hlate => ?_⟩
  · change execPostedWriteError t who a d c s = _
    exact core_answers h (if_neg (Fin.val_ne_of_ne hcode))
  · change execTargetTimeout t who a d w since s = _
    exact core_answers h (if_pos hlate)
  · change execExclusive64Access t k a s = _
    exact core_answers h (if_pos (by simp [hrange, hsend]))
  · change execMonitorTimeout t k s = _
    exact core_answers h rfl
  · change execSafeErrorReport t src code sev info s = _
    exact core_answers h (if_neg (Fin.val_ne_of_ne hsev))
  · change execLedgerAccept t s = _
    exact core_answers h rfl
  · change execTimeAnchor t s = _
    exact core_answers h (if_pos (by simp [hdue, hroom]))
  · have hnone : ¬ (decide (m.ledger.lostF + m.ledger.lostO + m.ledger.lostE = 0) || decide (m.ledger.lostWin = some (now / ms))
        || m.ledger.startDue.isSome || ledgerFull m now) = true := by
      rw [decide_eq_false hlost, decide_eq_false hwin, hstart, hroom]
      decide
    change execLedgerLost t s = _
    exact core_answers h (if_neg hnone)
  · change execExportBufferFull t ecc s = _
    refine core_answers h ?_
    simp only [hexp]
    exact if_pos hfull
  · change execExportFlushTimeout t ecc s = _
    refine core_answers h ?_
    simp only [hexp]
    exact if_pos (by simp [hsome, hlate])

end Sys2Proof.Machine

/-! ## Rings: their registers (R563, R601, R603, R604) and the DMA engine (R572-R602) -/

namespace Sys2Proof.Machine

/-! ### The registers of a ring in the map -/

/-- The rows of `HIF_RING_CFG`, `HIF_RING_CTRL` and `HIF_DB`. -/
def ringCfgRow : RegRow := regsHif1[10]'(by decide)
def ringCtrlRow : RegRow := regsHif1[16]'(by decide)
def dbRow : RegRow := regsHif2[4]'(by decide)

/-- The first `k` of the rows that HIF repeats for each ring, from `HIF_RING_CFG` on. -/
def ringRows (k : Nat) : List RegRow := (regsHif1.drop 10).take k

/-- A ring's register is found among the rows that are repeated for each ring. -/
theorem regRow_ring {k o : Nat} {row : RegRow} (hrep : (ringRows k).all (RegRow.spans 64 0x40 o) = true)
    (hfind : findRow (ringRows k) o = some (row, [0])) (ho : 0x10000 ≤ o ∧ o < 0x10040) (r : Fin 64) :
    regRow (0x40200000 + (o + 0x40 * r.val)) = some (.hif, row, [r.val]) := by
  refine regRow_of_findRow .hif rfl (by simp only [Blk.size]; omega) ?_
  have hring : findRow (ringRows k) (o + 0x40 * r.val) = some (row, [r.val]) := by rw [findRow_repetition hrep r.isLt, hfind]; rfl
  have hrows : Blk.hif.rows = regsHif1.take 10 ++ (ringRows k ++ ((regsHif1.drop 10).drop k ++ regsHif2)) := by
    rw [← List.append_assoc (ringRows k), ringRows, List.take_append_drop]
    rfl
  rw [hrows, findRow_append_of_endsBy (e := 0x10000) (by decide) (by omega)]
  exact findRow_append_of_some hring _

theorem regRow_ringCfg (r : Fin 64) : regRow (A.HIF_RING_CFG r) = some (.hif, ringCfgRow, [r.val]) := by
  rw [show A.HIF_RING_CFG r = 0x40200000 + (0x10000 + 0x40 * r.val) by unfold A.HIF_RING_CFG; omega]
  exact regRow_ring (k := 1) (by decide) rfl (by decide) r

theorem regRow_ringCtrl (r : Fin 64) : regRow (A.HIF_RING_CTRL r) = some (.hif, ringCtrlRow, [r.val]) := by
  rw [show A.HIF_RING_CTRL r = 0x40200000 + (0x10018 + 0x40 * r.val) by unfold A.HIF_RING_CTRL; omega]
  exact regRow_ring (k := 7) (by decide) rfl (by decide) r

/-- A doorbell lies behind every other register of HIF but the indices. -/
theorem regRow_db (r : Fin 64) : regRow (A.HIF_DB r) = some (.hif, dbRow, [r.val]) := by
  refine regRow_of_findRow .hif (o := 0x80000 + 0x1000 * r.val) (by simp only [A.HIF_DB, Blk.base]; omega)
    (by simp only [Blk.size]; omega) ?_
  have hdb : findRow [dbRow] (0x80000 + 0x1000 * r.val) = some (dbRow, [r.val]) := by
    rw [findRow_repetition (n := 64) (by decide) r.isLt]
    rfl
  rw [show Blk.hif.rows = (regsHif1 ++ regsHif2.take 4) ++ ([dbRow] ++ regsHif2.drop 5) from rfl,
    findRow_append_of_endsBy (e := 0x80000) (by decide) (by omega)]
  exact findRow_append_of_some hdb _

/-- A write of HIF is in force at once. -/
theorem inForceLater_hif {a : Nat} (hlo : 0x40200000 ≤ a) (hhi : a < 0x40300000) : inForceLater a = false := by
  have hsch : schPage a = none := if_neg (by simp; omega)
  simp only [inForceLater, hsch, Bool.or_eq_false_iff, Bool.and_eq_false_iff, List.any_eq_false, beq_eq_false_iff_ne, beq_iff_eq,
    decide_eq_false_iff_not, List.mem_range, and_true]
  unfold A.PRS_CT_TMO_TCP0 A.PRS_CT_TMO_TCP1 A.PRS_CT_TMO_UDP A.PRS_CT_TMO_GEN A.PRS_FW_LOG A.TM_PORT_HOLD A.TIME_Dd_RATE
    A.TIME_Dd_ADJ_CMD A.MACSEC_TXSC_CFG A.MINT_TELLER_CFG A.MINT_STREAM_CFG A.DMA_CFG A.LEDGER_CFG A.LEDGER_EXPORT_CFG
    A.LEDGER_FRAME_RX_PORTS A.LEDGER_FRAME_TX_PORTS A.LEDGER_STREAM_EN irqRoute A.GLB_IRQ_ROUTE_H0
  and_intros
  · exact Or.inl (Or.inl (Or.inl (by omega)))
  all_goals (intros; omega)

theorem inForceLater_ringCfg (r : Fin 64) : inForceLater (A.HIF_RING_CFG r) = false :=
  inForceLater_hif (by unfold A.HIF_RING_CFG; omega) (by unfold A.HIF_RING_CFG; omega)

theorem inForceLater_ringCtrl (r : Fin 64) : inForceLater (A.HIF_RING_CTRL r) = false :=
  inForceLater_hif (by unfold A.HIF_RING_CTRL; omega) (by unfold A.HIF_RING_CTRL; omega)

theorem inForceLater_db (r : Fin 64) : inForceLater (A.HIF_DB r) = false :=
  inForceLater_hif (by unfold A.HIF_DB; omega) (by unfold A.HIF_DB; omega)

theorem ringPage_ringCfg (r : Fin 64) : ringPage (A.HIF_RING_CFG r) = some (r.val, 0) := by
  unfold A.HIF_RING_CFG ringPage
  rw [if_pos (by simp; omega)]
  simp only [Option.some.injEq, Prod.mk.injEq]
  omega

theorem ringPage_ringCtrl (r : Fin 64) : ringPage (A.HIF_RING_CTRL r) = some (r.val, 0x18) := by
  unfold A.HIF_RING_CTRL ringPage
  rw [if_pos (by simp; omega)]
  simp only [Option.some.injEq, Prod.mk.injEq]
  omega

theorem dbPage_db (r : Fin 64) : ringPage (A.HIF_DB r) = none ∧ dbPage (A.HIF_DB r) = some (r.val, 0) := by
  unfold A.HIF_DB ringPage dbPage
  refine ⟨if_neg (by simp; omega), ?_⟩
  rw [if_pos (by simp; omega)]
  simp only [Option.some.injEq, Prod.mk.injEq]
  omega

/-! ### The device under the storing of a write -/

/-- Storing the fields of a write leaves the DMA engine. -/
@[simp] theorem stored_dma (m : Chip) (a data : Nat) : (stored m a data).dma = m.dma := by
  unfold stored
  split
  · dsimp only
    split <;> split <;> rfl
  · rfl

/-- The state of a ring is no part of the registers. -/
theorem ringOf_rstR_stored (m : Chip) (a data r : Nat) : ringOf (rstR (stored m a data) a) r = ringOf m r := by
  show (stored m a data).dma.rings.getD r {} = _
  rw [stored_dma]
  rfl

/-- Whether a ring is enabled lies outside `HIF_RING_CTRL`. -/
theorem ringEn_rstR_stored (m : Chip) (r : Fin 64) (data : Nat) :
    ringEn (rstR (stored m (A.HIF_RING_CTRL r) data) (A.HIF_RING_CTRL r)) r = ringEn m r := by
  have hne : A.HIF_RING_CFG r ≠ A.HIF_RING_CTRL r := by unfold A.HIF_RING_CFG A.HIF_RING_CTRL; omega
  have hrst : ringEn (rstR (stored m (A.HIF_RING_CTRL r) data) (A.HIF_RING_CTRL r)) r = ringEn (stored m (A.HIF_RING_CTRL r) data) r := by
    simp only [ringEn, flag, rdN, rstR, rd_wr_other _ _ _ _ hne]
  rw [hrst]
  exact flag_stored_other (regRow_ringCtrl r) (by decide) hne m data 0

/-! ### What the writes do beside storing their fields -/

section Effect
variable (m : Chip) (now : Nat) (r : Fin 64) (old new data : Nat)

/-- A doorbell moves the index of its ring (R563). -/
theorem hifEffect_db : hifEffect m now (A.HIF_DB r) old new data = doorbell m now r data := by
  obtain ⟨hring, hdb⟩ := dbPage_db r
  simp only [hifEffect, hring, hdb, if_true]

/-- `stop` of an enabled ring that is not stopped is latched later (R601). -/
theorem hifEffect_stop {m : Chip} (hen : ringEn (rstR m (A.HIF_RING_CTRL r)) r = true) (hrun : (ringOf m r).stopped = false) :
    hifEffect m now (A.HIF_RING_CTRL r) old new 1 = later (rstR m (A.HIF_RING_CTRL r)) (now + 2 * cyc) (.ringStop r) := by
  have hbits : bit 1 0 = true ∧ bit 1 1 = false ∧ bit 1 2 = false ∧ bit 1 3 = false := ⟨rfl, rfl, rfl, rfl⟩
  simp [hifEffect, ringPage_ringCtrl, hbits, hen, hrun]

/-- `start` lets a ring without error run (R603). -/
theorem hifEffect_start {m : Chip} (herr : (ringOf (rstR m (A.HIF_RING_CTRL r)) r).err = 0) :
    hifEffect m now (A.HIF_RING_CTRL r) old new 2 = ringResume (rstR m (A.HIF_RING_CTRL r)) now r := by
  have hbits : bit 2 0 = false ∧ bit 2 1 = true ∧ bit 2 2 = false ∧ bit 2 3 = false := ⟨rfl, rfl, rfl, rfl⟩
  simp [hifEffect, ringPage_ringCtrl, hbits, herr]

/-- `withdraw` is latched later (R603). -/
theorem hifEffect_withdraw : hifEffect m now (A.HIF_RING_CTRL r) old new 4 =
    later (rstR m (A.HIF_RING_CTRL r)) (now + 2 * cyc) (.ringWithdraw r) := by
  have hbits : bit 4 0 = false ∧ bit 4 1 = false ∧ bit 4 2 = true ∧ bit 4 3 = false := ⟨rfl, rfl, rfl, rfl⟩
  simp [hifEffect, ringPage_ringCtrl, hbits]

/-- `clear_err` clears the error of the ring (R603). -/
theorem hifEffect_clearErr : hifEffect m now (A.HIF_RING_CTRL r) old new 8 =
    updRing (rstR m (A.HIF_RING_CTRL r)) r fun x => { x with err := 0 } := by
  have hbits : bit 8 0 = false ∧ bit 8 1 = false ∧ bit 8 2 = false ∧ bit 8 3 = true := ⟨rfl, rfl, rfl, rfl⟩
  simp [hifEffect, ringPage_ringCtrl, hbits]

/-- A ring that is enabled starts from its initial state (R563). -/
theorem hifEffect_enable {old new : Nat} (hold : bit old 0 = false) (hnew : bit new 0 = true) :
    hifEffect m now (A.HIF_RING_CFG r) old new data = updRing m r ringReset := by
  simp [hifEffect, ringPage_ringCfg, hold, hnew]

/-- A ring that is disabled is no longer stopped or stopping (R604). -/
theorem hifEffect_disable {old new : Nat} (hold : bit old 0 = true) (hnew : bit new 0 = false) :
    hifEffect m now (A.HIF_RING_CFG r) old new data =
      updRing m r fun x => { x with stopped := false, stopping := false, gather := none, withdrawTo := none } := by
  simp [hifEffect, ringPage_ringCfg, hold, hnew]

end Effect

/-- A write of `HIF_RING_CFG` leaves `en` as its data has it. -/
theorem bit_newWord_ringCfg (m : Chip) (r : Fin 64) (data : Nat) : bit (newWord m (A.HIF_RING_CFG r) data) 0 = bit data 0 := by
  rw [newWord_of_row (regRow_ringCfg r), bit_eq_testBit, bit_eq_testBit, testBit_fieldsWritten]
  simp [show ringCfgRow.rw.testBit 0 = true from rfl, show ringCfgRow.w1c = 0 from rfl, show ringCfgRow.w1s = 0 from rfl]

/-- A write of `HIF_RING_CFG` finds `en` as the ring has it. -/
theorem bit_oldWord_ringCfg (m : Chip) (r : Fin 64) : bit (oldWord m (A.HIF_RING_CFG r)) 0 = flag m (A.HIF_RING_CFG r) 0 := by
  rw [show oldWord m (A.HIF_RING_CFG r) = rdN m (A.HIF_RING_CFG r) from oldWord_of_row (regRow_ringCfg r)]
  rfl

/-- The words that the commands send have `en` set and clear. -/
theorem bit_enableWord (d : Word) : bit (d ||| 1).toNat 0 = true := by
  simp [bit_eq_testBit, BitVec.toNat_or]

theorem bit_disableWord (d : Word) : bit (d &&& 0xFFFFFFFE).toNat 0 = false := by
  simp [bit_eq_testBit, BitVec.toNat_and]

/-- Settles O55: the effect of each write is that of HIF at its register and data; the latched commands land by definition. -/
theorem ringRegisterCommandsComplete : Obligations.RingRegisterCommandsComplete := by
  intro s t u m now
  refine ⟨fun who r i h => ?_, fun who r h hen hrun => ?_, fun who r h herr => ?_, fun who r h => ?_, fun who r h => ?_,
    fun who r d h hoff => ?_, fun who r d h hon => ?_, fun r => rfl, fun r => rfl⟩
  · change execDoorbell t who r i s = _
    have hsmall : i.toNat < 2 ^ 32 := by omega
    exact write_taken_ofNat hsmall h (regRow_db r) (by decide) (inForceLater_db r) fun x => hifEffect_db x now r _ _ _
  · change execRingStop t who r s = _
    exact write_taken_of_stored (d := 1) h (regRow_ringCtrl r) (by decide) (inForceLater_ringCtrl r)
      (hifEffect_stop now r _ _ ((ringEn_rstR_stored m r 1).trans hen) ((congrArg _ (ringOf_rstR_stored m _ 1 r)).trans hrun))
  · change execRingStart t who r s = _
    exact write_taken_of_stored (d := 2) h (regRow_ringCtrl r) (by decide) (inForceLater_ringCtrl r)
      (hifEffect_start now r _ _ ((congrArg _ (ringOf_rstR_stored m _ 2 r)).trans herr))
  · change execRingWithdraw t who r s = _
    exact write_taken (d := 4) h (regRow_ringCtrl r) (by decide) (inForceLater_ringCtrl r) fun x => hifEffect_withdraw x now r _ _
  · change execRingClearErr t who r s = _
    exact write_taken (d := 8) h (regRow_ringCtrl r) (by decide) (inForceLater_ringCtrl r) fun x => hifEffect_clearErr x now r _ _
  · change execRingEnable t who r d s = _
    exact write_taken h (regRow_ringCfg r) (by decide) (inForceLater_ringCfg r) fun x =>
      hifEffect_enable x now r _ ((bit_oldWord_ringCfg m r).trans hoff) ((bit_newWord_ringCfg m r _).trans (bit_enableWord d))
  · change execRingDisable t who r d s = _
    exact write_taken h (regRow_ringCfg r) (by decide) (inForceLater_ringCfg r) fun x =>
      hifEffect_disable x now r _ ((bit_oldWord_ringCfg m r).trans hon) ((bit_newWord_ringCfg m r _).trans (bit_disableWord d))

/-! ### The DMA engine (R572-R602) -/

/-- A change of a ring's state that keeps its error keeps the error of the ring. -/
theorem ringOf_updRing_err (m : Chip) (r : Nat) {f : RingSt → RingSt} (hf : ∀ x, (f x).err = x.err) :
    (ringOf (updRing m r f) r).err = (ringOf m r).err := by
  show ((m.dma.rings.modify r f).getD r {}).err = (m.dma.rings.getD r {}).err
  simp only [List.getD_eq_getElem?_getD, List.getElem?_modify_eq]
  cases m.dma.rings[r]? with
  | none => rfl
  | some x => exact hf x

/-- Settles O37: each command's condition holds, and its operation runs. -/
theorem dmaCommandsComplete : Obligations.DmaCommandsComplete := by
  intro s t m now h
  refine ⟨fun reads wrote => ?_, fun r htype => ?_, fun r d hgather hdue => ?_, fun r htype => ?_, fun r w htype hwork hdone => ?_,
    fun r htype hcoal hunsig hdue => ?_, fun r hstopping hidle herr => ?_, fun r ecc a => ?_, fun r ecc a => ?_, fun r ecc a => ?_,
    fun r ecc a => ?_⟩
  · change execTransferStart t reads wrote s = _
    exact core_answers h rfl
  · change execFrameTxHandover t r s = _
    exact core_answers h (if_pos htype)
  · change execGatherTmo t r s = _
    refine core_answers h ?_
    simp only [hgather]
    exact if_pos hdue
  · change execFrameRxComplete t r s = _
    exact core_answers h (if_pos htype)
  · change execMemoryCopyComplete t r s = _
    refine core_answers h ((if_neg (not_not.2 htype)).trans ?_)
    simp only [hwork]
    exact if_neg (Nat.not_lt.2 hdone)
  · change execCoalTimeout t r s = _
    exact core_answers h (if_pos (by simp [htype, hcoal, hunsig, hdue]))
  · change execRingStopped t r s = _
    refine core_answers h ((if_pos (by simp [hstopping, hidle])).trans (if_neg ?_))
    rw [not_not, ringOf_updRing_err]
    · exact herr
    · exact fun _ => rfl
  all_goals
    change execDmaError t r _ ecc a s = _
    exact core_answers h rfl

end Sys2Proof.Machine

/-! ## Commands of the signal gateway (R516-R539, R543) -/

namespace Sys2Proof.Machine

/-! ### Timed triggers of a PDU -/

section Trigger
variable (m : Chip) (now k : Nat) (f : Chip → Chip)

/-- A trigger that meets no error runs after the cancellations that are due. -/
theorem sgeTrig_none : sgeTrig m now none f = f (canSettle m now) := rfl

/-- A trigger that meets an error of an image word runs after it (R543). -/
theorem sgeTrig_image : sgeTrig m now (some (6, k)) f = f (sgeEcc (canSettle m now) now 6 k) := by simp only [sgeTrig, if_true]

/-- A trigger that meets an error in another table does not run (R543). -/
theorem sgeTrig_table {j : Nat} (hj : j ≠ 6) : sgeTrig m now (some (j, k)) f = sgeEcc (canSettle m now) now j k := if_neg hj

end Trigger

/-- Settles O36: each command runs its operation, the timed triggers of a PDU according to the error that they meet. -/
theorem signalCommandsComplete : Obligations.SignalCommandsComplete := by
  intro s t m now h
  refine ⟨fun elem ecc => ?_, fun fault => ?_, fun r => ?_, fun i => ?_, fun i k => ?_, fun i j k hj => ?_, fun i => ?_, fun i k => ?_,
    fun i j k hj => ?_, fun i => ?_, fun i k => ?_, fun i j k hj => ?_, fun k => ?_, fun i fault => ?_⟩
  · change execSgeSourceTake t elem ecc s = _
    exact core_answers h rfl
  · change execSecocRxVerify t fault s = _
    exact core_answers h rfl
  · change execSignalTimeout t r s = _
    exact core_answers h rfl
  · change execMinGapExpiry t i none s = _
    exact core_answers h (sgeTrig_none m now _)
  · change execMinGapExpiry t i (some (6, k)) s = _
    exact core_answers h (sgeTrig_image m now k _)
  · change execMinGapExpiry t i (some (j, k)) s = _
    exact core_answers h (sgeTrig_table m now k _ hj)
  · change execPeriodicEmission t i none s = _
    exact core_answers h (sgeTrig_none m now _)
  · change execPeriodicEmission t i (some (6, k)) s = _
    exact core_answers h (sgeTrig_image m now k _)
  · change execPeriodicEmission t i (some (j, k)) s = _
    exact core_answers h (sgeTrig_table m now k _ hj)
  · change execGateEmission t i none s = _
    exact core_answers h (sgeTrig_none m now _)
  · change execGateEmission t i (some (6, k)) s = _
    exact core_answers h (sgeTrig_image m now k _)
  · change execGateEmission t i (some (j, k)) s = _
    exact core_answers h (sgeTrig_table m now k _ hj)
  · change execPendingEmissionPlace t k s = _
    exact core_answers h rfl
  · change execSecocTxComplete t i fault s = _
    exact core_answers h rfl

end Sys2Proof.Machine
